-- ==== Sys2Proof/Word.lean ====
section
/-!
DEFINITION. Sys2Proof/Word.lean: the words of the machine. Registers are 32 bits wide (03 R104), memories are
addressed by byte (01 R28), a register index is 16 bits (00 R8).
-/
namespace Sys2Proof

/-- A register or host word. -/
abbrev Word := BitVec 32

/-- A byte of a memory. -/
abbrev Byte := BitVec 8

/-- A register index: page in bits 15..8, offset in bits 7..0 (00 R8). -/
abbrev RegIndex := BitVec 16

end Sys2Proof
end

