-- ==== Sys2Proof/Syntax.lean ====
section
/-!
DEFINITION. Sys2Proof/Syntax.lean: the commands of the block, one constructor per row of the opcode table, and the
types of their operands. What the environment measures, decodes or decides (03 R3: the firmware of masons 0 to 3 is
not specified) comes as an operand of the command that reports it.
-/
namespace Sys2Proof

/-- Who issues a register access or a door command (04 R151): the host, mason 0 to 4, or the lintel link. -/
inductive Requester where
  | host
  | mason (n : Fin 5)
  | lintel
  deriving DecidableEq, Repr

/-- The four course ports (02 R49). -/
inductive CoursePort where
  | host | memory | lintel | cascade
  deriving DecidableEq, Repr

/-- A frame on the lintel or cascade port (02 R98, R99): its header byte, its length field in bits, its payload, and the level of
the target's ready line as the controller starts it (R100). -/
structure LinkFrame where
  header : Byte
  declared : BitVec 14
  payload : List Byte
  ready : Bool
  deriving DecidableEq, Repr

/-- What was on a port when select rose part-way through a word (02 R79 to R83, R102). -/
inductive PartialFrame where
  /-- inside the command or identifier phase -/
  | head
  /-- a register write frame after the whole words given -/
  | writeWords (addr : RegIndex) (words : List Word)
  /-- a Mortar window write frame after the whole words given -/
  | mortarWords (addr : RegIndex) (words : List Word)
  /-- a WR_TXN frame with its identifier byte, after the whole words given -/
  | staged (ident : Byte) (words : List Word)
  /-- a TXN_COMMIT frame before the last bit of its address phase -/
  | commitAddress
  /-- a TXN_COMMIT frame after its address phase -/
  | commitReply (addr : Word)
  /-- a TXN_BEGIN frame before the last bit of its reply word, which opened the identifier given -/
  | beginReply
  /-- a read frame of registers or of the Mortar window in a data word, after the whole words given -/
  | readData (window : Bool) (addr : RegIndex) (whole : Nat)
  /-- an RD frame in its data word -/
  | oneRead (addr : RegIndex)
  /-- a QPOP frame in a data word, after the whole words given -/
  | popData (addr : RegIndex) (whole : Nat)
  /-- a lintel, cascade or memory frame: whole words received, declared bits, and whether the unit snooping it ends a frame -/
  | link (words : List Word) (declared : Nat)
  deriving DecidableEq, Repr

/-! ## Field, receive and contactless operands (05 to 07) -/

/-- Who requests or releases the field (05 R212): a write of FLD.FIELD, or a contactless job. -/
inductive FieldSource where
  | register (req : Requester) (word : Word)
  | job (holds : Bool)
  deriving DecidableEq, Repr

/-- What one survey step measures (05 R219 to R224): the port driven, the response of each of the eight chains as I and Q,
whether the self response lies within 20 dB of the one expected, and the hottest die sensor. -/
structure SurveyReport where
  port : Fin 8
  responses : List (Int × Int)
  selfOk : Bool
  hottest : Int
  deriving DecidableEq, Repr

/-- One stream of a reply as it is demodulated (06 R258 to R263): whether every symbol was valid, its coupling vector
estimated anew at the end of the reply, the bytes received with their CRC, the bits in the last byte (0: 8), and the parity
bits of type A bytes. -/
structure StreamReport where
  codingOk : Bool
  last : List (Int × Int)
  bytes : List Byte
  lastBits : Nat
  parity : List Bool
  deriving DecidableEq, Repr

/-! ## Broadcast operands (08, 09) -/

/-- What a path measures of its signal: LEVEL; the carrier-to-noise ratio, for DAB the modulation error ratio, in 0.5 dB;
the multipath figure, for DAB the failing fast information blocks; the frequency offset in Hz; whether the pilot is present;
the bandwidth in kHz that the adjacent-channel energy leaves; and a trim out of range: 0 none, 1 DC, 2 I/Q (08 R329, R330,
R341). -/
structure PathReport where
  level : Byte
  snr : Byte
  detail : Byte
  foffset : BitVec 16
  pilot : Bool
  width : Nat
  trim : Fin 3
  deriving DecidableEq, Repr

/-- A complete time-code minute (08 R336): for each second the tenths of it in which the carrier is reduced, and how long
ago its minute marker was in µs, less the group delay of the path (R337). -/
structure MinuteReport where
  seconds : List (BitVec 10)
  ageUs : Nat
  deriving DecidableEq, Repr

/-! ## Valve link operands (10, 11) -/

/-- A meter frame (10 R419): mode C1, format B (of mode C1 only), the carrier offset in Hz, and its chips after the sync
word. -/
structure MeterReport where
  modeC1 : Bool
  formatB : Bool
  foffset : Int
  chips : List Bool
  deriving DecidableEq, Repr

/-! ## Timer operands (14) -/

/-- The counting registers of a timer that a write moves (14 R529, R533). -/
inductive TimerCount where
  | count | top | count32 | top32
  deriving DecidableEq, Repr

/-! ## Twin and cascade operands (16) -/

/-- What a HELLO carries (16 R584, R589): serial number, PRIORITY, the ACTING and NODES flags, the silicon revision, the
random bytes, and the peer's cascade position while its CSC.CTRL.EN is set. -/
structure PeerHello where
  serial : BitVec 64
  priority : BitVec 2
  acting : Bool
  nodes : Bool
  silicon : Word
  random : List Byte
  cascade : Option (BitVec 2)
  deriving DecidableEq, Repr

/-- What an IDENT carries (16 R584, R586): whether the certificate verifies and holds the serial and key presented, the
public key, the OEM key, the endorsement, and the peer's AUTO_PAIR. -/
structure PeerIdent where
  certGood : Bool
  key : List Byte
  oem : List Byte
  endorsement : List Byte
  autoPair : Bool
  deriving DecidableEq, Repr

/-- An outbound slot as mirrored (16 R591). -/
structure SlotImage where
  state : Nat
  attempts : Nat
  result : Nat
  ticket : BitVec 16
  desc : List Byte
  payload : List Byte
  sealed : Option (List Byte)
  deriving DecidableEq, Repr

/-- One item of a VALVE message (16 R591): a slot image, an advance of L, a cache entry, a mark, a duty charge. -/
inductive ValveItem where
  | slot (k : Fin 32) (image : SlotImage)
  | last (node : Fin 512) (counter : Word)
  | cache (node : Fin 512) (src : BitVec 16) (seq : Byte) (counter : Word)
  | mark (node : Fin 512) (value : Word)
  | charge (band : Fin 8) (us : Word)
  deriving DecidableEq, Repr

/-- One part of a bulk transfer (16 R590): register values, a node's entry with its unwrapped key, an empty node, a slot,
the duplicate cache, a duty bucket, or the end of the transfer. -/
inductive BulkPart where
  | regs (entries : List (RegIndex × Word))
  | node (n : Fin 512) (addr : BitVec 16) (size : Byte) (key : List Byte) (last mark : Word)
  | noNode (n : Fin 512)
  | slot (k : Fin 32) (image : SlotImage)
  | cache (entries : List (BitVec 16 × Byte × Word))
  | bucket (band : Fin 8) (index : Fin 61) (us : Word)
  | finish
  deriving DecidableEq, Repr

/-- A mirrored transaction (04 R187): the requester it came from, its tag, register and Mortar entries. -/
structure MirrorTxn where
  requester : Requester
  tag : BitVec 16
  regs : List (RegIndex × Word)
  mortar : List (Nat × Word)
  deriving DecidableEq, Repr

/-- What a FIELD message announces (16 R604). -/
inductive FieldAction where
  | rampUp | rampDown | readerFrame | surveyStep
  deriving DecidableEq, Repr

/-- The commands of the block: one constructor per row of spec/opcode_table.json, named after its mnemonic. -/
inductive Instr where
  /-- RD (R61). Host frame that reads one register, with turnaround, dummy cycles, status byte and one data word. -/
  | rd (code : Byte) (addr : RegIndex) (late badParity : Bool)
  /-- RD_INC (R62). Host frame that reads successive registers of one page until HSEL_N rises. -/
  | rdInc (addr : RegIndex) (count : Nat) (late : Bool)
  /-- WR (R61). Host frame that writes one register as a posted write. -/
  | wr (addr : RegIndex) (word : Word) (overrun badParity : Bool)
  /-- WR_INC (R62). Host frame that writes successive registers of one page until HSEL_N rises. -/
  | wrInc (addr : RegIndex) (words : List Word) (accepted : Nat)
  /-- WR_TXN (R154). Host frame that stages successive register or Mortar words into a named transaction. -/
  | wrTxn (ident : Byte) (addr : RegIndex) (words : List Word) (accepted : Nat)
  /-- TXN_BEGIN (R152). Host frame that opens a transaction on the lowest FREE identifier or returns a refusal reason. -/
  | txnBegin
  /-- TXN_COMMIT (R173). Host frame that requests a commit with a tag and a condition, prepares it and returns the reply word. -/
  | txnCommit (addr : Word)
  /-- TXN_ABORT (R181). Host frame that aborts the named transaction, or sets BAD_ID if it is not open for the host. -/
  | txnAbort (ident : Byte)
  /-- STATUS (R63). Host frame that returns HPT.LANES and HPT.STATUS on two lanes with status 0x3C. -/
  | status
  /-- QPOP (R68). Host frame that pops entries from the result queue whose POP register is addressed. -/
  | qpop (addr : RegIndex) (clocked : Nat) (badParity : Bool)
  /-- MWIN_RD (R64). Host frame that reads Mortar words through the window base. -/
  | mwinRd (addr : RegIndex) (count : Nat) (late : Bool)
  /-- MWIN_WR (R64). Host frame that writes Mortar half-words through the window, merging with the stored half. -/
  | mwinWr (addr : RegIndex) (words : List Word) (accepted : Nat)
  /-- SELECT_RELEASED_MID_WORD (R79). Select rises part-way through a word on a course port; the partial word is discarded and the port returns to idle. -/
  | selectReleasedMidWord (port : CoursePort) (frame : PartialFrame)
  /-- BUSY_TIMEOUT (R74). A status slot stays busy beyond HPT.BUSY_LIMIT and the device sends 0x96 with cause BUSY_TIMEOUT. -/
  | busyTimeout
  /-- READ_READY (R72). Data of a held read becomes ready; HRDY rises and 0x3C is sent ahead of the word. -/
  | readReady
  /-- REGISTER_WRITE (R11). A write to a register without behaviour of its own, applied or refused under the access rules and recorded in WRITE_REJECT. -/
  | registerWrite (req : Requester) (index : RegIndex) (word : Word)
  /-- SOFT_RESET (R116). Writing PAGE_CTRL.SOFT_RESET ends the page's commands, aborts its transactions and restores reset values. -/
  | softReset (req : Requester) (page : Byte)
  /-- LOCK (R11). Writing PAGE_CTRL.LOCK locks every RWL field of the page until device reset. -/
  | lock (req : Requester) (page : Byte)
  /-- SNAPSHOT (R128). Writing SNAP_CTRL.TAKE captures the selected group of RS registers at one clock edge. -/
  | snapshot (req : Requester) (page : Byte) (group : Byte)
  /-- RESULT_RELEASE (R144). Writing the shown ticket clears the result block and shows the next waiting result; another ticket is refused. -/
  | resultRelease (req : Requester) (page : Byte) (word : Word)
  /-- SELF_TEST (R140). Door command 0xF0 requests a self-test that runs now, is deferred to an idle gap, or starts at the next frame boundary with URGENT. -/
  | selfTest (req : Requester) (page : Byte) (tag : Byte) (arg : BitVec 16)
  /-- CALIBRATE (R140). Door command 0xF1 requests a calibration under the same rules as SELF_TEST. -/
  | calibrate (req : Requester) (page : Byte) (tag : Byte) (arg : BitVec 16)
  /-- DEFERRED_START (R140). A DEFERRED self-test or calibration starts in the next idle gap of its subsystem. -/
  | deferredStart (page : Byte)
  /-- URGENT_START (R657). An URGENT self-test or calibration starts at the page's frame boundary, preempting work as the page states. -/
  | urgentStart (page : Byte)
  /-- NOT_RUN (R140). A self-test or calibration whose deadline passes before it starts ends NOT_RUN. -/
  | notRun (page : Byte)
  /-- TEST_COMPLETE (R615). A running self-test or calibration completes, ending DONE or FAILED and raising the page's fault on failure. -/
  | testComplete (page : Byte) (pass : Bool) (detail : BitVec 24) (trims : List Int)
  /-- COMMIT_CONDITION_MET (R173). The commit condition of a WAITING transaction occurs; the transaction freezes, strobes and applies. -/
  | commitConditionMet (id : Fin 8)
  /-- APPLY_WINDOW_END (R176). Staged Mortar words have been written and the transaction ends COMMITTED. -/
  | applyWindowEnd (id : Fin 8)
  /-- TXN_TIMEOUT (R152). TXN.TIMEOUT.MS elapses before the freeze and the transaction ends ABORTED with TIMEOUT. -/
  | txnTimeout (id : Fin 8)
  /-- ABORT (R191). TXN.DOOR command 0x01 aborts an open, preparing or waiting transaction with HOST_ABORT. -/
  | abort (req : Requester) (tag : Byte) (arg : BitVec 16)
  /-- PATSEL (R205). A write to FLD.PATSEL records the next ashlar selection. -/
  | patsel (req : Requester) (word : Word)
  /-- ASHLAR_CHANGE (R208). At a tap-0 edge the engine switches all ports to the newly selected ashlar with steps and ramps. -/
  | ashlarChange (trims : List Int)
  /-- PORT_FAULT (R195). A coil driver hits its current limit, is found open, or its trim is out of range, and the port is stopped. -/
  | portFault (port : Fin 8) (kind : Fin 4)
  /-- FIELD_REQUEST (R212). The field becomes requested or unrequested by FLD.FIELD.ON or a contactless job. -/
  | fieldRequest (source : FieldSource)
  /-- RAMP_UP_END (R213). The field rise ends and the state becomes ON. -/
  | rampUpEnd
  /-- RAMP_DOWN_END (R213). The field fall ends and the state becomes OFF. -/
  | rampDownEnd
  /-- OFF_MIN_EXPIRY (R213). The minimum off time elapses and a pending field request may ramp up. -/
  | offMinExpiry
  /-- LIMITER_STEP (R217). Every 256 carrier cycles the limiter raises, lowers or keeps the common attenuation. -/
  | limiterStep (outMw : List Nat) (average : Nat) (hottest : Int)
  /-- THERMAL_RECOVERY (R218). The hottest sensor falls 15 °C below TEMP_C and the field leaves THERMAL_OFF with ATTEN 250. -/
  | thermalRecovery (hottest : Int)
  /-- SURVEY_STEP (R219). A survey step drives one port and samples all chains for 96 carrier cycles. -/
  | surveyStep (report : SurveyReport)
  /-- SOLVE (R227). FLD door command 0x10 computes port words from SOLVE_IN that meet the null points. -/
  | solve (req : Requester) (tag : Byte) (arg : BitVec 16)
  /-- SOLVE_RESULT (R228). The SOLVE result and quality word are delivered to the result block. -/
  | solveResult
  /-- CASC_LOAD (R235). FLD door command 0x20 sends the named ashlars from the member image to every member. -/
  | cascLoad (req : Requester) (tag : Byte) (arg : BitVec 16)
  /-- CASC_SWITCH (R236). FLD door command 0x21 schedules a cascade-wide ashlar switch at cycle N and announces it. -/
  | cascSwitch (req : Requester) (tag : Byte) (arg : BitVec 16)
  /-- SWITCH_CYCLE_REACHED (R236). At the tap-0 edge whose FLD.CYCLE equals N every device switches to the scheduled ashlar. -/
  | switchCycleReached (lateMembers : BitVec 3)
  /-- REPLY_DETECTED (R253). Estimate power exceeds the noise for two half-bits in an open window and buffering starts. -/
  | replyDetected
  /-- ESTIMATION_WINDOW_END (R256). The estimation window ends; k, the coupling vectors, W and the slot checks are formed. -/
  | estimationWindowEnd (estimates vectors : List (List (Int × Int)))
  /-- REPLY_END (R266). A reply ends; stream checks are decided and frames or a collision go to the protocol engine. -/
  | replyEnd (streams : List StreamReport) (symbols residual collision : Nat) (data : List Byte)
  /-- CHAIN_CLIP (R249). A chain's input exceeds the converter range and CLIP is set. -/
  | chainClip (chain : Fin 8) (overloaded : Bool)
  /-- CHAIN_TRIM_STEP (R250). A receive chain takes a 16-cycle DC and I/Q trim step outside response windows. -/
  | chainTrimStep (chain : Fin 8) (full : Bool) (inRange : Bool)
  /-- CASC_WAIT_EXPIRY (R271). UMX.CASC_WAIT passes after the window and members without blocks are left out of the reply. -/
  | cascWaitExpiry
  /-- CAPTURE (R273). FRX door command 0x10 stores raw samples of the named chains into Mortar. -/
  | capture (req : Requester) (tag : Byte) (arg : BitVec 16)
  /-- CAPTURE_DONE (R273). The last capture word is stored and CAPTURE ends DONE. -/
  | captureDone (samples : List (Int × Int))
  /-- NO_WINDOW (R273). A window-triggered capture sees no response window within 1 s. -/
  | noWindow
  /-- EXCHANGE (R297). PRO door command 0x10 submits an exchange job from its descriptor. -/
  | exchange (req : Requester) (tag : Byte) (arg : BitVec 16)
  /-- INVENTORY (R304). INV door command 0x10 submits an inventory job from its descriptor. -/
  | inventory (req : Requester) (tag : Byte) (arg : BitVec 16)
  /-- CANCEL (R296). INV door command 0x11 ends the queued or running contactless job with the given ticket. -/
  | cancel (req : Requester) (tag : Byte) (arg : BitVec 16)
  /-- JOB_START (R290). A queued contactless job starts once its result queue reserves all space it may need. -/
  | jobStart
  /-- GUARD_ON_EXPIRY (R283). The guard time after the field rise elapses and the first reader frame may start. -/
  | guardOnExpiry
  /-- READER_FRAME (R283). A reader frame starts at a tap-0 edge once its recovery interval has passed. -/
  | readerFrame (cycles : Nat) (pauses : List (Nat × Nat))
  /-- WINDOW_OPEN (R284). A response window opens EARLY cycles before the earliest reply start. -/
  | windowOpen (carriers noises : List Nat)
  /-- WINDOW_CLOSE (R285). A response window closes with nothing detected, giving status TIMEOUT. -/
  | windowClose
  /-- BUDGET (R308). An inventory's BUDGET_MS elapses and it ends after the slot in progress. -/
  | budget
  /-- KEEP_FIELD_EXPIRY (R291). KEEP_MS after a KEEP_FIELD job passes and the job releases the field. -/
  | keepFieldExpiry
  /-- RUN_SCAN (R313). A Run card-detection scan compares each port's self response with its baseline. -/
  | runScan (responses : List (Int × Int))
  /-- PROBE_SCAN (R314). The PD0 probe pings each coil in Stop and updates baselines or raises a hit. -/
  | probeScan (codes : List Nat)
  /-- RELEARN (R316). LPD door command 0x10 relearns the Run baseline over four scans. -/
  | relearn (req : Requester) (tag : Byte) (arg : BitVec 16)
  /-- TUNE (R322). A write to BPn.TUNE that changes mode, input, diversity or frequency restarts acquisition. -/
  | tune (req : Requester) (path : Fin 4) (word : Word)
  /-- SYNTHESISER_SETTLED (R324). A path's synthesiser settles and gain converges; STATE becomes SEARCHING. -/
  | synthesiserSettled (path : Fin 4) (gain : Byte)
  /-- LOCKED (R324). A path locks carrier, FM level or null symbol; STATE becomes LOCKED. -/
  | locked (path : Fin 4) (report : PathReport)
  /-- FRAME_SYNC (R324). A path obtains frame boundaries and SYNC becomes 1. -/
  | frameSync (path : Fin 4)
  /-- LOST (R325). A locked path meets its loss condition, enters LOST and stops delivering. -/
  | lost (path : Fin 4)
  /-- FRAME_BOUNDARY (R326). A synchronised path produces a frame boundary and FRAME counts it. -/
  | frameBoundary (path : Fin 4) (report : PathReport)
  /-- AGC_STEP (R328). A path applies a gain change at its permitted instant. -/
  | agcStep (path : Fin 4) (gain : Byte) (report : PathReport)
  /-- ROLE (R339). A write to BPn.ROLE changes a path's role and slot, and clashes are resolved. -/
  | role (req : Requester) (path : Fin 4) (word : Word)
  /-- CANDIDATE_CHECK (R343). The scan path retunes to a candidate, measures its SCORE and records it. -/
  | candidateCheck (report : PathReport) (imageOk : Bool)
  /-- VERIFY (R344). Mason 2 verifies a preferred candidate's lock, identity, data and audio offset. -/
  | verify (matched : Bool) (lead : Int)
  /-- BARRED_EXPIRY (R344). A candidate's 60 s BARRED period ends. -/
  | barredExpiry (path : Fin 4) (candidate : Fin 16)
  /-- CROSSFADE_END (R346). The 240-sample audio crossfade after a swap completes. -/
  | crossfadeEnd
  /-- SCAN (R351). BP door command 0x10 steps through one band and delivers station entries. -/
  | scan (req : Requester) (path : Fin 4) (tag : Byte) (arg : BitVec 16)
  /-- SCAN_POINT (R351). A scan point is measured and, if it passes, identified and queued. -/
  | scanPoint (path : Fin 4) (report : PathReport) (ident : BitVec 16)
  /-- CHECK (R350). BP door command 0x11 tunes to CHECK_TUNE, measures and identifies it, and delivers a result. -/
  | check (req : Requester) (path : Fin 4) (tag : Byte) (arg : BitVec 16)
  /-- TC_MINUTE (R336). A complete time-code minute frame is checked and handed to the vote or counted bad. -/
  | tcMinute (path : Fin 4) (report : MinuteReport)
  /-- PSK_FRAME (R338). A PSK frame with its sync word is taken and handed to the concordance unit. -/
  | pskFrame (path : Fin 4) (raw : List Bool)
  /-- AUDIO_FORMAT_CHANGE (R352). A change of audio RATE, WIDTH or FORMAT takes effect at the next left word-clock edge after a mute ramp. -/
  | audioFormatChange
  /-- RDS_GROUP (R362). An RDS group passing block sync is used and forwarded or counted bad. -/
  | rdsGroup (path : Fin 4) (a b c d : BitVec 26)
  /-- FIB (R364). A DAB FIB is decoded, checked and optionally forwarded. -/
  | fib (path : Fin 4) (cif : Fin 4) (index : Fin 3) (bytes : List Byte)
  /-- SELECT (R365). BDA door command 0x10 installs, replaces or removes a subchannel selection. -/
  | select (req : Requester) (tag : Byte) (arg : BitVec 16)
  /-- CIF (R368). A CIF of an ACTIVE audio selection is forwarded raw to the subchannel queue. -/
  | cif (path : Fin 4) (entry : Fin 4) (index : Fin 4) (bytes : List Byte)
  /-- DATA_GROUP (R369). A reassembled MSC data group is checked, handed to the concordance unit and optionally forwarded. -/
  | dataGroup (path : Fin 4) (entry : Fin 4) (packets : List (List Byte))
  /-- MESSAGE_COPY (R375). A complete message copy from a bearer is voted and may queue an outcome record. -/
  | messageCopy
  /-- MESSAGE_WINDOW_END (R375). A message's vote window ends, giving UNCONFIRMED or closing the entry. -/
  | messageWindowEnd (stream : Fin 8) (seq : Word)
  /-- TIME_VOTE_CLOSE (R381). A time vote closes, decides, queues its record and may slew or step the counter. -/
  | timeVoteClose
  /-- STREAM (R378). A write to CCD.STREAM or a map entry discards the stream's open and remembered messages. -/
  | stream (req : Requester) (index : RegIndex) (word : Word)
  /-- DECODE_REQUEST (R37). A mason submits a trellis request in the urgent or normal class. -/
  | decodeRequest (mason3 urgent : Bool) (bits : Nat)
  /-- DECODE_UNIT_END (R37). A decoder unit completes and the scheduler starts the next unit. -/
  | decodeUnitEnd
  /-- CIPHER (R460). CPH door command 0x10 submits a cipher job from its descriptor. -/
  | cipher (req : Requester) (tag : Byte) (arg : BitVec 16)
  /-- CIPHER_JOB_START (R461). A cipher job starts once its queue entry is reserved, making its slot checks and taking a counter. -/
  | cipherJobStart (host : Bool)
  /-- CIPHER_JOB_DONE (R461). A cipher job finishes its blocks and delivers its record. -/
  | cipherJobDone (host : Bool)
  /-- VERDICT (R477). A decryption's tag check commits or aborts its implicit transaction and releases held effects or zero-fills. -/
  | verdict (host : Bool)
  /-- KEY_LOAD (R469). CPH door command 0x11 loads a key into a slot with its counter or use limit. -/
  | keyLoad (req : Requester) (tag : Byte) (arg : BitVec 16)
  /-- KEY_CLEAR (R469). CPH door command 0x12 empties a key slot. -/
  | keyClear (req : Requester) (tag : Byte) (arg : BitVec 16)
  /-- NODE_PUT (R474). CPH door command 0x20 writes a node key store entry. -/
  | nodePut (req : Requester) (tag : Byte) (arg : BitVec 16)
  /-- NODE_CLEAR (R474). CPH door command 0x21 empties a node key store entry. -/
  | nodeClear (req : Requester) (tag : Byte) (arg : BitVec 16)
  /-- RANDOM (R479). IDN door command 0x13 writes DRBG bytes to Mortar. -/
  | random (req : Requester) (tag : Byte) (arg : BitVec 16)
  /-- SIGN (R482). IDN door command 0x10 signs a digest with the device key. -/
  | sign (req : Requester) (tag : Byte) (arg : BitVec 16)
  /-- VERIFY_SIGNATURE (R482). IDN door command 0x11 verifies an ECDSA signature. -/
  | verifySignature (req : Requester) (tag : Byte) (arg : BitVec 16)
  /-- ECDH (R482). IDN door command 0x12 derives a shared key into a slot. -/
  | ecdh (req : Requester) (tag : Byte) (arg : BitVec 16)
  /-- CERT_COPY (R482). IDN door command 0x14 copies the device certificate to Mortar. -/
  | certCopy (req : Requester) (tag : Byte) (arg : BitVec 16)
  /-- PK_DONE (R482). A public-key command completes and delivers its result block. -/
  | pkDone
  /-- RNG_FAIL (R478). A random-source health test fails, stopping the DRBG and raising FAULT.RNG. -/
  | rngFail (repetition adaptive : Bool)
  /-- BLOW (R484). NVL door command 0x30 blows an armed lock fuse in Start-up. -/
  | blow (req : Requester) (tag : Byte) (arg : BitVec 16)
  /-- CHANNEL (R392). A write to VLR.CHANNEL retunes the listening channel within 40 µs. -/
  | channel (req : Requester) (word : Word)
  /-- DETECTION (R400). A receiver sees PQT preamble symbols, freezes gain and enters DETECTED. -/
  | detection (symbolsA symbolsB : Nat) (levelA levelB : Byte)
  /-- SYNC_FOUND (R401). An enabled sync word is found; frequency control freezes and CAPTURE starts. -/
  | syncFound (bits : Word) (foffset : Int)
  /-- FALSE_DETECT (R402). No sync word is found within SYNC_WAIT and the radio returns to LISTEN. -/
  | falseDetect
  /-- PROVISIONAL_LENGTH (R403). The first 48 frame bits yield the length byte, fixing the capture length or ending it. -/
  | provisionalLength (raw : Byte)
  /-- CAPTURE_END (R405). The last coded bit is captured, LISTEN resumes and the decoder request is submitted. -/
  | captureEnd (soft : List (Fin 8)) (decoded : List Byte)
  /-- TX_RAMP_UP_START (R409). At the step-3 instant the ramp-up starts if the synthesiser is locked and grant present, else HELD. -/
  | txRampUpStart (vpa : Byte)
  /-- TX_FIRST_SYMBOL (R409). The ramp-up ends and the first preamble symbol is sent at full level. -/
  | txFirstSymbol
  /-- TX_RAMP_DOWN_START (R409). The last symbol ends and the ramp-down starts. -/
  | txRampDownStart
  /-- CARRIER_OFF (R409). The ramp-down ends; a waiting transmission may start. -/
  | carrierOff
  /-- TX_TO_RX (R409). 64 µs after carrier off VSW returns to receive and LISTEN resumes. -/
  | txToRx
  /-- SYNTH_LOCKED (R410). The synthesiser locks and a HELD transmission starts its ramp-up. -/
  | synthLocked
  /-- HOLD_LIMIT_EXPIRY (R410). A hold would exceed HOLD_LIMIT and the transmission ends SYNTH_NOT_READY. -/
  | holdLimitExpiry
  /-- LOCK_LOST (R411). The synthesiser loses lock during a transmission, which ramps down and ends LOCK_LOST. -/
  | lockLost
  /-- PA_FAULT (R413). An amplifier current limit or low VPA ends the transmission and raises FAULT.PA. -/
  | paFault (vpa : Byte)
  /-- CAL_DUE (R415). A temperature change, band change or lock loss marks a calibration due. -/
  | calDue (temp : Byte)
  /-- CAL_START (R416). A synthesiser calibration starts in a LISTEN gap or after the packet for URGENT. -/
  | calStart
  /-- CAL_DONE (R417). A calibration ends, succeeding or counting a failure. -/
  | calDone (found : Bool) (vcoBand : Fin 64) (temp : Byte)
  /-- CAL_RETRY (R417). 10 ms after a failed calibration it is retried. -/
  | calRetry
  /-- SYNTH_SETTLED (R418). The synthesiser settles 40 µs after a frequency change. -/
  | synthSettled
  /-- METER_FRAME (R419). A meter frame is received, checked and delivered or counted bad. -/
  | meterFrame (report : MeterReport)
  /-- CARRIER_TEST (R425). VLR door command 0x10 sends a test carrier as one transmission. -/
  | carrierTest (req : Requester) (tag : Byte) (arg : BitVec 16)
  /-- SEND (R434). VLQ door command 0x10 copies a descriptor into a free outbound slot. -/
  | send (req : Requester) (tag : Byte) (arg : BitVec 16)
  /-- SEND_CANCEL (R439). VLQ door command 0x11 ends the slot with the given ticket with CANCELLED. -/
  | sendCancel (req : Requester) (tag : Byte) (arg : BitVec 16)
  /-- SLOT_BOUNDARY (R433). A valve-link slot boundary occurs and at most one slot attempt starts. -/
  | slotBoundary
  /-- ACK_WAIT_EXPIRY (R437). No acknowledgement arrives within ACK_WAIT; the attempt fails NO_ACK. -/
  | ackWaitExpiry
  /-- BACKOFF_END (R437). A slot's backoff ends and it is QUEUED again. -/
  | backoffEnd (slot : Fin 32)
  /-- EXPIRED (R438). A HOLD slot not ended within EXPIRE_S ends EXPIRED. -/
  | expired (slot : Fin 32)
  /-- INBOUND_FRAME (R440). A decoded network frame is checked, verified, queued and acknowledged if asked. -/
  | inboundFrame
  /-- ACK_START (R441). At the end of the frame plus ACK_GAP the acknowledgement transmission starts, or it is counted late. -/
  | ackStart
  /-- BUCKET_CLOSE (R449). A duty bucket closes after 60 s of CLK.MONO and is written to MRAM. -/
  | bucketClose (band : Fin 8)
  /-- DONE_MAP (R456). Clearing a DONE_MAP bit frees the ended slot. -/
  | doneMap (req : Requester) (word : Word)
  /-- LINK_ENABLE (R433). A write of VLQ.CTRL.EN starts or stops the link scheduler and its slot series. -/
  | linkEnable (req : Requester) (word : Word)
  /-- COX_REQ_LEAD (R451). LEAD µs before the step-3 instant COX_REQ and COX_PRI become active. -/
  | coxReqLead
  /-- COX_GNT_CHANGE (R451). Two equal samples change the grant state, releasing a held transmission or aborting one. -/
  | coxGntChange (active : Bool)
  /-- COX_TIMEOUT (R452). The grant wait exceeds GNT_WAIT and the transmission ends COX_TIMEOUT. -/
  | coxTimeout
  /-- NOP (R504). Instruction that does nothing. -/
  | nop (m : Fin 5)
  /-- DUP (R504). Duplicates the top of stack. -/
  | dup (m : Fin 5)
  /-- DROP (R504). Removes the top of stack. -/
  | drop (m : Fin 5)
  /-- SWAP (R504). Swaps the top two entries. -/
  | swap (m : Fin 5)
  /-- OVER (R504). Copies the second entry to the top. -/
  | over (m : Fin 5)
  /-- ROT (R504). Rotates the top three entries. -/
  | rot (m : Fin 5)
  /-- NIP (R504). Removes the second entry. -/
  | nip (m : Fin 5)
  /-- PICK (R504). Copies entry n to the top. -/
  | pick (m : Fin 5) (n : Fin 16)
  /-- ADD (R504). Adds the top two entries modulo 2^32. -/
  | add (m : Fin 5)
  /-- SUB (R504). Subtracts the top from the second entry. -/
  | sub (m : Fin 5)
  /-- AND (R504). Bitwise AND of the top two entries. -/
  | andOp (m : Fin 5)
  /-- OR (R504). Bitwise OR of the top two entries. -/
  | orOp (m : Fin 5)
  /-- XOR (R504). Bitwise XOR of the top two entries. -/
  | xorOp (m : Fin 5)
  /-- NOT (R504). Inverts the top entry. -/
  | notOp (m : Fin 5)
  /-- NEG (R504). Negates the top entry. -/
  | neg (m : Fin 5)
  /-- ADDI (R504). Adds a 6-bit signed immediate to the top. -/
  | addi (m : Fin 5) (imm : BitVec 6)
  /-- SHL (R504). Shifts the top left by an immediate. -/
  | shl (m : Fin 5) (n : Fin 32)
  /-- SHR (R504). Shifts the top logically right by an immediate. -/
  | shr (m : Fin 5) (n : Fin 32)
  /-- SAR (R504). Shifts the top arithmetically right by an immediate. -/
  | sar (m : Fin 5) (n : Fin 32)
  /-- ROL (R504). Rotates the top left by an immediate. -/
  | rol (m : Fin 5) (n : Fin 32)
  /-- SHLV (R504). Shifts left by a count from the stack. -/
  | shlv (m : Fin 5)
  /-- SHRV (R504). Shifts logically right by a count from the stack. -/
  | shrv (m : Fin 5)
  /-- SARV (R504). Shifts arithmetically right by a count from the stack. -/
  | sarv (m : Fin 5)
  /-- LIT (R504). Pushes a 6-bit signed immediate. -/
  | lit (m : Fin 5) (imm : BitVec 6)
  /-- LITU (R504). Pushes a 6-bit unsigned immediate. -/
  | litu (m : Fin 5) (imm : BitVec 6)
  /-- MUL (R510). Starts a signed 64-bit multiplication into MHI:MLO. -/
  | mul (m : Fin 5)
  /-- MULU (R510). Starts an unsigned 64-bit multiplication into MHI:MLO. -/
  | mulu (m : Fin 5)
  /-- PRODUCT_LANDS (R510). Three cycles after issue a product is written to MLO and MHI. -/
  | productLands (m : Fin 5)
  /-- CRCB (R512). Steps a CRC register over one byte. -/
  | crcb (m : Fin 5)
  /-- CRCW (R512). Steps a CRC register over four bytes. -/
  | crcw (m : Fin 5)
  /-- BREV (R513). Reverses the bits of the top entry. -/
  | brev (m : Fin 5)
  /-- BREVB (R513). Reverses the bits within each byte. -/
  | brevb (m : Fin 5)
  /-- MFS (R500). Pushes a special register. -/
  | mfs (m : Fin 5) (n : Fin 64)
  /-- MTS (R501). Writes a special register, or raises FAULT.SPR. -/
  | mts (m : Fin 5) (n : Fin 64)
  /-- LDX (R504). Loads a word from a data address. -/
  | ldx (m : Fin 5)
  /-- STX (R504). Stores a word to a data address. -/
  | stx (m : Fin 5)
  /-- LDB (R492). Loads a zero-extended byte. -/
  | ldb (m : Fin 5)
  /-- STB (R492). Stores one byte to local RAM or Mortar. -/
  | stb (m : Fin 5)
  /-- JMPI (R509). Jumps to an address from the stack. -/
  | jmpi (m : Fin 5)
  /-- RET (R508). Returns from a call, restoring saved pointers. -/
  | ret (m : Fin 5)
  /-- RTT (R518). Returns from a trap handler to TPC, honouring RLEFT. -/
  | rtt (m : Fin 5)
  /-- RTE (R519). Returns from the event handler to EPC. -/
  | rte (m : Fin 5)
  /-- REP (R515). Repeats the next instruction n times. -/
  | rep (m : Fin 5) (n : Fin 64)
  /-- LBRK (R511). Closes the innermost loop level. -/
  | lbrk (m : Fin 5)
  /-- WAIT (R519). Stops the mason until EVT is 1. -/
  | wait (m : Fin 5)
  /-- WAIT_END (R519). EVT becomes 1 and a waiting mason continues. -/
  | waitEnd (m : Fin 5)
  /-- HALT (R504). Instruction that puts the mason in HALTED. -/
  | halt (m : Fin 5)
  /-- BRK (R504). Breakpoint instruction that puts the mason in HALTED. -/
  | brk (m : Fin 5)
  /-- SLT (R504). Pushes 1 if a < b signed. -/
  | slt (m : Fin 5)
  /-- SLTU (R504). Pushes 1 if a < b unsigned. -/
  | sltu (m : Fin 5)
  /-- SEQ (R504). Pushes 1 if a = b. -/
  | seq (m : Fin 5)
  /-- LDP (R504). Loads from a pointer plus offset. -/
  | ldp (m : Fin 5) (p : Fin 8) (f : BitVec 6)
  /-- STP (R504). Stores to a pointer plus offset. -/
  | stp (m : Fin 5) (p : Fin 8) (f : BitVec 6)
  /-- LDPI (R504). Loads via a pointer and post-increments it. -/
  | ldpi (m : Fin 5) (p : Fin 8) (f : BitVec 6)
  /-- STPI (R504). Stores via a pointer and post-increments it. -/
  | stpi (m : Fin 5) (p : Fin 8) (f : BitVec 6)
  /-- PADD (R504). Adds a scaled immediate to a pointer. -/
  | padd (m : Fin 5) (p : Fin 8) (imm : BitVec 6)
  /-- PGET (R504). Pushes a pointer plus offset. -/
  | pget (m : Fin 5) (p : Fin 8) (f : BitVec 6)
  /-- PSET (R504). Sets a pointer from the stack. -/
  | pset (m : Fin 5) (p : Fin 8)
  /-- BEQ (R507). Branches if equal. -/
  | beq (m : Fin 5) (off : BitVec 9)
  /-- BNE (R507). Branches if not equal. -/
  | bne (m : Fin 5) (off : BitVec 9)
  /-- BLT (R507). Branches if less, signed. -/
  | blt (m : Fin 5) (off : BitVec 9)
  /-- BGE (R507). Branches if greater or equal, signed. -/
  | bge (m : Fin 5) (off : BitVec 9)
  /-- BLTU (R507). Branches if less, unsigned. -/
  | bltu (m : Fin 5) (off : BitVec 9)
  /-- BGEU (R507). Branches if greater or equal, unsigned. -/
  | bgeu (m : Fin 5) (off : BitVec 9)
  /-- BZ (R507). Branches if the popped value is zero. -/
  | bz (m : Fin 5) (off : BitVec 9)
  /-- BNZ (R507). Branches if the popped value is not zero. -/
  | bnz (m : Fin 5) (off : BitVec 9)
  /-- LIT_LONG (R504). Long form that pushes a 14-bit signed literal. -/
  | litLong (m : Fin 5) (k : BitVec 14)
  /-- LITX (R504). Extends the top by 14 bits of literal. -/
  | litx (m : Fin 5) (k : BitVec 14)
  /-- JMP (R504). Jumps to an immediate address. -/
  | jmp (m : Fin 5) (k : BitVec 14)
  /-- CALL (R508). Calls an immediate address, saving masked pointers. -/
  | call (m : Fin 5) (mask : Byte) (k : BitVec 14)
  /-- CALLI (R508). Calls an address from the stack, saving masked pointers. -/
  | calli (m : Fin 5) (mask : Byte)
  /-- LDL (R504). Loads a local RAM word at an immediate address. -/
  | ldl (m : Fin 5) (k : BitVec 14)
  /-- STL (R504). Stores a local RAM word at an immediate address. -/
  | stl (m : Fin 5) (k : BitVec 14)
  /-- LDR (R504). Loads a register by index. -/
  | ldr (m : Fin 5) (index : RegIndex)
  /-- STR (R504). Stores a register by index. -/
  | str (m : Fin 5) (index : RegIndex)
  /-- PUSHB (R504). Pushes a bit from the bit space. -/
  | pushb (m : Fin 5) (bit : BitVec 12)
  /-- POPB (R504). Writes bit 0 of the top to a bit. -/
  | popb (m : Fin 5) (bit : BitVec 12)
  /-- SETB (R504). Sets a bit. -/
  | setb (m : Fin 5) (bit : BitVec 12)
  /-- CLRB (R504). Clears a bit. -/
  | clrb (m : Fin 5) (bit : BitVec 12)
  /-- TGLB (R504). Toggles a bit. -/
  | tglb (m : Fin 5) (bit : BitVec 12)
  /-- PAR (R504). Writes the parity of the top word to a bit. -/
  | par (m : Fin 5) (bit : BitVec 12)
  /-- BBC (R507). Branches if a bit is clear. -/
  | bbc (m : Fin 5) (off : BitVec 7) (bit : BitVec 12)
  /-- BBS (R507). Branches if a bit is set. -/
  | bbs (m : Fin 5) (off : BitVec 7) (bit : BitVec 12)
  /-- LOOP (R511). Opens a hardware loop level with a count from the stack. -/
  | loopOp (m : Fin 5) (k : BitVec 14)
  /-- LOOPI (R511). Opens a hardware loop level with an immediate count. -/
  | loopi (m : Fin 5) (n : Fin 64) (k : BitVec 14)
  /-- CKSUM (R517). Slot 0 function that computes a CRC over a byte range. -/
  | cksum (m : Fin 5) (sel : Fin 5)
  /-- CKCOPY (R517). Slot 0 function that computes a CRC while copying a byte range. -/
  | ckcopy (m : Fin 5) (sel : Fin 5)
  /-- TBEGIN (R517). Slot 6 function that opens a transaction for the mason. -/
  | tbegin (m : Fin 5)
  /-- TSTAGE (R517). Slot 6 function that stages a register write. -/
  | tstage (m : Fin 5)
  /-- TSTAGEM (R517). Slot 6 function that stages a Mortar word. -/
  | tstagem (m : Fin 5)
  /-- TCOMMIT (R517). Slot 6 function that commits a transaction and returns the reply word. -/
  | tcommit (m : Fin 5) (cond : Byte)
  /-- TABORT (R517). Slot 6 function that aborts a transaction with REQUESTER_ABORT. -/
  | tabort (m : Fin 5)
  /-- EXTERNAL_OPERATION (R94). Slot 7 function on mason 4 that sends one frame to the external coprocessor on MSEL1_N. -/
  | externalOperation (f : Fin 32)
  /-- COP_TIMEOUT (R97). MDQS stays low beyond COP_TIMEOUT; results are pushed as zero and the fault raised. -/
  | copTimeout (results : List Word)
  /-- EVENT_ENTRY (R519). Between instructions an enabled active event enters the handler at 0x0014. -/
  | eventEntry (m : Fin 5)
  /-- BREAKPOINT (R523). An enabled breakpoint matches the next instruction and the mason halts. -/
  | breakpoint (m : Fin 5) (point : Fin 4)
  /-- HALT_COMMAND (R524). MS door command 0x10 halts the mason at the next instruction boundary. -/
  | haltCommand (req : Requester) (m : Fin 5) (tag : Byte) (arg : BitVec 16)
  /-- RESUME (R524). MS door command 0x11 continues a halted mason from PC. -/
  | resume (req : Requester) (m : Fin 5) (tag : Byte) (arg : BitVec 16)
  /-- STEP (R524). MS door command 0x12 runs n instructions and halts. -/
  | step (req : Requester) (m : Fin 5) (tag : Byte) (arg : BitVec 16)
  /-- RELOAD (R521). MS4 door command 0x13 reloads the open-mason image. -/
  | reload (req : Requester) (m : Fin 5) (tag : Byte) (arg : BitVec 16)
  /-- MASON_RESET (R499). A write to MSn.CTRL.RESET holds the mason in reset or releases it into mason reset. -/
  | masonReset (req : Requester) (m : Fin 5) (word : Word)
  /-- PROGRAM_LOAD_DONE (R33). A mason's program memory load completes and the mason leaves reset or stays NO_IMAGE. -/
  | programLoadDone (m : Fin 5) (good : Bool)
  /-- PM_DATA (R522). An access to MSn.PM_DATA reads or writes program memory at ADDR and advances it. -/
  | pmData (req : Requester) (m : Fin 5) (word : Option Word)
  /-- DM_DATA (R522). An access to MSn.DM_DATA reads or writes local RAM at ADDR and advances it. -/
  | dmData (req : Requester) (m : Fin 5) (word : Option Word)
  /-- TICK (R528). A timer prescaler period elapses and the count advances. -/
  | tick (timer : Fin 16)
  /-- OVERFLOW (R528). A tick finds the count at TOP; the count returns to 0 and the overflow event fires. -/
  | overflow (timer : Fin 16)
  /-- MATCH (R534). The count equals CMP after a tick and the match event and pin action fire. -/
  | matchEvent (timer : Fin 16)
  /-- CTRL (R527). A write to a timer CTRL starts or stops it and restarts the prescaler. -/
  | ctrl (req : Requester) (timer : Fin 16) (word : Word)
  /-- CNT (R529). A write to CNT, TOP or CNT32 of a running timer takes effect without a match. -/
  | cnt (req : Requester) (timer : Fin 16) (which : TimerCount) (word : Word)
  /-- CNT_READ (R532). A read of a linked half's CNT captures the other half into its snapshot register. -/
  | cntRead (req : Requester) (timer : Fin 16)
  /-- CMP (R534). A write that changes CMP fires the match at once if the new value is passed. -/
  | cmp (req : Requester) (timer : Fin 16) (wide : Bool) (word : Word)
  /-- LINK (R531). A write of CTRL.LINK joins or separates a timer pair. -/
  | link (req : Requester) (timer : Fin 16) (join : Bool)
  /-- GLOBAL_START (R540). Writing TMA.GLOBAL_START sets EN of the named timers at one edge. -/
  | globalStart (req : Requester) (mask : BitVec 16)
  /-- GLOBAL_STOP (R540). Writing TMA.GLOBAL_STOP clears EN of the named timers at one edge. -/
  | globalStop (req : Requester) (mask : BitVec 16)
  /-- TIMER_CAPTURE (R537). An accepted edge on the capture input is counted and every EDGE_DIV+1 edges the count is captured. -/
  | timerCapture (timer : Fin 16) (samples : List Bool)
  /-- CHECK_VALUE_CFG (R546). A write to CHK CFG enables a unit or opens programming of its parameters. -/
  | checkValueCfg (req : Requester) (unit : Fin 4) (word : Word)
  /-- VALUE (R547). A write to a unit's VALUE or BYTES is applied between payload bytes. -/
  | value (req : Requester) (unit : Fin 4) (bytes : Bool) (word : Word)
  /-- LINE_FILL (R87). An execute-in-place line fill completes and waiting reads are answered. -/
  | lineFill (data : List Byte)
  /-- FLASH_FRAME (R90). MPT door command 0x10 sends a composed frame to the flash. -/
  | flashFrame (req : Requester) (tag : Byte) (arg : BitVec 16)
  /-- FLASH_POLL (R91). MPT door command 0x11 polls a flash status byte until it matches. -/
  | flashPoll (req : Requester) (tag : Byte) (arg : BitVec 16)
  /-- POLL_INTERVAL (R91). INTERVAL_US after a poll frame the next poll frame is sent. -/
  | pollInterval
  /-- POLL_TIMEOUT (R91). TIMEOUT_MS passes without a match and FLASH_POLL ends POLL_TIMEOUT. -/
  | pollTimeout
  /-- ISLAND_CLOCK (R558). An island's clock generator loses or regains lock and the island stops or resumes. -/
  | islandClock (island : Fin 8) (locked : Bool)
  /-- LF_OSC (R559). No 32.768 kHz edge is seen for 1 ms and the oscillator is marked failed. -/
  | lfOsc (failed : Bool)
  /-- PLUMB (R563). A write to CLK.PLUMB restarts plumb-line acquisition. -/
  | plumb (req : Requester) (word : Word)
  /-- PLUMB_LOCKED (R563). The plumb line achieves lock and consumers move to tap 0. -/
  | plumbLocked
  /-- PLUMB_BYPASS (R564). The plumb line loses lock and consumers move to the bypass clock. -/
  | plumbBypass
  /-- REF_LOST (R563). In DOUBLE the CREF reference is missing or off frequency and the line enters NO_REF. -/
  | refLost
  /-- REF_RESTORED (R563). After 16 periods with every edge present a NO_REF line enters ACQUIRING. -/
  | refRestored
  /-- RTC_TRIM (R566). At the end of each 16 s window the real-time counter rate correction is updated. -/
  | rtcTrim (ppm10 : Int)
  /-- SET_TIME (R568). CLK door command 0x10 loads the real-time counter. -/
  | setTime (req : Requester) (tag : Byte) (arg : BitVec 16)
  /-- ALARM (R569). The real-time counter reaches the alarm value and the alarm fires. -/
  | alarm
  /-- POWER_ON (R572). PWR door command 0x10 switches on the named domains and those they require. -/
  | powerOn (req : Requester) (tag : Byte) (arg : BitVec 16)
  /-- DOMAIN_READY (R572). A switched-on domain reaches ready and its boot-image entries are applied. -/
  | domainReady (d : Fin 10)
  /-- POWER_OFF (R573). PWR door command 0x11 drains and switches off the named domains. -/
  | powerOff (req : Requester) (tag : Byte) (arg : BitVec 16)
  /-- DRAIN_END (R573). A domain being switched off holds nothing in flight and goes off. -/
  | drainEnd
  /-- DRAIN_LIMIT (R573). DRAIN_LIMIT passes and transfers still in flight are aborted. -/
  | drainLimit
  /-- BANK_READY (R30). A Mortar bank finishes re-initialisation and held accesses proceed. -/
  | bankReady (one : Bool)
  /-- STOP (R575). PWR door command 0x20 starts Stop entry. -/
  | stop (req : Requester) (tag : Byte) (arg : BitVec 16)
  /-- STOP_ENTERED (R575). State is written to MRAM, wake sources armed and PD1 switched off. -/
  | stopEntered
  /-- WAKE (R577). An enabled wake source fires, abandoning Stop entry or waking the device from Stop. -/
  | wake (samples : BitVec 2) (hsel good : Bool)
  /-- SUPPLY (R579). VSUP or VD18 leaves range, or the main oscillator stops, and the device resets with CAUSE 0x3. -/
  | supply (vd18 : Option Byte)
  /-- POWER_UP (R624). VSUP reaches 2.85 V after PD0 loss and the device resets and boots. -/
  | powerUp (lost : Bool)
  /-- RESET_N (R624). RESET_N held low for 10 µs resets the device. -/
  | resetN
  /-- RESET (R624). DEV door command 0x11 resets the device. -/
  | reset (req : Requester) (tag : Byte) (arg : BitVec 16)
  /-- START_DONE (R630). DEV door command 0x10 ends Start-up and locks the regulatory region. -/
  | startDone (req : Requester) (tag : Byte) (arg : BitVec 16)
  /-- ID_READY (R632). Identity generation completes or fails. -/
  | idReady (ok : Bool)
  /-- MRAM_WRITE (R633). NVL door command 0x10 copies Mortar bytes into an open MRAM region. -/
  | mramWrite (req : Requester) (tag : Byte) (arg : BitVec 16)
  /-- MRAM_READ (R633). NVL door command 0x11 copies MRAM bytes into Mortar. -/
  | mramRead (req : Requester) (tag : Byte) (arg : BitVec 16)
  /-- SCRUB (R611). The scrubber reads, corrects and writes back the next word of a Mortar bank or of MRAM. -/
  | scrub (memory : Fin 3) (found : Fin 3)
  /-- TELEMETRY (R617). Every 100 ms a telemetry record is written to the ring. -/
  | telemetry (sensors : List Int) (vpa : Byte) (supply : Word)
  /-- OVERTEMP (R621). A sensor reads 130 °C for 1 ms and the field enters THERMAL_OFF. -/
  | overtemp (sensors : List Int)
  /-- INJECT (R622). ITG door command 0x10 inverts data symbols of the target word. -/
  | inject (req : Requester) (tag : Byte) (arg : BitVec 16)
  /-- ZERO (R622). ITG door command 0x11 writes the target word whole as 0. -/
  | zero (req : Requester) (tag : Byte) (arg : BitVec 16)
  /-- DROP_BAD (R613). ITG door command 0x12 removes BAD key history entries. -/
  | dropBad (req : Requester) (tag : Byte) (arg : BitVec 16)
  /-- HELLO (R586). A HELLO message is received and roles are chosen. -/
  | hello (wire : LinkFrame) (peer : PeerHello)
  /-- IDENT (R586). An IDENT message is received and the peer certificate and endorsement are checked. -/
  | ident (wire : LinkFrame) (peer : PeerIdent)
  /-- KEY_CONFIRM (R586). A KEY_CONFIRM message confirms the session keys. -/
  | keyConfirm (wire : LinkFrame) (counter : Nat) (good : Bool)
  /-- HEARTBEAT (R594). A HEARTBEAT message resets the missed count and sets the slot-boundary series. -/
  | heartbeat (wire : LinkFrame) (counter : Nat) (good : Bool) (received : Nat) (boundaryUs : Option Nat)
  /-- HEARTBEAT_MISSED (R594). A 1 ms period passes without a heartbeat; after 20 the device takes over or steps down. -/
  | heartbeatMissed
  /-- BULK (R590). A BULK message carries one part of a state transfer to the secondary. -/
  | bulk (wire : LinkFrame) (counter : Nat) (good : Bool) (part : BulkPart)
  /-- TXN (R188). A TXN message applies a mirrored transaction on the secondary. -/
  | txn (wire : LinkFrame) (counter : Nat) (good : Bool) (body : MirrorTxn)
  /-- VALVE (R591). A VALVE message mirrors slot images, L advances, cache entries, marks and duty charges. -/
  | valve (wire : LinkFrame) (counter : Nat) (good : Bool) (item : ValveItem)
  /-- RECORD (R591). A RECORD message queues a mirrored inventory, message or time record. -/
  | record (wire : LinkFrame) (counter : Nat) (good : Bool) (timeQueue : Bool) (words : List Word)
  /-- ACK (R585). An ACK message reports the highest counter applied by the secondary. -/
  | ack (wire : LinkFrame) (counter : Nat) (good : Bool) (applied : Nat)
  /-- DETACH (R598). A DETACH message ends the pairing. -/
  | detach (wire : LinkFrame) (counter : Nat) (good : Bool)
  /-- RESEND (R585). A sealed message unacknowledged for 200 µs is resent. -/
  | resend (counter : Nat)
  /-- LINTEL_POLL (R583). The lintel controller polls its target at least every 20 µs. -/
  | lintelPoll (ready : Bool)
  /-- CONFIRM (R586). TWN door command 0x10 accepts or refuses a pairing. -/
  | confirm (req : Requester) (tag : Byte) (arg : BitVec 16)
  /-- CONFIRM_TIMEOUT (R586). 60 s pass without CONFIRM and the pairing is refused. -/
  | confirmTimeout
  /-- UNPAIR (R598). TWN door command 0x11 ends the pairing. -/
  | unpair (req : Requester) (tag : Byte) (arg : BitVec 16)
  /-- RESUME_SOLO (R597). TWN door command 0x12 makes a stepped-down device solo and acting. -/
  | resumeSolo (req : Requester) (tag : Byte) (arg : BitVec 16)
  /-- ENDORSE (R588). TWN door command 0x20 verifies and stores the OEM endorsement. -/
  | endorse (req : Requester) (tag : Byte) (arg : BitVec 16)
  /-- PROBE (R601). A cascade PROBE is sent to absent positions and answered by members. -/
  | probe (wire : LinkFrame) (position : Fin 4)
  /-- ANSWER (R601). A member's ANSWER is received and the member is aligned and joined. -/
  | answer (wire : LinkFrame) (position : Fin 4) (serial : BitVec 64) (silicon : Word) (present chains : Byte)
  /-- ALIGNMENT (R602). Every 1 s the head aligns FLD.CYCLE of each member. -/
  | alignment
  /-- SYNC (R602). A SYNC message makes each device latch FLD.CYCLE at the next tap-0 edge. -/
  | sync (wire : LinkFrame)
  /-- SYNC2 (R602). A SYNC2 message corrects the member's count by the difference. -/
  | sync2 (wire : LinkFrame) (latched : Word)
  /-- LOAD (R235). A LOAD message applies one ashlar's 13 words at a member. -/
  | load (wire : LinkFrame) (ashlar : Fin 16) (member : Fin 4) (words : List Word)
  /-- SWITCH (R236). A SWITCH message schedules a member's switch or sends it to QUIET if late. -/
  | switch (wire : LinkFrame) (cycle : Word) (ashlar : Fin 16)
  /-- ESTIMATE (R270). An ESTIMATE block of a member's half-bit estimates reaches the head. -/
  | estimate (wire : LinkFrame) (position : Fin 4) (reply block : Byte) (words : List Word)
  /-- FIELD (R604). A FIELD message announces a ramp, reader frame or survey step at a start cycle. -/
  | field (wire : LinkFrame) (position : Fin 4) (cycle : Word) (action : FieldAction)
  /-- QUIET (R237). A QUIET message makes a member ramp down and enter QUIET. -/
  | quiet (wire : LinkFrame)
  /-- MEMBER_STATUS (R603). A member's STATUS message reports its plumb state, quiet, late arrivals and faults. -/
  | memberStatus (wire : LinkFrame) (position : Fin 4) (plumb : Fin 16) (quiet late : Bool) (faulted : Byte)
  /-- MEMBER_POLL (R601). The head polls each present member at least every 1 ms. -/
  | memberPoll (position : Fin 4) (answered : Bool)
  /-- MEMBER_LEFT (R601). A member misses 10 polls and is removed. -/
  | memberLeft (position : Fin 4)
  /-- ORPHANED (R601). A member receives no frame for 10 ms and enters ORPHAN and QUIET. -/
  | orphaned
  /-- FUNC (R650). A write to GIO.FUNC changes a ball's function at the next Link clock. -/
  | func (req : Requester) (ball : Fin 12) (word : Word)
  /-- EDGE (R651). A synchronised edge on a GP ball of the selected kind sets its event bit. -/
  | edge (ball : Fin 12) (level : Bool)
  /-- RESET_END (R626). The end of a reset starts the boot, with BOOT0 sampled and mason 0 loaded or Recovery entered: RESET_N rises, VSUP returns after a supply reset, or the 27.12 MHz oscillator is stable again. -/
  | resetEnd (boot0 good : Bool) (flash : List Byte)
  /-- SUPPLY_LOW (R582). VSUP falls below 3.0 V and PWR.EVENT.SUPPLY_LOW is set. -/
  | supplyLow (vsup : Byte)
  /-- RDS_SYNC_LOST (R333). An FM path loses RDS block sync while its carrier stays locked, so RDS_SYNC clears and RDS frame boundaries stop. -/
  | rdsSyncLost (path : Fin 4)
  /-- TEMP_HIGH (R621). HOTTEST rises to ITG.CTRL.TEMP_ALARM and ITG.EVENT.TEMP_HIGH is set. -/
  | tempHigh (sensors : List Int)
  /-- FLASH_FRAME_END (R90). MSEL0_N rises after the last byte of a door flash frame, which ends FLASH_FRAME DONE or yields the FLASH_POLL byte to compare, and releases the window and waiting coprocessor frames. -/
  | flashFrameEnd (data : List Byte)
  /-- COPROCESSOR_READY (R94). The external coprocessor raises MDQS on MSEL1_N, the result words are clocked in and pushed, and the stalled mason 4 continues. -/
  | coprocessorReady (results : List Word)
  /-- MRAM_COPY_DONE (R633). An MRAM_WRITE or MRAM_READ copy writes its last word and ends DONE. -/
  | mramCopyDone
  /-- BLOW_DONE (R484). A BLOW finishes programming and verifying its lock bits and ends DONE or BLOW_FAILED; `bits` are those that have taken. -/
  | blowDone (bits : BitVec 3)
  /-- CHECK_RESULT (R350). A CHECK finishes its measurement and identity read and delivers its result block, after which the path returns to its schedule or its own TUNE. -/
  | checkResult (path : Fin 4) (report : PathReport) (ident : BitVec 16)
  /-- RELEARN_NOT_RUN (R316). A RELEARN for which no scan can run within 1 s ends NOT_RUN. -/
  | relearnNotRun
  /-- RECOVERY_OUTCOME (R631). The recovery package finishes and reports DONE or FAILED in DEV.STATUS.RECOVERY. -/
  | recoveryOutcome (done : Bool)
  /-- UNDEFINED_OPCODE (R503). A mason executes an unassigned encoding, such as the 0x0FFF filler, and takes the undefined-opcode trap. -/
  | undefinedOpcode (m : Fin 5)
  deriving DecidableEq, Repr

end Sys2Proof
end

