-- ==== Sys2Proof/Decode.lean ====
section
/-!
DEFINITION. Sys2Proof/Decode.lean: the decoder of the opcode table. spec/opcode_table.json gives no row any bits: the
commands of this block are frames, register accesses, pin events and the block's own completions, and none is spelled by a
word. The frames' own code bytes, masks and fields are read by the commands themselves, and an instruction word of a mason
is compared with its program memory by Machine/MasonOps.lean.
-/
namespace Sys2Proof

/-- The command a table word spells: none, since no row has bits. -/
def decodeTableWord (_nbits _w : Nat) : Option Instr := none

end Sys2Proof
end

