-- ==== Sys2Proof/Machine/Bits.lean ====
section
/-!
DEFINITION. Sys2Proof/Machine/Bits.lean: bit fields of words, sorted association lists, and byte order. The manual
numbers bits from 0 at the least significant end (00 R7) and stores multi-byte numbers little-endian (01 R661).
-/
namespace Sys2Proof.Machine

/-- The value of bits `msb..lsb` of a word. -/
def bitsOf (w : Word) (msb lsb : Nat) : Nat := (w.toNat / 2 ^ lsb) % 2 ^ (msb + 1 - lsb)

/-- Bit `n` of a word. -/
def bitAt (w : Word) (n : Nat) : Bool := w.getLsbD n

/-- The mask of bits `msb..lsb`. -/
def maskOf (msb lsb : Nat) : Word := BitVec.ofNat 32 ((2 ^ (msb + 1 - lsb) - 1) * 2 ^ lsb)

/-- A word holding value `v` in bits `msb..lsb` and 0 elsewhere. -/
def fieldWord (msb lsb v : Nat) : Word := BitVec.ofNat 32 ((v % 2 ^ (msb + 1 - lsb)) * 2 ^ lsb)

/-- `w` with bits `msb..lsb` replaced by `v`. -/
def withBits (w : Word) (msb lsb v : Nat) : Word := (w &&& ~~~(maskOf msb lsb)) ||| fieldWord msb lsb v

/-- The word with only bit `n` set. -/
def oneBit (n : Nat) : Word := BitVec.ofNat 32 (2 ^ n)

/-- 1 for true, 0 for false. -/
def bit01 (b : Bool) : Nat := if b then 1 else 0

/-- Whether two lists share an element. -/
def anyIn (xs ys : List Nat) : Bool := xs.any (fun x => ys.contains x)

/-! ## Sorted association lists -/

/-- The value at key `k`, if listed. -/
def keyFind {α : Type} (l : List (Nat × α)) (k : Nat) : Option α :=
  match l with
  | [] => none
  | (j, v) :: t => if j = k then some v else keyFind t k

/-- The list without key `k`. -/
def keyErase {α : Type} (l : List (Nat × α)) (k : Nat) : List (Nat × α) :=
  match l with
  | [] => []
  | (j, v) :: t => if j = k then keyErase t k else (j, v) :: keyErase t k

/-- Insert a pair before the first larger key. -/
def keyInsert {α : Type} (l : List (Nat × α)) (k : Nat) (v : α) : List (Nat × α) :=
  match l with
  | [] => [(k, v)]
  | (j, u) :: t => if k < j then (k, v) :: (j, u) :: t else (j, u) :: keyInsert t k v

/-- The list with key `k` bound to `v` (one pair per key, keys rising). -/
def keySet {α : Type} (l : List (Nat × α)) (k : Nat) (v : α) : List (Nat × α) := keyInsert (keyErase l k) k v

/-- The value at key `k`, or `d`. -/
def keyGet {α : Type} (l : List (Nat × α)) (k : Nat) (d : α) : α := (keyFind l k).getD d

/-- Keys strictly rising. -/
def keysRise {α : Type} (l : List (Nat × α)) : Bool :=
  match l with
  | [] => true
  | (j, _) :: t => (t.all fun p => j < p.1) && keysRise t

/-! ## Byte order (01 R661: little-endian) -/

/-- The number a byte string spells, least significant byte first. -/
def leNat (bs : List Byte) : Nat :=
  match bs with
  | [] => 0
  | b :: t => b.toNat + 256 * leNat t

/-- The number a byte string spells, most significant byte first. -/
def beNat (bs : List Byte) : Nat := leNat bs.reverse

/-- `n` bytes of a number, least significant first. -/
def leBytes (n v : Nat) : List Byte :=
  match n with
  | 0 => []
  | m + 1 => BitVec.ofNat 8 v :: leBytes m (v / 256)

/-- `n` bytes of a number, most significant first. -/
def beBytes (n v : Nat) : List Byte := (leBytes n v).reverse

/-- The word whose four bytes are given, least significant first; missing bytes are 0. -/
def leWord (bs : List Byte) : Word := BitVec.ofNat 32 (leNat (bs.take 4))

/-- Pack bytes into words, four to a word, the first byte in bits 7..0, the last word padded with 0. -/
def packWords (bs : List Byte) : List Word :=
  match bs with
  | [] => []
  | a :: b :: c :: d :: t => leWord [a, b, c, d] :: packWords t
  | t => [leWord t]

/-- The bytes of words, four to a word, least significant first. -/
def wordsBytes (ws : List Word) : List Byte := ws.flatMap fun w => leBytes 4 w.toNat

/-- Replace element `i` of a list by `v`; out of range leaves the list. -/
def listSet {α : Type} (l : List α) (i : Nat) (v : α) : List α := l.set i v

/-- A number limited to `hi`. -/
def capAt (hi v : Nat) : Nat := if hi < v then hi else v

/-- A two's complement field of `w` bits for an integer. -/
def intField (w : Nat) (v : Int) : Nat := (v % (2 ^ w : Nat)).toNat

end Sys2Proof.Machine
end

