-- ==== Sys2Proof/Machine/RdsBlocks.lean ====
section
/-!
DEFINITION. Sys2Proof/Machine/RdsBlocks.lean: the block code of RDS and what groups 0A and 4A say (08 R333, 09 R362, R363,
R380). The code and the layout of the groups are those of IEC 62106, which R333 names (notes/assumptions/58.md).
-/
namespace Sys2Proof.Machine

/-- The remainder of a 26-bit block modulo x^10 + x^8 + x^7 + x^5 + x^4 + x^3 + 1, over its upper `n` bits. -/
def rdsRemainder (n w : Nat) : Nat :=
  match n with
  | 0 => w
  | k + 1 => rdsRemainder k (if w.testBit (k + 10) then w ^^^ (0x5B9 <<< k) else w)

/-- The bursts of up to 5 bits that a block can hold. -/
def rdsBursts : List Nat :=
  (List.range 26).flatMap (fun at_ =>
    ((List.range 16).map (fun k => (2 * k + 1) <<< at_)).filter (fun e => e < 2 ^ 26))

/-- The 16 data bits of a block with offset word `offset`, and whether a burst of up to 5 bits was corrected; none where the
block is in error beyond that (08 R333). -/
def rdsBlock (offset : Nat) (block : BitVec 26) : Option (Nat × Bool) :=
  let syndrome := rdsRemainder 16 block.toNat ^^^ offset
  if syndrome = 0 then some (block.toNat / 1024, false)
  else (rdsBursts.find? (fun e => rdsRemainder 16 e == syndrome)).map (fun e => ((block.toNat ^^^ e) / 1024, true))

/-- One RDS group: blocks A to D, the blocks corrected (bit 3 block A), and whether block 3 carried offset word C'. -/
structure RdsGroup where
  a : Nat
  b : Nat
  c : Nat
  d : Nat
  corrected : Nat
  cPrime : Bool
  deriving DecidableEq, Repr

/-- A group from its four blocks: none while a block is still in error. Version B groups carry C' (09 R362). -/
def rdsGroupOf (a b c d : BitVec 26) : Option RdsGroup :=
  match rdsBlock 0x0FC a, rdsBlock 0x198 b with
  | some (a', ca), some (b', cb) =>
    let prime := b'.testBit 11
    match rdsBlock (if prime then 0x350 else 0x168) c, rdsBlock 0x1B4 d with
    | some (c', cc), some (d', cd) =>
      some { a := a', b := b', c := c', d := d', cPrime := prime,
             corrected := 8 * bit01 ca + 4 * bit01 cb + 2 * bit01 cc + bit01 cd }
    | _, _ => none
  | _, _ => none

/-- The group type code: 2g + v (09). -/
def groupType (g : RdsGroup) : Nat := g.b / 2048

/-- The alternative frequencies of a 0A group, in 100 Hz; a code 250 announces one outside the FM band. -/
def rdsAlternatives (g : RdsGroup) : List Nat :=
  if groupType g ≠ 0 then []
  else if g.c / 256 = 250 then []
  else ([g.c / 256, g.c % 256].filter (fun n => 1 ≤ n && n ≤ 204)).map (fun n => (875 + n) * 1000)

/-- Seconds from 2000-01-01 to a modified Julian day, an hour, a minute and a second; none where they are no time since
then. -/
def mjdSeconds (day hour minute second : Nat) : Option Nat :=
  if day < 51544 ∨ 23 < hour ∨ 59 < minute ∨ 60 < second then none
  else some ((day - 51544) * 86400 + hour * 3600 + minute * 60 + second)

/-- The UTC of a 4A group in seconds since 2000-01-01. -/
def rdsTime (g : RdsGroup) : Option Nat :=
  if groupType g ≠ 8 then none
  else mjdSeconds (g.b % 4 * 32768 + g.c / 2) (g.c % 2 * 16 + g.d / 4096) (g.d / 64 % 64) 0

/-- A local offset in half hours, sign and magnitude, as two's complement. -/
def localOffset (sign : Bool) (n : Nat) : Nat := if sign then (256 - n) % 256 else n

/-- The local offset of a 4A group, in 30 min. -/
def rdsOffset (g : RdsGroup) : Option Nat :=
  if groupType g ≠ 8 then none else some (localOffset (g.d.testBit 5) (g.d % 32))

end Sys2Proof.Machine
end

