-- ==== Sys2Proof/Machine/State.lean ====
section
/-!
DEFINITION. Sys2Proof/Machine/State.lean: the state of the block, the reasons it stops, and the state after reset.
-/
namespace Sys2Proof.Machine

/-- Why a step stops. -/
inductive Fault where
  /-- Raised by the host frame commands when a frame starts while HRDY is low and HSEL_N is high outside Stop and its
  entry. 02 R58 forbids it and 00 R5 leaves the behaviour undefined, with no effect among its choices. Safe. -/
  | frameWhileNotReady
  deriving DecidableEq, Repr

/-- Why a command has no meaning. -/
inductive Refusal where
  /-- A command this model does not reach yet; raised by the dispatch. Safe. -/
  | notModelled (mnemonic : String)
  deriving DecidableEq, Repr

/-- A memory: bytes by address, keys rising, no byte equal to what an unlisted address reads as. -/
abbrev Memory := List Host.Cell

/-- What the device as a whole is doing (15 R575 to R577, 18 R626). -/
inductive Phase where
  /-- reset asserted, or the boot not yet begun -/
  | inReset
  /-- Run: PD0 and PD1 powered -/
  | run
  /-- Stop entry, at a step of 15 R575 -/
  | stopEntry (step : Nat)
  /-- in Stop: PD0 only -/
  | stopped
  deriving DecidableEq, Repr

/-- DEV.STATUS.STATE (18 R634). -/
inductive BootState where
  | startUp | run | recovery
  deriving DecidableEq, Repr

/-! ## Doors (03 R131 to R146) -/

/-- DOOR_STATUS of one page and one requester set (03 R138), with the command it follows (0: none). -/
structure DoorView where
  page : Nat
  set : Nat
  tag : Nat
  cmd : Nat
  dup : Bool
  outcome : Nat
  ticket : Nat
  follows : Nat
  deriving DecidableEq, Repr

/-- A remembered command (03 R134). -/
structure DoorRec where
  page : Nat
  requester : Requester
  word : Word
  outcome : Nat
  ticket : Nat
  id : Nat
  deriving DecidableEq, Repr

/-- An accepted command with no final outcome yet (03 R136). -/
structure RunCmd where
  id : Nat
  page : Nat
  requester : Requester
  word : Word
  ticket : Nat
  deriving DecidableEq, Repr

/-- A SELF_TEST or CALIBRATE (03 R139, R140). -/
structure TestCmd where
  id : Nat
  page : Nat
  code : Nat
  urgent : Bool
  deadline : Nat
  started : Bool
  deriving DecidableEq, Repr

/-- A delivered result (03 R141 to R145); `page` names the block. -/
structure ResultEntry where
  page : Nat
  ticket : Nat
  poison : Bool
  words : List Word
  deriving DecidableEq, Repr

/-- The doors of all pages. -/
structure Doors where
  views : List DoorView
  recs : List DoorRec
  running : List RunCmd
  nextId : Nat
  tickets : List (Nat × Nat)
  tests : List TestCmd
  results : List ResultEntry
  deriving DecidableEq, Repr

/-- SNAP_CTRL of one page and set (03 R127, R128). -/
structure SnapCtl where
  seq : Nat
  group : Nat
  deriving DecidableEq, Repr

/-! ## Result queues (02 R68, 14 R554 to R557) -/

/-- One entry of a result queue. -/
structure QEntry where
  seq : Nat
  poison : Bool
  words : List Word
  deriving DecidableEq, Repr

/-- A result queue: entries oldest first, largest count seen, entries written so far, and the space reserved by jobs. -/
structure RQueue where
  entries : List QEntry
  high : Nat
  nextSeq : Nat
  reserved : Nat
  deriving DecidableEq, Repr

/-! ## Transactions (04) -/

/-- State of a transaction identifier (04 R148). -/
inductive TxnPhase where
  | free | openPhase | doomed | preparing | waiting | applying
  deriving DecidableEq, Repr

/-- One transaction identifier: staged entries in staging order, the current JOB_PAGE, GUARD_INDEX and GUARD_MASK
(04 R163 to R166), and the time it was allocated. `serial` tells one use of an identifier from the next; `preparedAt` is
`now` when its prepare was complete, `met` whether the event of its commit condition has come since (R171), and `froze`
whether it stood frozen for a tap-0 edge when the plumb line left lock (R174). -/
structure Txn where
  phase : TxnPhase
  requester : Requester
  doom : Nat
  tag : Nat
  cond : Nat
  regs : List (Nat × Word)
  guards : List (Nat × Word × Word)
  doors : List (Nat × Word)
  mortar : List (Nat × Word)
  jobPage : Nat
  guardIndex : Nat
  guardMask : Word
  openedAt : Nat
  limitMs : Nat
  serial : Nat
  preparedAt : Nat
  met : Bool
  froze : Bool
  deriving DecidableEq, Repr

/-- A commit record (04 R182): `live` names the identifier while the commit has no final outcome. -/
structure CommitRec where
  requester : Requester
  tag : Nat
  state : Nat
  code : Nat
  live : Option (Fin 8)
  deriving DecidableEq, Repr

/-- A write held during an apply window (04 R177), on a page whose domain is powered and not ready (15 R572), at a door
whose descriptor's bank is being re-initialised (01 R30), or behind an earlier one of the same requester to the same
island (01 R24). `quiet` says that an apply window held it, so that it counts as no conflict (04 R177). -/
structure HeldWrite where
  requester : Requester
  index : Nat
  word : Word
  quiet : Bool
  deriving DecidableEq, Repr

/-- The transaction engine; `nextSerial` numbers openings. -/
structure TxnUnit where
  ids : List Txn
  records : List CommitRec
  held : List HeldWrite
  nextSerial : Nat
  deriving DecidableEq, Repr

/-! ## Memories -/

/-- A write of Mortar bytes that waits until its bank is re-initialised (01 R30): who wrote it (none: an engine), the
address, the bytes, and the index recorded for a host's word. -/
structure BankWait where
  who : Option Requester
  addr : Nat
  bytes : List Byte
  idx : Nat
  deriving DecidableEq, Repr

/-- Mortar and MRAM with their marks: poisoned words, words with inverted symbols (word, symbol mask), banks being
re-initialised with the writes that wait for them (01 R28 to R31, 17 R607 to R612), and scrub positions. -/
structure Mem where
  mortar : Memory
  mram : Memory
  poison : List Nat
  mramPoison : List Nat
  symErr : List (Nat × Nat)
  bank0Busy : Bool
  bank1Busy : Bool
  scrub0 : Nat
  scrub1 : Nat
  scrubMram : Nat
  waits : List BankWait
  deriving DecidableEq, Repr

/-! ## The host port and the memory port (02) -/

/-- Why a host read is held busy (02 R76). -/
inductive HoldReason where
  | crossing | applyWindow | bank | provisional | notReady
  deriving DecidableEq, Repr

/-- The frames the host port can hold busy: a read from the Mortar window or of registers, with MWIN_BASE as the frame
began (03 R111), its next word and the words still to come; a read of one register; a read of a queue with the words it
clocks; a commit with its reply word once it is known. -/
inductive HeldFrame where
  | read (window : Bool) (base addr count : Nat)
  | one (index : Nat)
  | pop (addr clocked : Nat)
  | commit (addr : Word) (reply : Option Word)
  deriving DecidableEq, Repr

/-- What the device sent in the last read frame: status bytes in order (one 0xA5 for the slots of each hold, 02 R72), and
words in order. -/
structure Reply where
  statuses : List Byte
  words : List Word
  deriving DecidableEq, Repr

/-- The host port: lane settings of the frame in progress (02 R60), the held read and why, `now` when its status slot
became busy (R74), the last reply. -/
structure HostPort where
  lanes : Word
  held : Option (HeldFrame × HoldReason)
  heldNow : Nat
  reply : Option Reply
  deriving DecidableEq, Repr

/-! ## Power, boot and time (15, 18) -/

/-- A POWER_ON or POWER_OFF waiting or running (15 R571): its door command and domain mask; a mask of 0 stands for STOP's
switch-offs (R575). -/
structure PowerJob where
  id : Nat
  turnOn : Bool
  mask : BitVec 10
  deriving DecidableEq, Repr

/-- The power controller: domains on, requested, being drained (15 R571 to R573), being switched on and since when, commands
in order, the STOP commands that wait for the wake, CLK.MONO at Stop, `now` when the switch-off in progress began and when STOP
was accepted (R573, R575). -/
structure Power where
  on : BitVec 10
  req : BitVec 10
  draining : BitVec 10
  starting : BitVec 10
  startedAt : Nat
  jobs : List PowerJob
  stopIds : List Nat
  stoppedAt : Nat
  supplyLow : Bool
  drainAt : Nat
  stopNow : Nat
  deriving DecidableEq, Repr

/-- DEV.STATUS and the boot (18 R624 to R634): causes, failed boots (in MRAM, 01 R32), image state, Recovery report,
refused image entries, the last BOOT0 sample, identity generation in progress, the START_DONE commands waiting
for it, and the number of the firmware region installed. -/
structure Boot where
  cause : Nat
  bootFails : Nat
  image : Nat
  recovery : Nat
  rejects : Nat
  boot0 : Bool
  idGen : Bool
  startDoneIds : List Nat
  holdReset : Bool
  fwIndex : Nat
  deriving DecidableEq, Repr

/-- PD0's real-time counter and seconds count (15 R566 to R570): the count at `baseNow` in 1/32,768 s, the rate
correction in 0.1 ppm, the slew outstanding in µs, TIME_VALID, PD0_LOST, whether the alarm has fired since it was last
written, `now` when PD0 was last powered up, when the alarm last fired, and when the measurement of the rate began. -/
structure Rtc where
  base : Nat
  baseNow : Nat
  trim : Int
  slew : Int
  valid : Bool
  lost : Bool
  alarmFired : Bool
  monoNow : Nat
  lfOk : Bool
  alarmNow : Nat
  trimAt : Nat
  deriving DecidableEq, Repr

/-- State of the plumb line (15 R563). -/
inductive PlumbState where
  | off | acquiring | locked | noRef
  deriving DecidableEq, Repr

/-- The plumb line, whether consumers run on the bypass clock, the length of the last acquisition, `now` when the line entered
its present state, and the island clocks in lock, by class (15 R558). -/
structure Clocks where
  plumb : PlumbState
  bypass : Bool
  lockUs : Nat
  acqNow : Nat
  islands : BitVec 8
  deriving DecidableEq, Repr
/-! ## The Field island (05, 06, 07) -/

/-- A SOLVE in progress: its command, ticket, the SOLVE_IN words read at the door, the ports it may use, and the survey
it is to compensate (05 R227). -/
structure SolveJob where
  id : Nat
  ticket : Nat
  inputs : List Word
  used : List Nat
  survey : List Word
  deriving DecidableEq, Repr

/-- A CASC_LOAD in progress: its command and the (ashlar, member) loads not yet applied (05 R235). -/
structure CascLoad where
  id : Nat
  left : List (Nat × Nat)
  deriving DecidableEq, Repr

/-- The pattern engine and the survey. `sel` is the most recent selection, from NEXT or the job (05 R207), with its
SOURCE code; `changeDue` a selection, and `rewriteDue` new words of the ashlar in force, that the next tap-0 edge takes
(R205, R206); `driven` the 13 words of the ashlar being driven (R206); `jobHold` whether a job holds the field (R212);
`since` is `now` when the field state was entered (R213); `offMinDone` whether OFF_MIN has elapsed since the last fall
(R213); `survey` the rows of the survey in progress; `reference` and `last` the entries of the reference and last surveys
(R223), `repaired` the ashlars that mason 1 has repaired and the port words it left, with the survey it used (R231);
`cycleOff` what is added to the carrier count (R198); `switched` the ashlar of the last cascade switch made, and `stepDue`
the ashlar of a job's step that waits for an earlier switch (R209, R239); `pauses` the pauses of the reader frame in
progress, as instants of start and end with their depth in percent, and `beforePause` the words that stay in force until
the pause ends at an instant (R215, R216); `limitAt` the last step of the limiter and `limitDue` one held over (R217). -/
structure FieldUnit where
  sel : Nat
  selSource : Nat
  changeDue : Bool
  rewriteDue : Bool
  driven : List Word
  jobHold : Bool
  offMinDone : Bool
  survey : List (Nat × List Word)
  surveyFull : Bool
  surveyValid : Bool
  reference : List Word
  last : List Word
  surveyAt : Nat
  solves : List SolveJob
  cycleOff : Nat
  switchId : Option Nat
  load : Option CascLoad
  since : Nat
  repaired : List (Nat × List Word)
  repairSurvey : List Word
  switched : Nat
  stepDue : Option Nat
  pauses : List (Nat × Nat × Nat)
  beforePause : Option (Nat × List Word)
  limitAt : Nat
  limitDue : Option (Nat × Int)
  deriving DecidableEq, Repr

/-- A capture of raw samples (06 R273): its command, the chains, the first byte address, the stored pairs per chain, the
carrier cycles of a pair, whether it waits for a window, and `now` when it was issued, then when it started. -/
structure CaptureJob where
  id : Nat
  chains : List Nat
  base : Nat
  pairs : Nat
  cycles : Nat
  waiting : Bool
  since : Nat
  deriving DecidableEq, Repr

/-- A reply in progress (06 R253 to R266): the UMX registers in force at its step 1 (R267), the cycle of its first
half-bit and the reply's number, the chains used, those that clipped in the estimation window, whether a break fell in it;
the half-bit estimates and the coupling vectors found at the window's end, and `now` then, while the blocks of members are
awaited (R271); then the vectors in order of decreasing norm, the coils they cover, the source count, kappa in 1/65,536,
the coils before and after exclusion, the slot checks that failed, and the members that contribute. -/
structure ReplyRun where
  ctrl : Word
  limits : Word
  est : Word
  wait : Word
  cycle : Word
  number : Nat
  used : List Nat
  clipped : List Nat
  clippedAny : List Nat
  broken : Bool
  window : Option (List (List (Int × Int)) × List (List (Int × Int)) × Nat)
  formed : Bool
  vectors : List (List (Int × Int))
  coils : List Nat
  k : Nat
  kappa : Nat
  chains : Nat
  fails : List Nat
  members : BitVec 3
  deriving DecidableEq, Repr

/-- The receive chains and the unmixing engine; `trimAt` holds `now` at each chain's last full trim (06 R250), `replies`
counts the replies detected since PD4 was switched on, whose low 8 bits number a reply (R270). -/
structure ReceiveUnit where
  replies : Nat
  windowOpen : Bool
  reply : Option ReplyRun
  gainDue : List (Nat × Nat)
  capture : Option CaptureJob
  trimAt : List (Option Nat)
  deriving DecidableEq, Repr

/-- A contactless job (07 R287 to R310): command, ticket, kind, descriptor and transmit data as copied. -/
structure NfcJob where
  id : Nat
  ticket : Nat
  inventory : Bool
  page : Nat
  desc : List Byte
  tx : List Byte
  deriving DecidableEq, Repr

/-- How a job is to end at the next frame boundary: end code, exchange status, door outcome (07 R294). -/
structure NfcEnd where
  code : Nat
  status : Nat
  outcome : Nat
  deriving DecidableEq, Repr

/-- What an anticollision is to send next (07 R305): a request; the EOF or marker of a slot; ANTICOLLISION of a cascade
level with the identifier bytes of the levels done and the bits known of this one; SELECT of a level with its four bytes;
the silencing of the tags found; nothing any more on this ashlar. -/
inductive AntiStep where
  | request
  | slot (n : Nat)
  | anticoll (level : Nat) (done : List Byte) (bits : List Bool)
  | select (level : Nat) (done part : List Byte)
  | silence (tags : List (List Byte))
  | roundDone
  deriving DecidableEq, Repr

/-- The anticollision of an inventory (07 R305 to R308): the sequence entry and the pass, identifiers newly recorded in
this pass, whether the job's first request has been sent, the next step, whether the present request drew a reply, a
collision or a new identifier, the mask in force and those of sub-rounds to come (length, value), the tags identified on
this ashlar, the answer to the type A request, and whether bypass broke the round while a request was in the air, whose
window then says nothing about it (R292). -/
structure AntiRun where
  broken : Bool
  idx : Nat
  pass : Nat
  passNew : Nat
  woken : Bool
  step : AntiStep
  replied : Bool
  collided : Bool
  fresh : Bool
  mask : Nat × Nat
  masks : List (Nat × Nat)
  found : List (List Byte)
  atqa : List Byte
  deriving DecidableEq, Repr

/-- What an ISO-DEP exchange is to send next (07 R301, R302): WUPA or WUPB; SELECT of a cascade level; RATS; PPS; ATTRIB
with the ATQB; the addressed SELECT of ISO/IEC 15693; an information block; R(ACK); R(NAK); an answer to S(WTX);
S(DESELECT). -/
inductive DepStep where
  | wake
  | select (level : Nat)
  | rats
  | pps (rate : Nat)
  | attrib (atqb : List Byte)
  | select15693
  | info
  | ack
  | nak
  | wtx (m : Byte)
  | deselect
  deriving DecidableEq, Repr

/-- The progress of an ISO-DEP exchange: the next step, the transmit bytes not yet acknowledged, the response so far,
retries made for the block in hand, the factor on the frame waiting time, whether the tag is chaining, and the ATS. -/
structure DepRun where
  step : DepStep
  left : List Byte
  data : List Byte
  retries : Nat
  wtxm : Nat
  chaining : Bool
  ats : List Byte
  deriving DecidableEq, Repr

/-- The running job: what it has delivered and counted (07 R298, R309, R310), and where it stands. `tset` is the timing
set of its protocol as the job started (R286), `framed` whether it has sent a frame, `sent` the last reader frame with its
bits in the last byte, `frameEnd` the instant of its end, `gapFrom` the instant from which RECOVERY counts (R283), `slot`
the window in hand of a request with several (R284), and `step` a step that has been selected (R305). -/
structure NfcRun where
  job : NfcJob
  tset : List Word
  framed : Bool
  sent : List Byte × Nat
  frameEnd : Nat
  gapFrom : Nat
  slot : Nat
  anti : AntiRun
  dep : DepRun
  startNow : Nat
  lastClose : Nat
  guardDue : Bool
  inFrame : Bool
  records : Nat
  reserved : Nat
  bypassed : Bool
  skipped : Nat
  tags : List (List Byte)
  slots : Nat
  collided : Nat
  separated : Nat
  repeats : Nat
  endWith : Option NfcEnd
  resetField : Bool
  deriving DecidableEq, Repr

/-- The contactless job table (07 R289), oldest first, the running job, a KEEP_FIELD hold with `now` when it began
(R291), the block number of the ISO-DEP session (R302), and end records that wait for space (R290), with their POP
registers. -/
structure NfcUnit where
  table : List NfcJob
  run : Option NfcRun
  keep : Bool
  keepAt : Nat
  block : Bool
  late : List (Nat × List Word)
  deriving DecidableEq, Repr

/-- Card detection in Run and in Stop (07 R312 to R316): scans left to learn, baselines, consecutive scans beyond the
threshold, whether a hit holds, scans since it fell below, the probe's own, the RELEARN commands in progress with `now` when
each was applied, and `now` at the last scan of each kind. -/
structure CardUnit where
  learn : Nat
  base : List (Int × Int)
  overs : Nat
  hold : Bool
  under : Nat
  above : Bool
  probeLearn : Nat
  probeBase : List Nat
  probeOver : Nat
  probeLeft : BitVec 8
  probeHit : BitVec 8
  probeDelta : Nat
  relearn : List (Nat × Nat)
  scanAt : Option Nat
  probeAt : Option Nat
  deriving DecidableEq, Repr
/-! ## The Broadcast island (08, 09) -/

/-- What a DAB path knows of its ensemble from the fast information channel (09 R366): its identifier and CIF counter (FIG
0/0), subchannels with their rates in 8 kbit/s (0/1), services with their components as transport mechanism and subchannel
or SCId (0/2), packet components with subchannel and address (0/3), and by ensemble the frequencies in 100 Hz, by service
the other ensembles that carry it (08 R342). -/
structure DabInfo where
  eid : Nat
  cifHigh : Nat
  cifLow : Nat
  subs : List (Nat × Nat)
  services : List (Nat × List (Nat × Nat))
  packets : List (Nat × Nat × Nat)
  freqs : List (Nat × List Nat)
  others : List (Nat × List Nat)
  deriving DecidableEq, Repr

/-- A SCAN or CHECK of a path (08 R349 to R351): its command, ticket, argument, the CHECK_TUNE read, whether it has
started and when, the stations delivered, and the points of the band done. -/
structure BpJob where
  id : Nat
  ticket : Nat
  scan : Bool
  arg : Nat
  tune : Word
  started : Bool
  startNow : Nat
  stations : Nat
  point : Nat
  deriving DecidableEq, Repr

/-- One broadcast path beyond its registers: what it knows of its DAB ensemble (09 R366), its commands in order, the AIDs
it has seen registered, as (AID, group type) (09 R373), candidate checks since the last image trim (08 R330); the gain in
half dB, `now` at its last step, and whether the RF gain is reduced (R328); the bandwidth last chosen in kHz, 0 for none
yet, and `now` then (R329); `now` at the last frame boundary or lock (R325, R326), since when SCORE is below 3 dB (R325),
the SCORE of the home input during a trial of the other (R335), and the programme identification of the last two groups
(R344). -/
structure BcastPath where
  dab : DabInfo
  jobs : List BpJob
  aids : List (Nat × Nat)
  checks : Nat
  gain : Nat
  gainAt : Nat
  rfReduced : Bool
  width : Nat
  widthAt : Nat
  markNow : Nat
  lowSince : Option Nat
  homeScore : Nat
  idents : List Nat
  deriving DecidableEq, Repr

/-- A swap being committed (08 R345): its transaction, the listening and the scan path, the slot, and the audio lead. -/
structure SwapRec where
  txn : Nat
  listener : Nat
  scanner : Nat
  slot : Nat
  lead : Int
  deriving DecidableEq, Repr

/-- A message being voted (09 R375): stream, sequence identifier, the first copy, the map entries holding it, whether
CONFIRMED was issued, and whether it is disputed. -/
structure VoteEntry where
  stream : Nat
  seq : Nat
  first : List Byte
  firstUsec : Word
  agree : List Nat
  confirmed : Bool
  disputed : Bool
  deriving DecidableEq, Repr

/-- A closed message (09 R377): outcome 1 CONFIRMED, 2 UNCONFIRMED, 3 DISPUTED, and the CRC-32C of its first copy. -/
structure ClosedMsg where
  stream : Nat
  seq : Nat
  outcome : Nat
  crc : Word
  first : List Byte
  agree : List Nat
  firstUsec : Word
  deriving DecidableEq, Repr

/-- A complete copy handed to the concordance unit: the map entry and the bytes (09 R373). -/
structure CopyRec where
  entry : Nat
  bytes : List Byte
  deriving DecidableEq, Repr

/-- A copy being put together from RDS segments (09 R373). -/
structure SegmentRec where
  entry : Nat
  slot : Nat
  remain : Nat
  bytes : List Byte
  deriving DecidableEq, Repr

/-- A report in the open time vote (09 R380): slot, class (0 RDS, 1 DAB, 2 LW), offset of the report against the
counter and half-width, in 0.1 ms. -/
structure TimeRec where
  slot : Nat
  cls : Nat
  offset : Int
  half : Int
  deriving DecidableEq, Repr

/-- The last time vote as published (09 R384), with the instant and uncertainty of the last CONFIRMED one. -/
structure TimeView where
  outcome : Nat
  agree : Nat
  dissent : Nat
  classes : Nat
  lto : Nat
  correction : Int
  confirmedAt : Option Nat
  half : Int
  deriving DecidableEq, Repr

/-- The Broadcast island. `aux`: the packet address of each selection (09 R365); `better`: consecutive better checks by
path times 16 plus candidate (08 R343); `visit`: the candidate last checked, and `checkNow` when; `verifying`: the
listening path and candidate being verified, and `verifyNow` since when; `barred`: barred candidates with the instant;
`fadeUntil`: when the ramp or crossfade in progress ends (R346, R352); `reportsNow`: when the time vote opened; `noSwap`: slots
with the instant before which no swap is staged (R347); `swapMarks`: record kinds, as slot times 256 plus type, whose
first record since a swap is due (09 R359); `audio`: the format bits of AUD.CTRL in force; `delayNow`:
when AUD.STATUS.DELAY was last set (08 R353); `dataGap`, `subGap`,
`outcomeGap`: records were dropped (R361); `ready`: copies complete and not yet voted; `onNow`: when PD6 was switched
on. -/
structure BcastUnit where
  paths : List BcastPath
  aux : List Nat
  better : List (Nat × Nat)
  verifying : Option (Nat × Nat)
  visit : Nat
  checkNow : Nat
  verifyNow : Nat
  barred : List (Nat × Nat)
  fadeUntil : Nat
  reportsNow : Nat
  swap : Option SwapRec
  noSwap : List (Nat × Nat)
  swapMarks : List Nat
  audio : Word
  delayNow : Nat
  dataGap : Bool
  subGap : Bool
  outcomeGap : Bool
  segments : List SegmentRec
  ready : List CopyRec
  votes : List VoteEntry
  closed : List ClosedMsg
  reports : List TimeRec
  lto : List (Nat × Nat)
  view : TimeView
  onNow : Nat
  deriving DecidableEq, Repr

/-! ## Twin and cascade (16) -/

/-- A sealed message as its receiver has opened it (16 R584): kept while a gap before it is open (16 R585). -/
inductive SealedMsg where
  | keyConfirm
  | heartbeat (bytes received : Nat) (boundaryUs : Option Nat)
  | bulk (part : BulkPart)
  | txn (body : MirrorTxn)
  | valve (item : ValveItem)
  | record (timeQueue : Bool) (words : List Word)
  | ack (applied : Nat)
  | detach
  deriving DecidableEq, Repr

/-- A message to send (16 R584, R585): its counter, type and body, and `now` when a frame last carried it. -/
structure TwinMsg where
  counter : Nat
  kind : Nat
  body : List Byte
  sentAt : Option Nat
  deriving DecidableEq, Repr

/-- The lintel or cascade port beyond its registers (02 R98 to R102): the target's ready line as a controller last saw it, whether
this device, as a target, was the one last addressed, the lane groups of the frame last sent, and the frame last handed to the
mason through slot 7, its words behind the receive status word. -/
structure LinkLine where
  ready : Bool
  addressed : Bool
  lanes : List Nat
  rx : List Word
  deriving DecidableEq, Repr

/-- The twin link beyond TWN.STATUS (16 R583 to R598): counters of the next message to send and to apply, messages
unacknowledged, messages held behind a gap, the two HELLO random values, the peer's public key, the role this device is
to take, the step of the pairing (0 none, 1 HELLO, 2 waiting for the primary's host, 3 keys made), whether the policy
allowed it, when AWAIT_CONFIRM ends, whether a bulk transfer is due once the backlog has drained and the counter of
the one in progress, whether the device is stepped down and left PAIRED as an unsynced secondary (R597), the port, the messages
that wait for a frame, and `now` at the last heartbeat or missed heartbeat (R594). -/
structure TwinUnit where
  outCtr : Nat
  inCtr : Nat
  out : List TwinMsg
  held : List (Nat × SealedMsg)
  myRandom : List Byte
  peerRandom : List Byte
  peerKey : List Byte
  becoming : Nat
  step : Nat
  auto : Bool
  confirmUntil : Nat
  bulkDue : Bool
  bulkCtr : Option Nat
  steppedDown : Bool
  unsynced : Bool
  line : LinkLine
  queue : List TwinMsg
  beatNow : Nat
  deriving DecidableEq, Repr

/-- The cascade beyond CSC.STATUS (16 R600 to R604): positions probed that have not answered, whether a member has
answered a PROBE, consecutive polls each member has missed, the cycle count latched at the last SYNC, whether a head's
alignment is in progress, blocks of half-bit estimates the head holds (member, reply, block, words), and the last status
each member reported (plumb state, QUIET, late, faulted ports), whether this member was late since the last switch in time
(05 R236), the actions announced with their cycles (16 R604), whether the reader frame, or the survey step, that was
announced may now be made, the port, `now` at the last PROBE to each position and at the last alignment, and at a member
when it last received a frame (16 R601, R602). -/
structure CascadeUnit where
  late : Bool
  due : List (Word × FieldAction × Nat)
  frameTurn : Bool
  surveyTurn : Bool
  probed : List Nat
  answered : Bool
  missed : List Nat
  latched : Option Word
  aligning : Bool
  blocks : List (Nat × Nat × Nat × List Word)
  reports : List (Nat × Bool × Bool × Byte)
  line : LinkLine
  probedAt : List (Option Nat)
  alignedAt : Option Nat
  heardNow : Nat
  deriving DecidableEq, Repr

/-! ## The Security island (12) -/

/-- A loaded key slot (12 R465 to R472): the key and its limits, the next counter or the uses left, the history entry
of a guarded key, the node of a cached key, and when the slot was last used. -/
structure KeySlot where
  size : Nat
  modes : Nat
  users : Nat
  key : List Byte
  ctr : Nat
  hist : Nat
  node : Option Nat
  used : Nat
  deriving DecidableEq, Repr

/-- What an entry of the cipher job table is (12 R460, R470, R482): a cipher job, a key load, the load of an ECDH result,
or a key clear. -/
inductive CipherKind where
  | cipher | load | derived | clear
  deriving DecidableEq, Repr

/-- Where a cipher job stands: waiting, started, or finished and waiting for its verdict (12 R461, R476). -/
inductive CipherPhase where
  | waiting | running | verdict
  deriving DecidableEq, Repr

/-- An entry of the cipher job table (12 R460, R461, R469): `desc` is the descriptor as read at the door, `good` the
verdict known, `left` the blocks the engine has not yet processed (01 R44), and `now` when it started. -/
structure CipherJob where
  id : Nat
  ticket : Nat
  requester : Requester
  kind : CipherKind
  slot : Nat
  desc : List Byte
  phase : CipherPhase
  counter : Nat
  provReads : Nat
  good : Bool
  left : Nat
  startNow : Nat
  deriving DecidableEq, Repr

/-- An effect of a mason bound to a decryption (12 R476). A staging names its transaction by identifier and serial. -/
inductive HeldEffect where
  | write (index : RegIndex) (word : Word)
  | mortar (addr : Nat) (bytes : List Byte)
  | stage (txn : Fin 8) (serial : Nat) (index : RegIndex) (word : Word)
  | stageMortar (txn : Fin 8) (serial : Nat) (addr : Nat) (word : Word)
  | send (f : Fin 32) (words : List Word)
  deriving DecidableEq, Repr

/-- A held effect: its mason and the decryptions it waits for. -/
structure HeldItem where
  mason : Fin 5
  jobs : List Nat
  effect : HeldEffect
  deriving DecidableEq, Repr

/-- A write to a provisional destination, held until the verdict of the job (12 R476), or a write of the same requester
to the same bank behind such a one (01 R24); `who` is none for an engine. -/
structure DestWrite where
  job : Nat
  who : Option Requester
  addr : Nat
  bytes : List Byte
  deriving DecidableEq, Repr

/-- The cipher engine and the key store's volatile part: slots, the job table, outbound counters of nodes met since PD2
was switched on, the order of use of slots, masons bound to jobs (mason, job), effects held, and the consecutive blocks of
higher classes while a host job waited (01 R47). -/
structure CipherUnit where
  slots : List (Option KeySlot)
  jobs : List CipherJob
  nodeCtr : List (Nat × Nat)
  useSeq : Nat
  bound : List (Nat × Nat)
  held : List HeldItem
  dest : List DestWrite
  gap : Nat
  deriving DecidableEq, Repr

/-- A command of the public-key unit (12 R482): its door code, ticket and descriptor. -/
structure PkJob where
  id : Nat
  ticket : Nat
  code : Nat
  desc : List Byte
  deriving DecidableEq, Repr

/-- Device identity (12 R478 to R482): IDN.STATUS.STATE, CERT_LEN, how many key pairs have been generated, whether the
DRBG runs, public-key commands in order, and the fuses of the locks, three bits each from TEST_LOCK up (12 R483). -/
structure IdentUnit where
  state : Nat
  certLen : Nat
  keyIndex : Nat
  rngOk : Bool
  jobs : List PkJob
  fuses : BitVec 12
  deriving DecidableEq, Repr

/-- Whether a lock's three fuse bits read blown: two of them are (12 R483). -/
def fuseBlown (fuses : BitVec 12) (lock : Nat) : Bool :=
  let bit := fun (i : Nat) => fuses.getLsbD (3 * lock + i)
  (bit 0 && bit 1) || (bit 0 && bit 2) || (bit 1 && bit 2)

/-- The locks as NVL.FUSE_STATUS shows them (12 R484). -/
def IdentUnit.locks (i : IdentUnit) : BitVec 4 :=
  (List.range 4).foldl (fun w k => if fuseBlown i.fuses k then w ||| BitVec.ofNat 4 (2 ^ k) else w) 0#4

/-! ## The trellis decoder (01 R35 to R43) -/

/-- What a reception has latched (10 R400, R401, R406): the receiver chosen, its level, offset, sync word and its errors,
VLR.USEC at the sync, the channel, the provisional length, VLR.USEC at the detection, and whether it is a meter frame's. -/
structure Reception where
  portB : Bool
  level : Byte
  foffset : BitVec 16
  word1 : Bool
  errors : Nat
  syncUs : Nat
  channel : Nat
  length : Option Nat
  atUs : Nat
  meter : Bool
  deriving DecidableEq, Repr

/-- A captured packet on its way through the decoder: its reception, the frame bytes it decodes to, the coded bits that
differ from the re-encoded frame, the coded bits captured, its RATE code, and VLR.USEC at the end of the last coded
bit. -/
structure CapturedFrame where
  rx : Reception
  bytes : List Byte
  corr : Nat
  coded : Nat
  rate : Nat
  endUs : Nat
  deriving DecidableEq, Repr

/-- A decoder request (01 R35 to R42): the mason that submitted it, decoded bits left, the class it is served in, the
instant it was submitted, the bits of the whole request, and the valve frame it carries. -/
structure DecodeReq where
  mason : Nat
  left : Nat
  urgent : Bool
  submitted : Nat
  bits : Nat
  frame : Option CapturedFrame
  deriving DecidableEq, Repr

/-- The decoder: requests of both classes in order of submission, the class of the unit running, and the urgent units of
the last 2 ms, as (start instant, time in 25 ns). -/
structure DecoderUnit where
  urgent : List DecodeReq
  normal : List DecodeReq
  running : Option Bool
  share : List (Nat × Nat)
  deriving DecidableEq, Repr

/-! ## The valve link radio (10) and link (11) -/

/-- What a transmission carries: an outbound slot's frame, an acknowledgement (with the slot whose data it carries), or
a test carrier of a door command. -/
inductive TxKind where
  | slot (slot : Nat)
  | ack (hold : Option Nat)
  | carrier (id : Nat)
  deriving DecidableEq, Repr

/-- A transmission (10 R409): its channel and bytes, airtime, VLR.USEC at its start and step 3 instants and at the start of
its ramp-up, its sub-band, whether the ramp has started, CAPPED, coexistence priority, the code it will end with, the level on
the air in 0.5 dB steps, VLR.USEC at the start of its ramp-down, and whether a test carrier is MODULATED. -/
structure Transmission where
  kind : TxKind
  channel : Nat
  bytes : List Byte
  airtime : Nat
  pri : Bool
  reqUs : Nat
  step3Us : Nat
  startUs : Nat
  band : Nat
  ramped : Bool
  capped : Bool
  code : Nat
  level : Int
  downUs : Nat
  modulated : Bool
  deriving DecidableEq, Repr

/-- The VLR and VLM registers in force for the packet in hand (10 R392). -/
structure RadioConfig where
  ctrl : Word
  band : Word
  channel : Word
  pa : Word
  modulation : Word
  preamble : Word
  syncCfg : Word
  fec : Word
  detect : Word
  sync0 : Word
  sync1 : Word
  holdLimit : Word
  deriving DecidableEq, Repr

/-- What the amplifier sends between its ramps (10 R395, R396, R425): nothing, an unmodulated carrier, PN9 data, or the
symbols of a packet as deviations from the channel's centre in Hz. -/
inductive OnAir where
  | silent
  | carrier
  | pn9
  | symbols (deviations : List Int)
  deriving DecidableEq, Repr

/-- The radio beyond its registers: the configuration in force, the reception and the transmission in progress,
transmissions waiting, whether a calibration has succeeded since PD7 was switched on, consecutive failures, whether a
retry is due, coexistence levels as active, `now` when PD7 was switched on, what is on the air, `now` when the calibration
started or failed, and VLR.USEC when VSW began to turn to receive. -/
structure RadioUnit where
  cfg : RadioConfig
  rx : Option Reception
  tx : Option Transmission
  waiting : List Transmission
  calibrated : Bool
  calFails : Nat
  retryDue : Bool
  meterPortion : Bool
  coxReq : Bool
  coxGnt : Bool
  coxPri : Bool
  onNow : Nat
  onAir : OnAir
  calNow : Nat
  turnUs : Nat
  deriving DecidableEq, Repr

/-- An outbound slot (11 R434 to R439): STATE, attempts, result, ticket, door command, order of acceptance, descriptor and
payload, the sealed frame, whether it is to end CANCELLED, and `now` when it was accepted and when it last failed. -/
structure OutSlot where
  state : Nat
  attempts : Nat
  result : Nat
  ticket : Nat
  id : Nat
  order : Nat
  desc : List Byte
  payload : List Byte
  sealed : Option (List Byte)
  cancelled : Bool
  acceptedNow : Nat
  failedNow : Nat
  deriving DecidableEq, Repr

/-- An entry of the duplicate cache (11 R442). -/
structure DupEntry where
  src : Nat
  seq : Nat
  counter : Nat
  deriving DecidableEq, Repr

/-- An acknowledgement that is pending (11 R440, R441): the node, the SEQ it names, the channel, its start instant on
VLR.USEC, whether it may carry data, and whether its start instant has come while it waits. -/
structure AckDue where
  node : Nat
  seq : Nat
  channel : Nat
  dueUs : Nat
  data : Bool
  started : Bool
  deriving DecidableEq, Repr

/-- An acknowledgement awaited (11 R437, R438): the slot, its node, the SEQ it must name, and `now` when the wait began. -/
structure AckAwait where
  slot : Nat
  node : Nat
  seq : Nat
  since : Nat
  deriving DecidableEq, Repr

/-- The link: outbound slots, their order, the duplicate cache oldest first, frames decoded and not yet handled, the
acknowledgement pending and the one awaited, an attempt waiting for a mirrored mark (16 R592), `now` when the write that
set EN applied, and `now` at the last slot boundary of the series that began there. -/
structure LinkUnit where
  slots : List OutSlot
  order : Nat
  dup : List DupEntry
  inbox : List CapturedFrame
  acks : List AckDue
  await : Option AckAwait
  markWait : Option Nat
  activeNow : Option Nat
  boundaryNow : Int
  deriving DecidableEq, Repr
/-! ## The masons and the memory port (13, 02 R84 to R97) -/

/-- MSn.STATUS.STATE (13 R522). -/
inductive MasonState where
  | reset | loading | noImage | running | waiting | halted | stopped
  deriving DecidableEq, Repr

/-- A product on its way to MLO and MHI: the mason cycle in which an instruction first sees it (13 R510). -/
structure Product where
  due : Nat
  lo : Word
  hi : Word
  deriving DecidableEq, Repr

/-- What an instruction in progress waits for: a frame on MSEL1_N (its function, its operand words, its result words,
whether the frame is on the port; 02 R94, R96), the reply of a TCOMMIT of an identifier with its tag (13 R517), or a
verdict before either, with whether a verdict it waits for has failed (12 R476), or, in CKSUM and CKCOPY, a word load
that is held, with the CRC over the bytes done. -/
inductive MasonStall where
  | frame (f : Fin 32) (operands : List Word) (results : Nat) (onPort : Bool)
  | commit (t : Fin 8) (tag : BitVec 16)
  | heldFrame (f : Fin 32) (operands : List Word) (results : Nat) (failed : Bool)
  | heldCommit (t : Fin 8) (tag : BitVec 16) (cond : Byte) (failed : Bool)
  | check (crc : Word) (done : Nat)
  deriving DecidableEq, Repr

/-- A mason (13 R499, R500, R522). `stack` and `rstack` keep 16 and 32 words from the bottom up, of which `depth` and
`rdepth` are in use; a link entry of `rstack` holds its address in bits 13..0 and its mask in bits 21..14. `ls`, `le`,
`lc` are the four loop levels, `ld` the active ones, `lbase` those of a trap or event handler's caller, kept in `tlb`
and `elb` while the handler runs (R518). `rep` counts the repetitions left of the instruction at `pc`, `repFirst` says
that none is done, `repHeld` that a halt fell before the first (R523). `cycle` counts mason cycles, `traps` is
TRAP.COUNT and `tpcLast` TRAP.TPC. `prog` lists program words that differ from the filler (R521); `latch` is mason 4's
output latch (R498); `version` and `resetHeld` are the fields of CTRL; `haltIds`, `stepId` with `stepLeft`, and
`reloadIds` are door commands in progress; `doubles` are the
instants of double traps of masons 1 to 3 (17 R620). -/
structure MasonUnit where
  state : MasonState
  haltWhy : Nat
  tact : Bool
  eact : Bool
  stack : List Word
  depth : Nat
  rstack : List Word
  rdepth : Nat
  pts : List Word
  pc : Nat
  ls : List Nat
  le : List Nat
  lc : List Word
  ld : Nat
  lbase : Nat
  tlb : Nat
  elb : Nat
  mlo : Word
  mhi : Word
  products : List Product
  crcSel : Nat
  rleft : Word
  ectrl : Bool
  tcause : Nat
  tpc : Nat
  epc : Nat
  cycle : Nat
  traps : Nat
  tpcLast : Nat
  bits : BitVec 1024
  latch : BitVec 12
  prog : List (Nat × BitVec 14)
  dram : Memory
  rep : Nat
  repFirst : Bool
  repHeld : Bool
  skipBp : Bool
  stall : Option MasonStall
  version : BitVec 16
  resetHeld : Bool
  haltIds : List Nat
  stepId : Option Nat
  stepLeft : Nat
  reloadIds : List Nat
  doubles : List Nat
  deriving DecidableEq, Repr

/-- A flash door command in progress (02 R90 to R92): its command, descriptor and kind, whether its first frame, of 8
cycles with every lane high, is still to come, whether a frame of it is due, and on MSEL0_N, and `now` at its door write
and at the end of its last frame. -/
structure FlashJob where
  id : Nat
  poll : Bool
  desc : List Byte
  first : Bool
  due : Bool
  onPort : Bool
  since : Nat
  lastEnd : Nat
  deriving DecidableEq, Repr

/-- The memory port (02 R85 to R97): the lines of the prefetch buffer, most recently used first, the line being filled
with whether a miss asked for it, whether that fill is on MSEL0_N, misses waiting, whether the next window access sends its
command phase, the flash door command, sends of mason 4 without result words that wait for MSEL1_N (function and operands)
and the one on it, `now` when the frame on MSEL1_N began, and the bytes sent at the head of the last frame. -/
structure PortUnit where
  lines : List (Nat × List Byte)
  fill : Option (Nat × Bool)
  fillOn : Bool
  misses : List Nat
  commandDue : Bool
  flash : Option FlashJob
  sends : List (Fin 32 × List Word)
  sending : Option (Fin 32 × List Word)
  copNow : Nat
  head : List Byte
  deriving DecidableEq, Repr

/-! ## Timers and check-value units (14) -/

/-- What the timers hold beyond their registers (14 R527, R532, R537): edges counted since the last capture, the accepted
level of the capture input and how many samples in a row have differed from it, `now` when the prescaler restarted and the
ticks since, and HI_SNAP and LO_SNAP by requester set and timer. -/
structure TimerUnit where
  edges : List Nat
  accepted : List (Option Bool)
  differing : List Nat
  base : List Nat
  ticks : List Nat
  snaps : List (Nat × Word)
  deriving DecidableEq, Repr

/-! ## NVL and ITG (17, 18) -/

/-- An MRAM_WRITE or MRAM_READ in progress (18 R633): its command, direction, next MRAM and Mortar address and bytes
left. -/
structure NvlCopy where
  id : Nat
  write : Bool
  dst : Nat
  src : Nat
  left : Nat
  deriving DecidableEq, Repr

/-- The NVL page beyond its registers: copies in order of acceptance, and each BLOW in progress with its lock (12 R484). -/
structure NvlUnit where
  copies : List NvlCopy
  blows : List (Nat × Nat)
  deriving DecidableEq, Repr

/-- What the scrubber and telemetry have done (17 R611, R617, R621): `now` at the last word scrubbed in bank 0, bank 1 and
MRAM and when the MRAM sweep began, the 100 ms of CLK.MONO for which a telemetry record was written last, and since when each
sensor has read 130 °C or more. -/
structure Background where
  scrubAt0 : Option Nat
  scrubAt1 : Option Nat
  scrubAtMram : Option Nat
  sweepAt : Option Nat
  telemTick : Nat
  hotAt : List (Option Nat)
  deriving DecidableEq, Repr

/-- The state of the block. -/
structure State where
  /-- the commands waiting, first in first out -/
  pending : List Instr
  /-- carrier cycles since State.reset -/
  now : Nat
  /-- index of the next free value (the model's own field, notes/assumptions/3.md) -/
  freeIndex : Nat
  phase : Phase
  boot : BootState
  /-- registers that differ from their reset value, by index, rising -/
  regs : List (Nat × Word)
  /-- captured RS values, by requester set times 65,536 plus index -/
  snaps : List (Nat × Word)
  /-- SNAP_CTRL by page times 4 plus set -/
  snapCtl : List (Nat × SnapCtl)
  doors : Doors
  queues : List (Nat × RQueue)
  txn : TxnUnit
  mem : Mem
  host : HostPort
  power : Power
  bootUnit : Boot
  rtc : Rtc
  clocks : Clocks
  fld : FieldUnit
  frx : ReceiveUnit
  nfc : NfcUnit
  card : CardUnit
  bcast : BcastUnit
  twin : TwinUnit
  cascade : CascadeUnit
  cipher : CipherUnit
  ident : IdentUnit
  decoder : DecoderUnit
  radio : RadioUnit
  link : LinkUnit
  masons : List MasonUnit
  port : PortUnit
  timers : TimerUnit
  checks : List Bool
  nvl : NvlUnit
  /-- the six counters of ITG 0x20 to 0x25 at the last telemetry record (17 R617) -/
  telemPrev : List Word
  work : Background
  deriving DecidableEq, Repr

/-- An identifier that is FREE (04 R148). -/
def Txn.free : Txn :=
  { phase := .free, requester := .host, doom := 0, tag := 0, cond := 0, regs := [], guards := [], doors := [],
    mortar := [], jobPage := 0, guardIndex := 0, guardMask := 0xFFFFFFFF#32, openedAt := 0, limitMs := 100, serial := 0,
    preparedAt := 0, met := false, froze := false }

/-- A result queue that has had no entry since reset. -/
def RQueue.empty : RQueue := { entries := [], high := 0, nextSeq := 0, reserved := 0 }

/-- No door write since reset (03 R137). -/
def Doors.empty : Doors :=
  { views := [], recs := [], running := [], nextId := 1, tickets := [], tests := [], results := [] }

/-- The pattern engine after PD3 is switched on: ashlar 0 as the reset values of PAT give it (05 R202). -/
def FieldUnit.reset : FieldUnit :=
  { sel := 0, selSource := 1, changeDue := false, rewriteDue := false,
    driven := [0x80000000#32, 0x800003FF#32, 0#32, 0#32, 0#32, 0#32, 0#32, 0#32, 0#32, 0#32, 0#32, 0#32, 0#32],
    jobHold := false, offMinDone := true, survey := [], surveyFull := false, surveyValid := false, reference := [],
    last := [], surveyAt := 0, solves := [], cycleOff := 0, switchId := none, load := none, since := 0, repaired := [],
    repairSurvey := [], switched := 0, stepDue := none, pauses := [], beforePause := none, limitAt := 0,
    limitDue := none }

/-- The receive side after PD4 is switched on (06 R278). -/
def ReceiveUnit.reset : ReceiveUnit :=
  { replies := 0, windowOpen := false, reply := none, gainDue := [], capture := none,
    trimAt := List.replicate 8 none }

/-- The contactless side after PD4 is switched on (07 R319). -/
def NfcUnit.reset : NfcUnit := { table := [], run := none, keep := false, keepAt := 0, block := false, late := [] }

/-- Card detection at reset. -/
def CardUnit.reset : CardUnit :=
  { learn := 4, base := List.replicate 8 (0, 0), overs := 0, hold := false, under := 0, above := false, probeLearn := 4,
    probeBase := List.replicate 8 0, probeOver := 0, probeLeft := 0#8, probeHit := 0#8, probeDelta := 0, relearn := [],
    scanAt := none, probeAt := none }
/-- Nothing is known of an ensemble. -/
def DabInfo.empty : DabInfo :=
  { eid := 0, cifHigh := 0, cifLow := 0, subs := [], services := [], packets := [], freqs := [], others := [] }

/-- A path after PD6 is switched on. -/
def BcastPath.reset : BcastPath :=
  { dab := DabInfo.empty, jobs := [], aids := [], checks := 0, gain := 0, gainAt := 0, rfReduced := false, width := 0,
    widthAt := 0, markNow := 0, lowSince := none, homeScore := 0, idents := [] }

/-- The Broadcast island after PD6 is switched on (08 R357, 09 R388); the format bits are those of AUD.CTRL's reset. -/
def BcastUnit.reset : BcastUnit :=
  { paths := List.replicate 4 BcastPath.reset, aux := List.replicate 12 0, better := [], verifying := none, visit := 0,
    checkNow := 0, verifyNow := 0, barred := [], fadeUntil := 0, reportsNow := 0, swap := none,
    noSwap := [], swapMarks := [], audio := 0x04000000#32, delayNow := 0, dataGap := false, subGap := false, outcomeGap := false,
    segments := [], ready := [], votes := [], closed := [], reports := [], lto := [],
    view := { outcome := 0, agree := 0, dissent := 0, classes := 0, lto := 0, correction := 0, confirmedAt := none,
              half := 0 }, onNow := 0 }

/-- A port with nothing passed. -/
def LinkLine.reset : LinkLine := { ready := false, addressed := false, lanes := [], rx := [] }

/-- No pairing. -/
def TwinUnit.reset : TwinUnit :=
  { outCtr := 0, inCtr := 0, out := [], held := [], myRandom := [], peerRandom := [], peerKey := [], becoming := 0,
    step := 0, auto := false, confirmUntil := 0, bulkDue := false, bulkCtr := none,
    steppedDown := false, unsynced := false, line := LinkLine.reset, queue := [], beatNow := 0 }

/-- No cascade. -/
def CascadeUnit.reset : CascadeUnit :=
  { late := false, due := [], frameTurn := false, surveyTurn := false, probed := [], answered := false, missed := [0, 0, 0], latched := none, aligning := false, blocks := [],
    reports := List.replicate 3 (0, false, false, 0#8), line := LinkLine.reset, probedAt := [none, none, none, none],
    alignedAt := none, heardNow := 0 }

/-- The Security island after PD2 is switched on: every slot EMPTY (12 R485). -/
def CipherUnit.reset : CipherUnit :=
  { slots := List.replicate 32 none, jobs := [], nodeCtr := [], useSeq := 0, bound := [], held := [], dest := [],
    gap := 0 }

/-- The identity of a shipped device (19 R656): certified, TEST_LOCK blown, the other fuses intact. -/
def IdentUnit.reset : IdentUnit :=
  { state := 3, certLen := 480, keyIndex := 0, rngOk := false, jobs := [], fuses := 7#12 }
/-- The decoder with no request. -/
def DecoderUnit.reset : DecoderUnit := { urgent := [], normal := [], running := none, share := [] }

/-- The reset values of the radio registers (10). -/
def RadioConfig.reset : RadioConfig :=
  { ctrl := 0x30000000#32, band := 0x1083B2D8#32, channel := 0#32, pa := 0x0F0F001C#32, modulation := 0#32,
    preamble := 0x40#32, syncCfg := 0x0200C200#32, fec := 4#32, detect := 0xA0002410#32,
    sync0 := 0xD3915A6C#32, sync1 := 0#32, holdLimit := 0x1F4#32 }

/-- The radio after PD7 is switched on (10 R422). -/
def RadioUnit.reset : RadioUnit :=
  { cfg := RadioConfig.reset, rx := none, tx := none, waiting := [], calibrated := false, calFails := 0,
    retryDue := false, meterPortion := false, coxReq := false, coxGnt := false, coxPri := false, onNow := 0,
    onAir := .silent, calNow := 0, turnUs := 0 }

/-- A FREE slot. -/
def OutSlot.free : OutSlot :=
  { state := 0, attempts := 0, result := 0, ticket := 0, id := 0, order := 0, desc := [], payload := [], sealed := none,
    cancelled := false, acceptedNow := 0, failedNow := 0 }

/-- The link after PD7 is switched on (11 R455). -/
def LinkUnit.reset : LinkUnit :=
  { slots := List.replicate 32 OutSlot.free, order := 0, dup := [], inbox := [], acks := [], await := none,
    markWait := none, activeNow := none, boundaryNow := 0 }
/-- A mason after its domain is switched on (13 R499, R526): nothing loaded. -/
def MasonUnit.reset : MasonUnit :=
  { state := .reset, haltWhy := 0, tact := false, eact := false, stack := List.replicate 16 0#32, depth := 0,
    rstack := List.replicate 32 0#32, rdepth := 0, pts := List.replicate 8 0#32, pc := 0, ls := List.replicate 4 0,
    le := List.replicate 4 0, lc := List.replicate 4 0#32, ld := 0, lbase := 0, tlb := 0, elb := 0, mlo := 0#32,
    mhi := 0#32, products := [], crcSel := 0, rleft := 0#32, ectrl := false, tcause := 0, tpc := 0, epc := 0,
    cycle := 0, traps := 0, tpcLast := 0, bits := 0#1024, latch := 0#12, prog := [], dram := [], rep := 0,
    repFirst := false, repHeld := false, skipBp := false, stall := none, version := 0#16, resetHeld := false,
    haltIds := [], stepId := none, stepLeft := 0, reloadIds := [], doubles := [] }

/-- The memory port with its buffer empty. -/
def PortUnit.reset : PortUnit :=
  { lines := [], fill := none, fillOn := false, misses := [], commandDue := true, flash := none, sends := [],
    sending := none, copNow := 0, head := [] }
/-- Timers that have counted no edge. -/
def TimerUnit.reset : TimerUnit :=
  { edges := List.replicate 16 0, accepted := List.replicate 16 none, differing := List.replicate 16 0,
    base := List.replicate 16 0, ticks := List.replicate 16 0, snaps := [] }
/-- No NVL command in progress. -/
def NvlUnit.reset : NvlUnit := { copies := [], blows := [] }

/-- The machine right after reset: nothing booted yet, PD0 and PD1 powered, every register at its reset value. -/
def State.reset : State :=
  { pending := [], now := 0, freeIndex := 0, phase := .inReset, boot := .startUp, regs := [], snaps := [],
    snapCtl := [], doors := Doors.empty, queues := [],
    txn := { ids := List.replicate 8 Txn.free, records := [], held := [], nextSerial := 0 },
    mem := { mortar := [], mram := [], poison := [], mramPoison := [], symErr := [], bank0Busy := true,
             bank1Busy := true, scrub0 := 0, scrub1 := 0, scrubMram := 0, waits := [] },
    host := { lanes := 0x800#32, held := none, heldNow := 0, reply := none },
    power := { on := 3#10, req := 3#10, draining := 0#10, starting := 0#10, startedAt := 0, jobs := [], stopIds := [], stoppedAt := 0, supplyLow := false, drainAt := 0, stopNow := 0 },
    bootUnit := { cause := 1, bootFails := 0, image := 0, recovery := 0, rejects := 0, boot0 := false, idGen := false, startDoneIds := [], holdReset := false, fwIndex := 0 },
    rtc := { base := 0, baseNow := 0, trim := 0, slew := 0, valid := false, lost := true, alarmFired := false, monoNow := 0, lfOk := true, alarmNow := 0, trimAt := 0 },
    clocks := { plumb := .off, bypass := false, lockUs := 0, acqNow := 0, islands := 2#8 },
    fld := FieldUnit.reset,
    frx := ReceiveUnit.reset,
    nfc := NfcUnit.reset,
    card := CardUnit.reset,
    bcast := BcastUnit.reset,
    twin := TwinUnit.reset,
    cascade := CascadeUnit.reset,
    cipher := CipherUnit.reset,
    ident := IdentUnit.reset,
    decoder := DecoderUnit.reset,
    radio := RadioUnit.reset,
    link := LinkUnit.reset,
    masons := List.replicate 5 MasonUnit.reset,
    port := PortUnit.reset,
    timers := TimerUnit.reset,
    checks := List.replicate 4 false,
    nvl := NvlUnit.reset,
    telemPrev := List.replicate 6 0#32,
    work := { scrubAt0 := none, scrubAt1 := none, scrubAtMram := none, sweepAt := none, telemTick := 0,
              hotAt := List.replicate 6 none } }

end Sys2Proof.Machine
end

