-- ==== Sys2Proof/Machine/DabFic.lean ====
section
/-!
DEFINITION. Sys2Proof/Machine/DabFic.lean: the fast information channel and packet mode of DAB (08 R342, 09 R364 to R369,
R380). The rules name the groups FIG 0/0 to 0/10; their layout, the frequency information and the packets are those of
ETSI EN 300 401 (notes/assumptions/58.md).
-/
namespace Sys2Proof.Machine

/-- One byte of CRC-16 with polynomial 0x1021. -/
def crc16Bits (n : Nat) (c : BitVec 16) : BitVec 16 :=
  match n with
  | 0 => c
  | k + 1 => crc16Bits k (if c.getLsbD 15 then (c <<< 1) ^^^ 0x1021#16 else c <<< 1)

/-- CRC-16/CCITT-FALSE of a byte string: initial value 0xFFFF (09 R373). -/
def crc16 (bs : List Byte) : BitVec 16 :=
  bs.foldl (fun c b => crc16Bits 8 (c ^^^ BitVec.ofNat 16 (b.toNat * 256))) 0xFFFF#16

/-- Whether the last two bytes of a string are the complement of the CRC-16 of those before. -/
def crcEnds (bs : List Byte) : Bool :=
  2 ≤ bs.length && (~~~(crc16 (bs.take (bs.length - 2)))).toNat == beNat (bs.drop (bs.length - 2))

/-- Byte `i` of a string as a number. -/
def octet (bs : List Byte) (i : Nat) : Nat := (bs.getD i 0#8).toNat

/-- Bits `msb..lsb` of a number. -/
def natBits (v msb lsb : Nat) : Nat := v / 2 ^ lsb % 2 ^ (msb + 1 - lsb)

/-- The fast information groups of a block: type and body, up to the end marker. -/
def figsOf (fuel : Nat) (bs : List Byte) : List (Nat × List Byte) :=
  match fuel, bs with
  | f + 1, h :: t =>
    if h = 0xFF#8 then []
    else (h.toNat / 32, t.take (h.toNat % 32)) :: figsOf f (t.drop (h.toNat % 32))
  | _, _ => []

/-- The rates of the short form of FIG 0/1 by index, in 8 kbit/s: each rate with the number of its protection levels. -/
def shortRates : List Nat :=
  [(4, 5), (6, 5), (7, 4), (8, 5), (10, 5), (12, 5), (14, 4), (16, 5), (20, 5), (24, 5), (28, 5), (32, 5), (40, 3),
   (48, 3)].flatMap (fun r => List.replicate r.2 r.1)

/-- The rate of the long form, in 8 kbit/s, by option, protection level and size in capacity units. -/
def longRate (option level size : Nat) : Nat :=
  if option = 0 then size / [12, 8, 6, 4].getD level 1
  else if option = 1 then 4 * (size / [27, 21, 18, 15].getD level 1)
  else 0

/-- FIG 0/1: subchannels with their rates. -/
def figSubchannels (fuel : Nat) (bs : List Byte) (d : DabInfo) : DabInfo :=
  match fuel with
  | 0 => d
  | f + 1 =>
    if bs.length < 3 then d
    else
      let subch := octet bs 0 / 4
      let set := fun (rate : Nat) => { d with subs := keySet d.subs subch rate }
      if octet bs 2 < 128 then figSubchannels f (bs.drop 3) (set (shortRates.getD (octet bs 2 % 64) 0))
      else
        let v := beNat ((bs.drop 2).take 2)
        figSubchannels f (bs.drop 4) (set (longRate (natBits v 14 12) (natBits v 11 10) (natBits v 9 0)))

/-- FIG 0/2: services with their components, as transport mechanism and subchannel or SCId. -/
def figServices (fuel wide : Nat) (bs : List Byte) (d : DabInfo) : DabInfo :=
  match fuel with
  | 0 => d
  | f + 1 =>
    if bs.length ≤ wide then d
    else
      let n := octet bs wide % 16
      let comps := (List.range n).map (fun k =>
        let v := beNat ((bs.drop (wide + 1 + 2 * k)).take 2)
        (v / 16384, if v / 16384 = 3 then natBits v 13 2 else natBits v 7 2))
      figServices f wide (bs.drop (wide + 1 + 2 * n)) { d with services := keySet d.services (beNat (bs.take wide)) comps }

/-- FIG 0/3: packet components with their subchannel and address. -/
def figPackets (fuel : Nat) (bs : List Byte) (d : DabInfo) : DabInfo :=
  match fuel with
  | 0 => d
  | f + 1 =>
    if bs.length < 5 then d
    else
      let v := beNat (bs.take 2)
      let at_ := beNat ((bs.drop 3).take 2)
      figPackets f (bs.drop (if v % 2 = 1 then 7 else 5))
        { d with packets := keySet d.packets (v / 16) (at_ / 1024, at_ % 1024) }

/-- The frequency lists of one entry of FIG 0/21: ensembles with their frequencies in 100 Hz. -/
def figFrequencyLists (fuel : Nat) (bs : List Byte) (d : DabInfo) : DabInfo :=
  match fuel with
  | 0 => d
  | f + 1 =>
    if bs.length < 3 then d
    else
      let n := octet bs 2 % 8
      let freqs := (List.range (n / 3)).map (fun k => beNat ((bs.drop (3 + 3 * k)).take 3) % 2 ^ 19 * 160)
      let d' := if octet bs 2 / 16 = 0 then { d with freqs := keySet d.freqs (beNat (bs.take 2)) freqs } else d
      figFrequencyLists f (bs.drop (3 + n)) d'

/-- FIG 0/21. -/
def figFrequencies (fuel : Nat) (bs : List Byte) (d : DabInfo) : DabInfo :=
  match fuel with
  | 0 => d
  | f + 1 =>
    if bs.length < 2 then d
    else
      let n := octet bs 1 % 32
      figFrequencies f (bs.drop (2 + n)) (figFrequencyLists 30 ((bs.drop 2).take n) d)

/-- FIG 0/24: the other ensembles that carry a service. -/
def figOthers (fuel wide : Nat) (bs : List Byte) (d : DabInfo) : DabInfo :=
  match fuel with
  | 0 => d
  | f + 1 =>
    if bs.length ≤ wide then d
    else
      let n := octet bs wide % 16
      let eids := (List.range n).map (fun k => beNat ((bs.drop (wide + 1 + 2 * k)).take 2))
      figOthers f wide (bs.drop (wide + 1 + 2 * n)) { d with others := keySet d.others (beNat (bs.take wide)) eids }

/-- What one group of type 0 adds; a group of the next configuration is left alone. -/
def figZero (body : List Byte) (d : DabInfo) : DabInfo :=
  let h := octet body 0
  let bs := body.drop 1
  let wide := if h.testBit 5 then 4 else 2
  if h.testBit 7 then d
  else match h % 32 with
  | 0 => { d with eid := beNat (bs.take 2), cifHigh := octet bs 2 % 32, cifLow := octet bs 3 }
  | 1 => figSubchannels 30 bs d
  | 2 => if h.testBit 6 then d else figServices 30 wide bs d
  | 3 => figPackets 30 bs d
  | 21 => figFrequencies 30 bs d
  | 24 => figOthers 30 wide bs d
  | _ => d

/-- What a good FIB adds to what a path knows of its ensemble. -/
def ficLearn (bytes : List Byte) (d : DabInfo) : DabInfo :=
  (figsOf 30 bytes).foldl (fun e g => if g.1 = 0 then figZero g.2 e else e) d

/-- The body of the first group of type 0 with an extension. -/
def figBody (ext : Nat) (bytes : List Byte) : Option (List Byte) :=
  ((figsOf 30 bytes).find? (fun g => g.1 == 0 && octet g.2 0 % 32 == ext && !((octet g.2 0).testBit 7))).map
    (fun g => g.2.drop 1)

/-- The local offset of FIG 0/9, in 30 min. -/
def ficOffset (bytes : List Byte) : Option Nat :=
  (figBody 9 bytes).map (fun bs => localOffset ((octet bs 0).testBit 5) (octet bs 0 % 32))

/-- The UTC of FIG 0/10 in ms since 2000-01-01, and whether it is in the long form (09 R380). -/
def ficTime (bytes : List Byte) : Option (Nat × Bool) :=
  match figBody 10 bytes with
  | none => none
  | some bs =>
    let v := beNat (bs.take 4)
    let long := v.testBit 11
    let w := beNat ((bs.drop 4).take 2)
    (mjdSeconds (natBits v 30 14) (natBits v 10 6) (natBits v 5 0) (if long then w / 1024 else 0)).map (fun t =>
      (t * 1000 + (if long then w % 1024 else 0), long))

/-- The frequencies at which the frequency and other-ensemble information names a service (08 R342): those of the path's own
ensemble and of the others that carry it. -/
def ficAlternatives (d : DabInfo) (service : Nat) : List Nat :=
  (d.eid :: keyGet d.others service []).flatMap (fun e => keyGet d.freqs e [])

/-- What a selection resolves to: its subchannel and rate (09 R366). An audio selection names component number `component`
of the service, in the order of FIG 0/2; a packet selection the service component SCId. -/
def ficResolve (d : DabInfo) (service : Nat) (packet : Bool) (component : Nat) : Option (Nat × Nat) :=
  let withRate := fun (subch : Nat) => (keyFind d.subs subch).map (fun r => (subch, r))
  if packet then (keyFind d.packets component).bind (fun p => withRate p.1)
  else match (keyGet d.services service [])[component]? with
    | some (0, subch) => withRate subch
    | _ => none

/-- Whether a service component SCId belongs to a service. -/
def ficBelongs (d : DabInfo) (service scid : Nat) : Bool := (keyGet d.services service []).contains (3, scid)

/-- The CIF counter of CIF `n` of the frame whose FIG 0/0 was last decoded: two counters modulo 20 and 250. -/
def cifCounter (d : DabInfo) (n : Nat) : Nat :=
  let low := d.cifLow + n
  (if 250 ≤ low then (d.cifHigh + 1) % 20 else d.cifHigh) * 256 + low % 250

/-! ## Packet mode (09 R369) -/

/-- The address of a packet. -/
def packetAddress (p : List Byte) : Nat := beNat (p.take 2) % 1024

/-- The useful data of a packet: none where its length or its CRC is wrong. -/
def packetData (p : List Byte) : Option (List Byte) :=
  let n := octet p 2 % 128
  if p.length = 24 * (octet p 0 / 64 + 1) ∧ crcEnds p = true ∧ n + 5 ≤ p.length then some ((p.drop 3).take n) else none

/-- Packets after the first of a data group: one address, rising continuity, `last` marked. -/
def packetsFollow (address continuity : Nat) (ps : List (List Byte)) : Bool :=
  match ps with
  | [] => true
  | p :: t =>
    packetAddress p == address && octet p 0 / 16 % 4 == continuity % 4
      && octet p 0 / 4 % 4 == (if t.isEmpty then 1 else 0) && packetsFollow address (continuity + 1) t

/-- The data group that packets carry: none where they are incomplete. -/
def packetsJoin (ps : List (List Byte)) : Option (List Byte) :=
  match ps with
  | [] => none
  | p :: t =>
    let datas := ps.map packetData
    if octet p 0 / 4 % 4 = (if t.isEmpty then 3 else 2)
        ∧ packetsFollow (packetAddress p) (octet p 0 / 16 % 4 + 1) t = true ∧ datas.all (·.isSome) = true
    then some (datas.flatMap (fun d => d.getD [])) else none

/-- The data field of an MSC data group: none where its CRC fails or it is cut short. -/
def groupField (g : List Byte) : Option (List Byte) :=
  let h := octet g 0
  let crc := h.testBit 6
  let n1 := 2 + (if h.testBit 7 then 2 else 0) + (if h.testBit 5 then 2 else 0)
  let n2 := if h.testBit 4 then n1 + 1 + octet g n1 % 16 else n1
  let stop := if crc then g.length - 2 else g.length
  if g.length < 2 ∨ stop ≤ n2 ∨ (crc && !(crcEnds g)) = true then none else some ((g.drop n2).take (stop - n2))

/-- The data field that packets carry: none where the group is bad or incomplete (09 R369). -/
def dataField (ps : List (List Byte)) : Option (List Byte) := (packetsJoin ps).bind groupField

end Sys2Proof.Machine
end

