-- ==== Sys2Proof/Config.lean ====
section
/-!
DEFINITION. Sys2Proof/Config.lean: what the spec leaves open and the machine goes on with: free values. Each is a
constant with no body, applied to plain data (an index that the step advances, or the operands it depends on), so
that nothing can be proved about which value it is. notes/assumptions/3.md says where each is used. What each device
holds of its own, its keys, serial number and certificate, is a constant in the same way (notes/assumptions/15.md).
-/
namespace Sys2Proof.Config

/-- The i-th free word (see State.freeIndex). -/
opaque freeWord : Nat → Word

/-- The i-th free byte. -/
opaque freeByte : Nat → Byte

/-- The i-th free number, for a value of a width the user of it bounds. -/
opaque freeNat : Nat → Nat

/-- The noise power of a half-bit estimate in the square of its unit, less 1 (06 R252). -/
opaque estNoise : Nat

/-- Byte i of the identity anchor (12 R480): 256 bits blown from the random source, which never leave the device. -/
opaque anchorByte : Nat → Byte

/-- The private key of the i-th key pair the device has generated (12 R480). -/
opaque devicePriv : Nat → Nat

/-- The serial number (12 R480). -/
opaque serial : BitVec 64

/-- Byte i of the device certificate (12 R480). -/
opaque certByte : Nat → Byte

/-- The firmware program words of masons 0 to 3, and with number 4 those of the recovery package that mason 0 runs (13
R488, 18 R631): by the firmware region installed, mason and program address. The firmware is not specified (00 R3). -/
opaque firmwareWord : Nat → Nat → Nat → BitVec 14

/-- Where in its cycle SHARED listens to meters, in carrier cycles after the link scheduler became active (10 R421). -/
opaque meterPhase : Nat

/-- DEV.FW_VERSION by the firmware region installed (18 R633). -/
opaque firmwareVersion : Nat → Word

end Sys2Proof.Config
end

