-- ==== Sys2Proof/Machine/RegTable.lean ====
section
/-!
DEFINITION. Sys2Proof/Machine/RegTable.lean: the register tables of the spec as data. One row per register of a
page: its offset, how often it repeats and at which stride, and its fields with bits, access (00 R11), reset value
and allowed values (00 R13). The tables themselves stand in the chapters; each page's list names its rules.
-/
namespace Sys2Proof.Machine

/-- Access type of a field (00 R11); `rwh` is the "RW, halted" of the MS pages (13 R522). -/
inductive Acc where
  | rw | ro | rs | w1c | w1s | wo | rwl | rwh
  deriving DecidableEq, Repr

/-- One field: bits, access, reset value per index (the last one repeats), allowed ranges (none listed: every
value), the number its value must be a multiple of, and its snapshot group (03 R128). -/
structure FieldRow where
  msb : Nat
  lsb : Nat
  acc : Acc
  resets : List Nat
  allowed : List (Nat × Nat)
  mult : Nat
  group : Nat
  deriving DecidableEq, Repr

/-- One register template of a page (00 R9). -/
structure RegRow where
  off : Nat
  count : Nat
  stride : Nat
  fields : List FieldRow
  deriving DecidableEq, Repr

/-- A field row. -/
def fieldRow (msb lsb : Nat) (acc : Acc) (resets : List Nat) (allowed : List (Nat × Nat) := []) (mult : Nat := 1)
    (group : Nat := 0) : FieldRow := ⟨msb, lsb, acc, resets, allowed, mult, group⟩

/-- Registers of DEV (00 R1, 03 R111, 18 R634). -/
def rowsDev : List RegRow :=
  [⟨0x10, 1, 1, [fieldRow 31 0 .ro [0x8144]]⟩,
  ⟨0x11, 1, 1, [fieldRow 31 0 .ro [0xA01]]⟩,
  ⟨0x12, 1, 1, [fieldRow 31 28 .ro [0],
    fieldRow 27 27 .ro [0],
    fieldRow 26 25 .ro [0],
    fieldRow 24 23 .ro [0],
    fieldRow 22 20 .ro [0],
    fieldRow 19 18 .ro [0],
    fieldRow 12 0 .ro [0]]⟩,
  ⟨0x13, 1, 1, [fieldRow 20 0 .rw [0] [] 8]⟩,
  ⟨0x14, 1, 1, [fieldRow 31 0 .ro [0]]⟩]

/-- Registers of IRQ (03 R121, 03 R123). -/
def rowsIrq : List RegRow :=
  [⟨0x10, 6, 1, [fieldRow 31 0 .ro [0]]⟩,
  ⟨0x18, 3, 1, [fieldRow 31 31 .ro [1],
    fieldRow 7 0 .ro [0]]⟩,
  ⟨0x1C, 1, 1, [fieldRow 17 17 .rw [1],
    fieldRow 16 16 .rw [1],
    fieldRow 1 1 .rw [0],
    fieldRow 0 0 .rw [0]]⟩]

/-- Registers of TXN (04 R190). -/
def rowsTxn : List RegRow :=
  [⟨0x10, 1, 1, [fieldRow 13 0 .rw [0x64] [(1, 10000)]]⟩,
  ⟨0x11, 1, 1, [fieldRow 26 16 .ro [0x400],
    fieldRow 14 0 .ro [0x4000]]⟩,
  ⟨0x12, 1, 1, [fieldRow 7 0 .ro [0]]⟩,
  ⟨0x13, 1, 1, [fieldRow 3 0 .rw [1] [(0, 8)]]⟩,
  ⟨0x14, 1, 1, [fieldRow 31 0 .ro [0]]⟩,
  ⟨0x15, 1, 1, [fieldRow 31 0 .ro [0]]⟩,
  ⟨0x16, 1, 1, [fieldRow 7 0 .rw [0]]⟩,
  ⟨0x17, 1, 1, [fieldRow 31 0 .rw [0]]⟩,
  ⟨0x18, 1, 1, [fieldRow 15 0 .rw [0]]⟩,
  ⟨0x19, 1, 1, [fieldRow 31 0 .rw [0xFFFFFFFF]]⟩,
  ⟨0x1A, 1, 1, [fieldRow 31 0 .rw [0]]⟩,
  ⟨0x20, 8, 1, [fieldRow 31 28 .ro [0],
    fieldRow 27 24 .ro [0],
    fieldRow 23 16 .ro [0],
    fieldRow 15 0 .ro [0]]⟩,
  ⟨0x28, 8, 1, [fieldRow 31 28 .ro [0],
    fieldRow 24 12 .ro [0],
    fieldRow 8 0 .ro [0]]⟩,
  ⟨0x30, 8, 1, [fieldRow 31 24 .ro [0],
    fieldRow 23 16 .ro [0],
    fieldRow 15 0 .ro [0]]⟩]

/-- Registers of HPT (02 R60, 02 R74, 02 R76, 02 R78). -/
def rowsHpt : List RegRow :=
  [⟨0x10, 1, 1, [fieldRow 11 8 .rw [8],
    fieldRow 5 4 .rw [0] [(0, 2)],
    fieldRow 1 0 .rw [0] [(0, 2)]]⟩,
  ⟨0x11, 1, 1, [fieldRow 9 9 .w1c [0],
    fieldRow 8 8 .w1c [0],
    fieldRow 7 7 .w1c [0],
    fieldRow 6 6 .w1c [0],
    fieldRow 5 5 .w1c [0],
    fieldRow 4 4 .w1c [0],
    fieldRow 3 3 .w1c [0],
    fieldRow 2 2 .w1c [0],
    fieldRow 1 1 .w1c [0],
    fieldRow 0 0 .w1c [0]]⟩,
  ⟨0x12, 1, 1, [fieldRow 23 16 .ro [0],
    fieldRow 15 0 .ro [0]]⟩,
  ⟨0x13, 1, 1, [fieldRow 9 0 .rw [0x32] [(1, 1000)]]⟩]

/-- Registers of MPT (02 R85, 02 R93). -/
def rowsMpt : List RegRow :=
  [⟨0x10, 1, 1, [fieldRow 31 31 .rw [1],
    fieldRow 30 30 .rw [0],
    fieldRow 27 24 .rw [8],
    fieldRow 23 16 .rw [0x0B],
    fieldRow 13 8 .rw [4] [(1, 40)],
    fieldRow 3 0 .rw [4] [(4, 15)]]⟩,
  ⟨0x11, 1, 1, [fieldRow 9 0 .rw [0x0A] [(1, 1000)]]⟩,
  ⟨0x12, 1, 1, [fieldRow 31 31 .ro [0],
    fieldRow 7 0 .ro [0]]⟩,
  ⟨0x20, 32, 1, [fieldRow 6 4 .rw [0],
    fieldRow 2 0 .rw [0]]⟩]

/-- Registers of CLK (15 R559, 15 R560, 15 R563, 15 R566, 15 R567, 15 R568, 15 R569, 15 R570, 15 R581). -/
def rowsClk : List RegRow :=
  [⟨0x10, 1, 1, [fieldRow 31 31 .ro [1],
    fieldRow 30 30 .ro [1],
    fieldRow 29 29 .w1c [0],
    fieldRow 7 0 .ro [0]]⟩,
  ⟨0x11, 1, 1, [fieldRow 8 8 .rw [0],
    fieldRow 1 0 .rw [1] [(0, 2)]]⟩,
  ⟨0x12, 1, 1, [fieldRow 31 28 .ro [0],
    fieldRow 15 0 .ro [0]]⟩,
  ⟨0x14, 1, 1, [fieldRow 31 0 .rs [0] [] 1 1]⟩,
  ⟨0x15, 1, 1, [fieldRow 14 0 .rs [0] [] 1 1]⟩,
  ⟨0x16, 1, 1, [fieldRow 31 0 .rw [0]]⟩,
  ⟨0x17, 1, 1, [fieldRow 14 0 .rw [0]]⟩,
  ⟨0x18, 1, 1, [fieldRow 31 0 .rw [0]]⟩,
  ⟨0x19, 1, 1, [fieldRow 14 0 .rw [0]]⟩,
  ⟨0x1A, 1, 1, [fieldRow 31 31 .rw [0],
    fieldRow 30 30 .ro [0]]⟩,
  ⟨0x1B, 1, 1, [fieldRow 31 0 .ro [0]]⟩,
  ⟨0x1C, 1, 1, [fieldRow 31 0 .ro [0]]⟩,
  ⟨0x1D, 1, 1, [fieldRow 31 0 .ro [0]]⟩,
  ⟨0x20, 1, 1, [fieldRow 31 0 .rs [0] [] 1 1]⟩,
  ⟨0x21, 1, 1, [fieldRow 31 0 .rs [0] [] 1 1]⟩]

/-- Registers of PWR (15 R571, 15 R573, 15 R576, 15 R577, 15 R578, 15 R582). -/
def rowsPwr : List RegRow :=
  [⟨0x10, 1, 1, [fieldRow 29 20 .ro [0],
    fieldRow 19 10 .ro [3],
    fieldRow 9 0 .ro [3]]⟩,
  ⟨0x11, 1, 1, [fieldRow 9 0 .rw [0xC8] [(10, 1000)]]⟩,
  ⟨0x12, 1, 1, [fieldRow 4 4 .rw [1],
    fieldRow 3 0 .rw [9]]⟩,
  ⟨0x13, 1, 1, [fieldRow 31 31 .ro [0],
    fieldRow 3 0 .ro [0]]⟩,
  ⟨0x14, 1, 1, [fieldRow 0 0 .rw [0]]⟩,
  ⟨0x15, 1, 1, [fieldRow 31 24 .ro [0],
    fieldRow 23 16 .ro [0],
    fieldRow 15 8 .ro [0],
    fieldRow 0 0 .ro [0]]⟩,
  ⟨0x16, 1, 1, [fieldRow 31 0 .ro [0]]⟩,
  ⟨0x20, 1, 1, [fieldRow 31 0 .rs [0] [] 1 1]⟩,
  ⟨0x21, 1, 1, [fieldRow 31 0 .rs [0] [] 1 1]⟩,
  ⟨0x22, 1, 1, [fieldRow 31 0 .rs [0] [] 1 1]⟩]

/-- Registers of TMA (14 R540). -/
def rowsTmaOnly : List RegRow :=
  [⟨0x10, 1, 1, [fieldRow 15 0 .w1s [0]]⟩,
  ⟨0x11, 1, 1, [fieldRow 15 0 .w1s [0]]⟩]

/-- Registers of TMx (14 R532, 14 R533, 14 R541). -/
def rowsTm : List RegRow :=
  [⟨0x18, 8, 15, [fieldRow 31 31 .rw [0],
    fieldRow 30 30 .rw [0],
    fieldRow 29 29 .rw [0],
    fieldRow 28 28 .rw [0],
    fieldRow 19 16 .rw [0]]⟩,
  ⟨0x19, 8, 15, [fieldRow 15 0 .rw [0]]⟩,
  ⟨0x1A, 8, 15, [fieldRow 15 0 .rw [0xFFFF]]⟩,
  ⟨0x1B, 8, 15, [fieldRow 15 0 .rw [0]]⟩,
  ⟨0x1C, 8, 15, [fieldRow 15 0 .ro [0]]⟩,
  ⟨0x1D, 8, 15, [fieldRow 31 30 .rw [0] [(0, 2)],
    fieldRow 27 24 .rw [0] [(0, 11)],
    fieldRow 19 16 .rw [1] [(1, 15)],
    fieldRow 7 0 .rw [0]]⟩,
  ⟨0x1E, 8, 15, [fieldRow 31 31 .rw [0],
    fieldRow 30 30 .rw [0],
    fieldRow 27 24 .rw [0] [(0, 11)],
    fieldRow 3 2 .rw [0],
    fieldRow 1 0 .rw [0]]⟩,
  ⟨0x1F, 8, 15, [fieldRow 31 31 .ro [0],
    fieldRow 30 30 .ro [0],
    fieldRow 29 29 .w1c [0],
    fieldRow 28 28 .w1c [0]]⟩,
  ⟨0x20, 8, 15, [fieldRow 31 0 .rw [0]]⟩,
  ⟨0x21, 8, 15, [fieldRow 15 0 .ro [0]]⟩,
  ⟨0x22, 8, 15, [fieldRow 15 0 .ro [0]]⟩,
  ⟨0x23, 8, 15, [fieldRow 31 0 .rw [0xFFFFFFFF]]⟩,
  ⟨0x24, 8, 15, [fieldRow 31 0 .rw [0]]⟩,
  ⟨0x25, 8, 15, [fieldRow 31 0 .ro [0]]⟩]

/-- Registers of CHK (14 R550). -/
def rowsChk : List RegRow :=
  [⟨0x10, 1, 1, [fieldRow 3 0 .ro [0]]⟩,
  ⟨0x11, 1, 1, [fieldRow 0 0 .ro [1]]⟩,
  ⟨0x18, 4, 12, [fieldRow 31 31 .rw [0],
    fieldRow 30 30 .rw [0],
    fieldRow 29 29 .rw [0],
    fieldRow 28 27 .rw [0] [(0, 2)],
    fieldRow 26 24 .rw [0] [(0, 4)],
    fieldRow 2 0 .rw [0] [(0, 4)]]⟩,
  ⟨0x19, 4, 12, [fieldRow 31 0 .rwl [0x1021]]⟩,
  ⟨0x1A, 4, 12, [fieldRow 31 0 .rwl [0xFFFF]]⟩,
  ⟨0x1B, 4, 12, [fieldRow 31 0 .rwl [0]]⟩,
  ⟨0x1C, 4, 12, [fieldRow 7 7 .rwl [0],
    fieldRow 6 6 .rwl [0],
    fieldRow 5 0 .rwl [0x10] [(1, 32)]]⟩,
  ⟨0x1D, 4, 12, [fieldRow 31 0 .rw [0]]⟩,
  ⟨0x1E, 4, 12, [fieldRow 31 0 .ro [0]]⟩,
  ⟨0x1F, 4, 12, [fieldRow 31 0 .rw [0]]⟩,
  ⟨0x20, 4, 12, [fieldRow 31 0 .ro [0]]⟩,
  ⟨0x21, 4, 12, [fieldRow 31 0 .ro [0]]⟩,
  ⟨0x22, 4, 12, [fieldRow 31 31 .ro [0],
    fieldRow 30 30 .ro [0]]⟩]

/-- Registers of CPH (12 R465, 12 R472, 12 R473, 12 R485). -/
def rowsCph : List RegRow :=
  [⟨0x10, 1, 1, [fieldRow 20 16 .rw [4] [(0, 16)],
    fieldRow 4 0 .rw [8] [(1, 31)]]⟩,
  ⟨0x11, 1, 1, [fieldRow 20 16 .ro [0x10],
    fieldRow 15 0 .ro [0]]⟩,
  ⟨0x12, 1, 1, [fieldRow 31 0 .ro [0]]⟩,
  ⟨0x13, 1, 1, [fieldRow 31 16 .ro [0],
    fieldRow 15 0 .ro [0]]⟩,
  ⟨0x14, 1, 1, [fieldRow 31 16 .ro [0],
    fieldRow 6 0 .ro [0]]⟩,
  ⟨0x15, 1, 1, [fieldRow 9 0 .ro [0]]⟩,
  ⟨0x20, 32, 1, [fieldRow 31 30 .ro [0],
    fieldRow 29 28 .ro [0],
    fieldRow 27 27 .ro [0],
    fieldRow 22 16 .ro [0],
    fieldRow 14 6 .ro [0],
    fieldRow 5 0 .ro [0]]⟩,
  ⟨0x40, 32, 1, [fieldRow 31 0 .ro [0]]⟩,
  ⟨0x60, 1, 1, [fieldRow 31 0 .rs [0] [] 1 1]⟩,
  ⟨0x61, 1, 1, [fieldRow 31 0 .rs [0] [] 1 1]⟩,
  ⟨0x62, 1, 1, [fieldRow 31 0 .rs [0] [] 1 1]⟩,
  ⟨0x63, 1, 1, [fieldRow 31 0 .rs [0] [] 1 1]⟩]

/-- Registers of IDN (12 R480, 12 R482, 12 R483, 12 R487). -/
def rowsIdn : List RegRow :=
  [⟨0x10, 1, 1, [fieldRow 31 28 .ro [0],
    fieldRow 27 27 .ro [0],
    fieldRow 26 26 .ro [0],
    fieldRow 15 0 .ro [0]]⟩,
  ⟨0x11, 1, 1, [fieldRow 31 0 .ro [0]]⟩,
  ⟨0x12, 1, 1, [fieldRow 31 0 .ro [0]]⟩,
  ⟨0x18, 8, 1, [fieldRow 31 0 .ro [0]]⟩,
  ⟨0x20, 8, 1, [fieldRow 31 0 .ro [0]]⟩,
  ⟨0x30, 1, 1, [fieldRow 31 31 .ro [0],
    fieldRow 30 30 .ro [0],
    fieldRow 15 0 .ro [0]]⟩,
  ⟨0x31, 16, 1, [fieldRow 31 0 .ro [0]]⟩,
  ⟨0x41, 1, 1, [fieldRow 31 0 .wo [0]]⟩,
  ⟨0x48, 1, 1, [fieldRow 31 0 .rs [0] [] 1 1]⟩,
  ⟨0x49, 1, 1, [fieldRow 31 0 .rs [0] [] 1 1]⟩,
  ⟨0x4A, 1, 1, [fieldRow 31 0 .rs [0] [] 1 1]⟩,
  ⟨0x4B, 1, 1, [fieldRow 31 0 .rs [0] [] 1 1]⟩]

/-- Registers of NVL (12 R484, 18 R633). -/
def rowsNvl : List RegRow :=
  [⟨0x10, 1, 1, [fieldRow 3 0 .ro [0]]⟩,
  ⟨0x11, 1, 1, [fieldRow 31 0 .rw [0]]⟩,
  ⟨0x12, 1, 1, [fieldRow 20 0 .rw [0]]⟩,
  ⟨0x13, 1, 1, [fieldRow 20 0 .rw [0]]⟩,
  ⟨0x14, 1, 1, [fieldRow 16 0 .rw [0]]⟩,
  ⟨0x20, 8, 1, [fieldRow 31 0 .rwl [0]]⟩,
  ⟨0x28, 8, 1, [fieldRow 31 0 .rwl [0]]⟩]

/-- Registers of ITG (17 R29, 17 R39, 17 R42, 17 R553, 17 R557, 17 R609, 17 R610, 17 R611, 17 R616, 17 R617, 17 R618, 17 R619, 17 R620, 17 R621, 17 R622). -/
def rowsItg : List RegRow :=
  [⟨0x10, 1, 1, [fieldRow 31 31 .rw [1],
    fieldRow 7 0 .rw [0x6E] [(60, 125)]]⟩,
  ⟨0x11, 1, 1, [fieldRow 31 0 .ro [0x80808080]]⟩,
  ⟨0x12, 1, 1, [fieldRow 31 8 .ro [0x808080]]⟩,
  ⟨0x13, 1, 1, [fieldRow 31 24 .ro [0],
    fieldRow 23 16 .ro [0]]⟩,
  ⟨0x14, 1, 1, [fieldRow 20 0 .rw [0] [] 8]⟩,
  ⟨0x15, 1, 1, [fieldRow 31 31 .ro [0],
    fieldRow 30 30 .ro [0],
    fieldRow 20 0 .ro [0]]⟩,
  ⟨0x16, 1, 1, [fieldRow 31 0 .ro [0]]⟩,
  ⟨0x17, 1, 1, [fieldRow 31 0 .ro [0]]⟩,
  ⟨0x18, 1, 1, [fieldRow 31 0 .ro [0]]⟩,
  ⟨0x20, 1, 1, [fieldRow 31 0 .rs [0] [] 1 1]⟩,
  ⟨0x21, 1, 1, [fieldRow 31 0 .rs [0] [] 1 1]⟩,
  ⟨0x22, 1, 1, [fieldRow 31 0 .rs [0] [] 1 1]⟩,
  ⟨0x23, 1, 1, [fieldRow 31 0 .rs [0] [] 1 1]⟩,
  ⟨0x24, 1, 1, [fieldRow 31 0 .rs [0] [] 1 1]⟩,
  ⟨0x25, 1, 1, [fieldRow 31 0 .rs [0] [] 1 1]⟩,
  ⟨0x26, 1, 1, [fieldRow 31 0 .rs [0] [] 1 1]⟩,
  ⟨0x27, 1, 1, [fieldRow 31 0 .rs [0] [] 1 1]⟩,
  ⟨0x28, 1, 1, [fieldRow 31 0 .rs [0] [] 1 1]⟩,
  ⟨0x29, 1, 1, [fieldRow 31 0 .rs [0] [] 1 1]⟩,
  ⟨0x2A, 1, 1, [fieldRow 31 0 .rs [0] [] 1 1]⟩] ++
  [⟨0x2B, 1, 1, [fieldRow 31 0 .rs [0] [] 1 1]⟩,
  ⟨0x40, 32, 1, [fieldRow 31 0 .rs [0] [] 1 2]⟩]

/-- Registers of TWN (02 R84, 02 R99, 16 R583, 16 R585, 16 R586, 16 R595, 16 R599). -/
def rowsTwn : List RegRow :=
  [⟨0x10, 1, 1, [fieldRow 31 31 .rw [0],
    fieldRow 30 29 .rw [0] [(0, 2)],
    fieldRow 13 8 .rw [4] [(1, 40)],
    fieldRow 3 0 .rw [4] [(4, 15)]]⟩,
  ⟨0x11, 1, 1, [fieldRow 13 0 .rw [0] [(0, 8192)]]⟩,
  ⟨0x12, 1, 1, [fieldRow 31 31 .rw [0],
    fieldRow 30 30 .rw [1],
    fieldRow 25 24 .rw [0]]⟩,
  ⟨0x13, 1, 1, [fieldRow 31 28 .ro [0],
    fieldRow 27 26 .ro [0],
    fieldRow 25 25 .ro [0],
    fieldRow 24 24 .ro [0],
    fieldRow 23 16 .ro [0],
    fieldRow 7 0 .ro [0]]⟩,
  ⟨0x14, 1, 1, [fieldRow 31 0 .ro [0]]⟩,
  ⟨0x15, 1, 1, [fieldRow 31 0 .ro [0]]⟩,
  ⟨0x16, 1, 1, [fieldRow 10 0 .ro [0]]⟩,
  ⟨0x17, 1, 1, [fieldRow 31 0 .ro [0]]⟩,
  ⟨0x18, 1, 1, [fieldRow 5 0 .ro [0]]⟩,
  ⟨0x20, 1, 1, [fieldRow 31 0 .rs [0] [] 1 1]⟩,
  ⟨0x21, 1, 1, [fieldRow 31 0 .rs [0] [] 1 1]⟩,
  ⟨0x22, 1, 1, [fieldRow 31 0 .rs [0] [] 1 1]⟩,
  ⟨0x23, 1, 1, [fieldRow 31 0 .rs [0] [] 1 1]⟩,
  ⟨0x24, 1, 1, [fieldRow 31 0 .rs [0] [] 1 1]⟩,
  ⟨0x25, 1, 1, [fieldRow 31 0 .rs [0] [] 1 1]⟩]

/-- Registers of CSC (02 R84, 02 R99, 16 R600, 16 R601, 16 R606). -/
def rowsCsc : List RegRow :=
  [⟨0x10, 1, 1, [fieldRow 31 31 .rw [0],
    fieldRow 30 29 .rw [0] [(0, 2)],
    fieldRow 13 8 .rw [4] [(1, 40)],
    fieldRow 3 0 .rw [4] [(4, 15)]]⟩,
  ⟨0x11, 1, 1, [fieldRow 13 0 .rw [0] [(0, 8192)]]⟩,
  ⟨0x12, 1, 1, [fieldRow 31 31 .rw [0],
    fieldRow 29 28 .rw [0]]⟩,
  ⟨0x13, 1, 1, [fieldRow 31 28 .ro [0],
    fieldRow 26 24 .ro [0]]⟩,
  ⟨0x18, 3, 1, [fieldRow 31 0 .ro [0]]⟩,
  ⟨0x1B, 3, 1, [fieldRow 31 0 .ro [0]]⟩,
  ⟨0x1E, 3, 1, [fieldRow 15 8 .ro [0],
    fieldRow 7 0 .ro [0]]⟩,
  ⟨0x28, 1, 1, [fieldRow 31 0 .rs [0] [] 1 1]⟩,
  ⟨0x29, 1, 1, [fieldRow 31 0 .rs [0] [] 1 1]⟩,
  ⟨0x2A, 1, 1, [fieldRow 31 0 .rs [0] [] 1 1]⟩,
  ⟨0x2B, 1, 1, [fieldRow 31 0 .rs [0] [] 1 1]⟩]

/-- Registers of FLD (05 R192, 05 R195, 05 R198, 05 R205, 05 R212, 05 R213, 05 R216, 05 R217, 05 R219, 05 R222, 05 R223, 05 R226, 05 R228, 05 R233, 05 R235, 05 R236). -/
def rowsFld : List RegRow :=
  [⟨0x10, 1, 1, [fieldRow 0 0 .rw [0]]⟩,
  ⟨0x11, 1, 1, [fieldRow 3 0 .rw [0]]⟩,
  ⟨0x12, 1, 1, [fieldRow 31 28 .ro [0],
    fieldRow 23 20 .ro [0],
    fieldRow 18 16 .ro [1],
    fieldRow 15 12 .ro [0]]⟩,
  ⟨0x13, 1, 1, [fieldRow 23 16 .rw [0x32],
    fieldRow 15 14 .rw [1] [(0, 1)],
    fieldRow 13 8 .rw [0x0F],
    fieldRow 5 0 .rw [0x0F]]⟩,
  ⟨0x14, 1, 1, [fieldRow 20 16 .rw [0x0A] [(8, 30)],
    fieldRow 10 8 .rw [2]]⟩,
  ⟨0x15, 1, 1, [fieldRow 27 16 .rw [0x9C4] [(0, 2500)],
    fieldRow 7 0 .rw [0x78] [(80, 120)]]⟩,
  ⟨0x16, 1, 1, [fieldRow 20 12 .ro [0],
    fieldRow 11 0 .ro [0]]⟩,
  ⟨0x17, 1, 1, [fieldRow 31 31 .rw [1],
    fieldRow 23 16 .rw [0x14] [(10, 40)],
    fieldRow 15 8 .rw [0x14] [(1, 255)],
    fieldRow 7 0 .rw [0x0A] [(1, 255)]]⟩,
  ⟨0x18, 1, 1, [fieldRow 31 16 .ro [0],
    fieldRow 15 8 .ro [0xFF],
    fieldRow 7 0 .ro [0]]⟩,
  ⟨0x19, 1, 1, [fieldRow 31 0 .ro [0xFF000]]⟩,
  ⟨0x1A, 1, 1, [fieldRow 31 30 .ro [0],
    fieldRow 29 28 .ro [0],
    fieldRow 27 26 .ro [0]]⟩,
  ⟨0x1B, 1, 1, [fieldRow 15 0 .rw [0x200] [(256, 65535)]]⟩,
  ⟨0x1C, 1, 1, [fieldRow 20 0 .rw [0xFE000] [] 8]⟩,
  ⟨0x1D, 1, 1, [fieldRow 31 31 .ro [0],
    fieldRow 27 24 .ro [0],
    fieldRow 10 8 .ro [0]]⟩,
  ⟨0x1E, 1, 1, [fieldRow 31 0 .ro [0]]⟩,
  ⟨0x1F, 1, 1, [fieldRow 31 0 .ro [0]]⟩,
  ⟨0x20, 8, 1, [fieldRow 31 31 .rw [0],
    fieldRow 24 16 .rw [0] [(0, 500)]]⟩,
  ⟨0x28, 8, 1, [fieldRow 31 31 .ro [0],
    fieldRow 30 30 .ro [0],
    fieldRow 29 28 .ro [0],
    fieldRow 24 16 .ro [0],
    fieldRow 9 0 .ro [0]]⟩,
  ⟨0x30, 1, 1, [fieldRow 31 31 .rw [0],
    fieldRow 30 30 .rw [0],
    fieldRow 29 28 .rw [0] [(0, 2)]]⟩,
  ⟨0x31, 8, 1, [fieldRow 31 31 .rw [0],
    fieldRow 30 26 .rw [0] [(0, 1), (8, 31)],
    fieldRow 25 16 .rw [0],
    fieldRow 9 0 .rw [0]]⟩] ++
  [⟨0x39, 4, 1, [fieldRow 31 24 .rw [0],
    fieldRow 23 16 .rw [0],
    fieldRow 15 8 .rw [0],
    fieldRow 7 0 .rw [0]]⟩,
  ⟨0x40, 1, 1, [fieldRow 31 31 .ro [0],
    fieldRow 30 30 .ro [0],
    fieldRow 15 0 .ro [0]]⟩,
  ⟨0x41, 14, 1, [fieldRow 31 0 .ro [0]]⟩,
  ⟨0x4F, 1, 1, [fieldRow 31 0 .wo [0]]⟩]

/-- Registers of PAT (05 R202). -/
def rowsPat : List RegRow :=
  [⟨0x10, 16, 13, [fieldRow 31 31 .rw [1, 0],
    fieldRow 30 30 .rw [0],
    fieldRow 29 28 .rw [0] [(0, 2)]]⟩,
  ⟨0x11, 16, 13, [fieldRow 31 31 .rw [1, 0],
    fieldRow 30 26 .rw [0] [(0, 1), (8, 31)],
    fieldRow 25 16 .rw [0],
    fieldRow 9 0 .rw [0x3FF, 0]]⟩,
  ⟨0x12, 16, 13, [fieldRow 31 31 .rw [0],
    fieldRow 30 26 .rw [0] [(0, 1), (8, 31)],
    fieldRow 25 16 .rw [0],
    fieldRow 9 0 .rw [0]]⟩,
  ⟨0x13, 16, 13, [fieldRow 31 31 .rw [0],
    fieldRow 30 26 .rw [0] [(0, 1), (8, 31)],
    fieldRow 25 16 .rw [0],
    fieldRow 9 0 .rw [0]]⟩,
  ⟨0x14, 16, 13, [fieldRow 31 31 .rw [0],
    fieldRow 30 26 .rw [0] [(0, 1), (8, 31)],
    fieldRow 25 16 .rw [0],
    fieldRow 9 0 .rw [0]]⟩,
  ⟨0x15, 16, 13, [fieldRow 31 31 .rw [0],
    fieldRow 30 26 .rw [0] [(0, 1), (8, 31)],
    fieldRow 25 16 .rw [0],
    fieldRow 9 0 .rw [0]]⟩,
  ⟨0x16, 16, 13, [fieldRow 31 31 .rw [0],
    fieldRow 30 26 .rw [0] [(0, 1), (8, 31)],
    fieldRow 25 16 .rw [0],
    fieldRow 9 0 .rw [0]]⟩,
  ⟨0x17, 16, 13, [fieldRow 31 31 .rw [0],
    fieldRow 30 26 .rw [0] [(0, 1), (8, 31)],
    fieldRow 25 16 .rw [0],
    fieldRow 9 0 .rw [0]]⟩,
  ⟨0x18, 16, 13, [fieldRow 31 31 .rw [0],
    fieldRow 30 26 .rw [0] [(0, 1), (8, 31)],
    fieldRow 25 16 .rw [0],
    fieldRow 9 0 .rw [0]]⟩,
  ⟨0x19, 16, 13, [fieldRow 31 24 .rw [0],
    fieldRow 23 16 .rw [0],
    fieldRow 15 8 .rw [0],
    fieldRow 7 0 .rw [0]]⟩,
  ⟨0x1A, 16, 13, [fieldRow 31 24 .rw [0],
    fieldRow 23 16 .rw [0],
    fieldRow 15 8 .rw [0],
    fieldRow 7 0 .rw [0]]⟩,
  ⟨0x1B, 16, 13, [fieldRow 31 24 .rw [0],
    fieldRow 23 16 .rw [0],
    fieldRow 15 8 .rw [0],
    fieldRow 7 0 .rw [0]]⟩,
  ⟨0x1C, 16, 13, [fieldRow 31 24 .rw [0],
    fieldRow 23 16 .rw [0],
    fieldRow 15 8 .rw [0],
    fieldRow 7 0 .rw [0]]⟩]

/-- Registers of FRX (06 R245, 06 R249, 06 R250, 06 R273). -/
def rowsFrx : List RegRow :=
  [⟨0x10, 1, 1, [fieldRow 31 31 .rw [1],
    fieldRow 7 0 .rw [0x0C] [(6, 80)]]⟩,
  ⟨0x11, 1, 1, [fieldRow 20 0 .rw [0xF0000] [] 8]⟩,
  ⟨0x12, 1, 1, [fieldRow 31 31 .rw [0],
    fieldRow 30 28 .rw [0],
    fieldRow 12 0 .rw [0x100] [(1, 7168)]]⟩,
  ⟨0x20, 8, 1, [fieldRow 31 31 .rw [1],
    fieldRow 30 30 .rw [1],
    fieldRow 18 16 .rw [0] [(0, 5)]]⟩,
  ⟨0x28, 8, 1, [fieldRow 31 31 .ro [0],
    fieldRow 30 30 .ro [0],
    fieldRow 29 29 .ro [0],
    fieldRow 28 26 .ro [0],
    fieldRow 23 16 .ro [0xFF],
    fieldRow 15 8 .ro [0xFF],
    fieldRow 7 0 .ro [0xFF]]⟩,
  ⟨0x30, 8, 1, [fieldRow 31 0 .rs [0] [] 1 1]⟩]

/-- Registers of UMX (06 R256, 06 R260, 06 R269, 06 R271, 06 R275, 06 R276). -/
def rowsUmx : List RegRow :=
  [⟨0x10, 1, 1, [fieldRow 31 31 .rw [1],
    fieldRow 30 30 .rw [1],
    fieldRow 2 0 .rw [4] [(1, 4)]]⟩,
  ⟨0x11, 1, 1, [fieldRow 23 16 .rw [0x28],
    fieldRow 15 8 .rw [0xF3] [(128, 255)],
    fieldRow 7 0 .rw [0x80] [(24, 255)]]⟩,
  ⟨0x12, 1, 1, [fieldRow 15 8 .rw [0x18] [(12, 120)],
    fieldRow 5 0 .rw [0x20] [(8, 63)]]⟩,
  ⟨0x13, 1, 1, [fieldRow 8 0 .rw [0x32] [(10, 500)]]⟩,
  ⟨0x14, 1, 1, [fieldRow 31 30 .ro [0],
    fieldRow 26 24 .ro [0]]⟩,
  ⟨0x20, 1, 1, [fieldRow 31 28 .rs [0] [] 1 2,
    fieldRow 27 24 .rs [0] [] 1 2,
    fieldRow 23 16 .rs [0] [] 1 2,
    fieldRow 15 8 .rs [0] [] 1 2]⟩,
  ⟨0x21, 4, 1, [fieldRow 31 0 .rs [0] [] 1 2]⟩,
  ⟨0x30, 1, 1, [fieldRow 31 0 .rs [0] [] 1 1]⟩,
  ⟨0x31, 1, 1, [fieldRow 31 0 .rs [0] [] 1 1]⟩,
  ⟨0x32, 1, 1, [fieldRow 31 0 .rs [0] [] 1 1]⟩,
  ⟨0x33, 1, 1, [fieldRow 31 0 .rs [0] [] 1 1]⟩,
  ⟨0x34, 8, 1, [fieldRow 31 0 .rs [0] [] 1 1]⟩,
  ⟨0x3C, 1, 1, [fieldRow 31 0 .rs [0] [] 1 1]⟩]

/-- Registers of PRO (07 R286, 07 R301, 07 R316, 07 R317). -/
def rowsPro : List RegRow :=
  [⟨0x10, 1, 1, [fieldRow 21 12 .rw [0x64] [(1, 1000)],
    fieldRow 11 8 .rw [8] [(0, 8)],
    fieldRow 1 0 .rw [2]]⟩,
  ⟨0x11, 1, 1, [fieldRow 31 0 .ro [0]]⟩,
  ⟨0x12, 1, 1, [fieldRow 31 16 .ro [0],
    fieldRow 15 0 .ro [0]]⟩,
  ⟨0x13, 1, 1, [fieldRow 31 31 .ro [0],
    fieldRow 25 24 .ro [0],
    fieldRow 23 20 .ro [0],
    fieldRow 19 16 .ro [0],
    fieldRow 15 12 .ro [0]]⟩,
  ⟨0x20, 4, 4, [fieldRow 31 0 .rw [0x10E24, 0x10E24, 0x34F8, 0x42360]]⟩,
  ⟨0x21, 4, 4, [fieldRow 15 0 .rw [0x494, 0x700, 0x1060, 0x400]]⟩,
  ⟨0x22, 4, 4, [fieldRow 31 16 .rw [0x40] [(0, 1024)],
    fieldRow 15 0 .rw [0x40] [(0, 4096)]]⟩,
  ⟨0x23, 4, 4, [fieldRow 31 0 .rw [0x10000, 0x1E00, 0x1120, 0x69F0] [(1172, 67108864)]]⟩,
  ⟨0x40, 1, 1, [fieldRow 31 0 .rs [0] [] 1 1]⟩,
  ⟨0x41, 1, 1, [fieldRow 31 0 .rs [0] [] 1 1]⟩,
  ⟨0x42, 1, 1, [fieldRow 31 0 .rs [0] [] 1 1]⟩,
  ⟨0x43, 1, 1, [fieldRow 31 0 .rs [0] [] 1 1]⟩]

/-- Registers of INV (07 R289, 07 R317, 07 R318). -/
def rowsInv : List RegRow :=
  [⟨0x10, 1, 1, [fieldRow 31 0 .ro [0]]⟩,
  ⟨0x11, 1, 1, [fieldRow 31 16 .ro [0],
    fieldRow 15 0 .ro [0]]⟩,
  ⟨0x12, 1, 1, [fieldRow 20 16 .ro [0x10],
    fieldRow 15 0 .ro [0]]⟩,
  ⟨0x13, 1, 1, [fieldRow 20 16 .rw [4] [(0, 16)],
    fieldRow 11 0 .rw [0x100] [(1, 2047)]]⟩,
  ⟨0x20, 1, 1, [fieldRow 31 0 .rs [0] [] 1 1]⟩,
  ⟨0x21, 1, 1, [fieldRow 31 0 .rs [0] [] 1 1]⟩,
  ⟨0x22, 1, 1, [fieldRow 31 0 .rs [0] [] 1 1]⟩,
  ⟨0x23, 1, 1, [fieldRow 31 0 .rs [0] [] 1 1]⟩,
  ⟨0x24, 1, 1, [fieldRow 31 0 .rs [0] [] 1 1]⟩,
  ⟨0x25, 1, 1, [fieldRow 31 0 .rs [0] [] 1 1]⟩]

/-- Registers of LPD (07 R312, 07 R313, 07 R314). -/
def rowsLpd : List RegRow :=
  [⟨0x10, 1, 1, [fieldRow 31 31 .rw [0],
    fieldRow 25 16 .rw [0xFA] [(50, 1000)],
    fieldRow 9 8 .rw [1] [(1, 3)],
    fieldRow 7 0 .rw [0x0C] [(1, 255)]]⟩,
  ⟨0x11, 1, 1, [fieldRow 31 31 .rw [0],
    fieldRow 25 24 .rw [2],
    fieldRow 17 16 .rw [1] [(1, 3)],
    fieldRow 15 8 .rw [0x10] [(1, 255)],
    fieldRow 7 0 .rw [0xFF] [(1, 255)]]⟩,
  ⟨0x12, 1, 1, [fieldRow 31 30 .ro [0],
    fieldRow 23 16 .ro [0],
    fieldRow 9 0 .ro [0]]⟩,
  ⟨0x18, 8, 1, [fieldRow 9 0 .ro [0]]⟩,
  ⟨0x20, 1, 1, [fieldRow 31 0 .rs [0] [] 1 1]⟩,
  ⟨0x21, 1, 1, [fieldRow 31 0 .rs [0] [] 1 1]⟩]

/-- Registers of BPn (08 R320, 08 R324, 08 R328, 08 R329, 08 R334, 08 R336, 08 R338, 08 R339, 08 R341, 08 R342, 08 R343, 08 R350, 08 R351, 08 R355). -/
def rowsBp : List RegRow :=
  [⟨0x10, 1, 1, [fieldRow 31 28 .rw [0] [(0, 4)],
    fieldRow 25 24 .rw [0],
    fieldRow 23 23 .rw [0],
    fieldRow 21 0 .rw [0]]⟩,
  ⟨0x11, 1, 1, [fieldRow 31 30 .rw [1, 1, 1, 2] [(0, 2)],
    fieldRow 29 28 .rw [0, 1, 2, 0] [(0, 2)],
    fieldRow 27 27 .rw [0]]⟩,
  ⟨0x12, 1, 1, [fieldRow 31 0 .rw [0]]⟩,
  ⟨0x13, 1, 1, [fieldRow 31 30 .rw [0] [(0, 2)],
    fieldRow 29 29 .rw [0],
    fieldRow 23 20 .rw [0] [(0, 0), (2, 9)],
    fieldRow 15 8 .rw [0] [(0, 0), (56, 236)],
    fieldRow 7 0 .rw [0x3C]]⟩,
  ⟨0x14, 1, 1, [fieldRow 31 31 .rw [0],
    fieldRow 23 16 .rw [0x1E] [(0, 60)],
    fieldRow 7 0 .rw [0x50] [(60, 110)]]⟩,
  ⟨0x15, 1, 1, [fieldRow 23 16 .rw [0x0C] [(2, 60)],
    fieldRow 11 8 .rw [3] [(1, 8)],
    fieldRow 7 0 .rw [0x28]]⟩,
  ⟨0x16, 1, 1, [fieldRow 2 0 .rw [0] [(0, 3)]]⟩,
  ⟨0x17, 1, 1, [fieldRow 31 31 .rw [0],
    fieldRow 30 28 .rw [1] [(0, 3)],
    fieldRow 27 27 .rw [0],
    fieldRow 23 16 .rw [0x2D] [(5, 90)],
    fieldRow 15 12 .rw [1] [(0, 6)],
    fieldRow 9 0 .rw [0x40] [(8, 1000)]]⟩,
  ⟨0x18, 1, 1, [fieldRow 15 0 .rw [0]]⟩,
  ⟨0x19, 1, 1, [fieldRow 31 28 .ro [0],
    fieldRow 27 27 .ro [0],
    fieldRow 26 26 .ro [0],
    fieldRow 25 25 .ro [0],
    fieldRow 24 24 .ro [0],
    fieldRow 15 0 .ro [0]]⟩,
  ⟨0x1A, 1, 1, [fieldRow 31 24 .rs [0] [] 1 1,
    fieldRow 23 16 .rs [0] [] 1 1,
    fieldRow 15 8 .rs [0] [] 1 1]⟩,
  ⟨0x1B, 1, 1, [fieldRow 31 16 .rs [0] [] 1 1,
    fieldRow 15 8 .rs [0] [] 1 1]⟩,
  ⟨0x1C, 1, 1, [fieldRow 31 0 .ro [0]]⟩,
  ⟨0x1D, 1, 1, [fieldRow 31 16 .ro [0],
    fieldRow 15 0 .ro [0]]⟩,
  ⟨0x1E, 1, 1, [fieldRow 31 31 .ro [0],
    fieldRow 30 30 .ro [0],
    fieldRow 29 24 .ro [0],
    fieldRow 23 16 .ro [0],
    fieldRow 15 8 .ro [0]]⟩,
  ⟨0x1F, 1, 1, [fieldRow 31 28 .rw [0] [(0, 4)],
    fieldRow 25 24 .rw [0],
    fieldRow 23 23 .rw [0],
    fieldRow 21 0 .rw [0]]⟩,
  ⟨0x20, 16, 1, [fieldRow 31 31 .ro [0],
    fieldRow 30 30 .ro [0],
    fieldRow 29 22 .ro [0],
    fieldRow 21 0 .ro [0]]⟩,
  ⟨0x30, 1, 1, [fieldRow 31 31 .ro [0],
    fieldRow 30 30 .ro [0],
    fieldRow 15 0 .ro [0]]⟩,
  ⟨0x31, 2, 1, [fieldRow 31 0 .ro [0]]⟩,
  ⟨0x33, 1, 1, [fieldRow 31 0 .wo [0]]⟩] ++
  [⟨0x40, 1, 1, [fieldRow 31 0 .rs [0] [] 1 2]⟩,
  ⟨0x41, 1, 1, [fieldRow 31 0 .rs [0] [] 1 2]⟩,
  ⟨0x42, 1, 1, [fieldRow 31 0 .rs [0] [] 1 2]⟩,
  ⟨0x43, 1, 1, [fieldRow 31 0 .rs [0] [] 1 2]⟩]

/-- Registers of BDA (09 R358, 09 R359, 09 R361, 09 R362, 09 R364, 09 R365, 09 R366, 09 R367, 09 R369, 09 R385). -/
def rowsBda : List RegRow :=
  [⟨0x10, 3, 1, [fieldRow 31 31 .rw [0],
    fieldRow 30 30 .rw [0],
    fieldRow 29 29 .rw [0]]⟩,
  ⟨0x14, 3, 1, [fieldRow 31 0 .rw [0]]⟩,
  ⟨0x17, 1, 1, [fieldRow 31 0 .ro [0]]⟩,
  ⟨0x18, 1, 1, [fieldRow 31 31 .rw [0],
    fieldRow 30 30 .rw [0],
    fieldRow 29 29 .rw [0],
    fieldRow 21 10 .rw [0],
    fieldRow 9 0 .rw [0]]⟩,
  ⟨0x20, 12, 1, [fieldRow 31 30 .ro [0],
    fieldRow 29 29 .ro [0],
    fieldRow 28 28 .ro [0],
    fieldRow 27 22 .ro [0],
    fieldRow 21 14 .ro [0],
    fieldRow 11 0 .ro [0]]⟩,
  ⟨0x30, 1, 1, [fieldRow 31 0 .ro [0]]⟩,
  ⟨0x31, 1, 1, [fieldRow 31 16 .ro [0],
    fieldRow 15 0 .ro [0]]⟩,
  ⟨0x32, 1, 1, [fieldRow 31 0 .ro [0]]⟩,
  ⟨0x33, 1, 1, [fieldRow 31 16 .ro [0],
    fieldRow 15 0 .ro [0]]⟩,
  ⟨0x34, 1, 1, [fieldRow 15 0 .ro [0]]⟩,
  ⟨0x35, 1, 1, [fieldRow 20 16 .rw [4] [(0, 16)],
    fieldRow 9 0 .rw [0x100] [(1, 1023)]]⟩,
  ⟨0x36, 1, 1, [fieldRow 20 16 .ro [0x10]]⟩,
  ⟨0x40, 1, 1, [fieldRow 31 0 .rs [0] [] 1 1]⟩,
  ⟨0x41, 1, 1, [fieldRow 31 0 .rs [0] [] 1 1]⟩,
  ⟨0x42, 1, 1, [fieldRow 31 0 .rs [0] [] 1 1]⟩,
  ⟨0x43, 1, 1, [fieldRow 31 0 .rs [0] [] 1 1]⟩,
  ⟨0x44, 1, 1, [fieldRow 31 0 .rs [0] [] 1 1]⟩,
  ⟨0x45, 1, 1, [fieldRow 31 0 .rs [0] [] 1 1]⟩,
  ⟨0x46, 1, 1, [fieldRow 31 0 .rs [0] [] 1 1]⟩,
  ⟨0x47, 1, 1, [fieldRow 31 0 .rs [0] [] 1 1]⟩]

/-- Registers of CCD (09 R358, 09 R373, 09 R375, 09 R377, 09 R378, 09 R381, 09 R384, 09 R386). -/
def rowsCcd : List RegRow :=
  [⟨0x10, 1, 1, [fieldRow 31 31 .rw [0],
    fieldRow 30 30 .rw [1],
    fieldRow 29 29 .rw [1],
    fieldRow 28 28 .rw [0]]⟩,
  ⟨0x11, 1, 1, [fieldRow 25 16 .rw [0],
    fieldRow 15 8 .rw [0x19] [(1, 255)],
    fieldRow 3 0 .rw [5] [(1, 10)]]⟩,
  ⟨0x12, 3, 1, [fieldRow 31 31 .rw [1],
    fieldRow 30 30 .rw [1],
    fieldRow 1 0 .rw [0, 1, 2]]⟩,
  ⟨0x18, 8, 1, [fieldRow 31 31 .rw [0],
    fieldRow 30 27 .rw [0x0A] [(1, 10)],
    fieldRow 21 16 .rw [0],
    fieldRow 13 12 .rw [0]]⟩,
  ⟨0x20, 8, 2, [fieldRow 31 31 .rw [0],
    fieldRow 30 28 .rw [0],
    fieldRow 27 26 .rw [0] [(0, 2)],
    fieldRow 25 25 .rw [0],
    fieldRow 21 0 .rw [0]]⟩,
  ⟨0x21, 8, 2, [fieldRow 31 0 .rw [0]]⟩,
  ⟨0x30, 1, 1, [fieldRow 31 0 .ro [0]]⟩,
  ⟨0x31, 1, 1, [fieldRow 31 16 .ro [0],
    fieldRow 15 0 .ro [0]]⟩,
  ⟨0x32, 1, 1, [fieldRow 13 8 .ro [0],
    fieldRow 5 0 .ro [0]]⟩,
  ⟨0x34, 1, 1, [fieldRow 31 0 .rs [0] [] 1 2]⟩,
  ⟨0x35, 1, 1, [fieldRow 25 16 .rs [0] [] 1 2,
    fieldRow 15 0 .rs [0] [] 1 2]⟩,
  ⟨0x36, 1, 1, [fieldRow 31 30 .rs [0] [] 1 2,
    fieldRow 26 24 .rs [0] [] 1 2,
    fieldRow 22 20 .rs [0] [] 1 2,
    fieldRow 18 16 .rs [0] [] 1 2,
    fieldRow 15 8 .rs [0] [] 1 2,
    fieldRow 7 0 .rs [0] [] 1 2]⟩,
  ⟨0x37, 1, 1, [fieldRow 31 0 .rs [0] [] 1 2]⟩,
  ⟨0x38, 1, 1, [fieldRow 31 0 .rs [0] [] 1 1]⟩,
  ⟨0x39, 1, 1, [fieldRow 31 0 .rs [0] [] 1 1]⟩,
  ⟨0x3A, 1, 1, [fieldRow 31 0 .rs [0] [] 1 1]⟩,
  ⟨0x3B, 1, 1, [fieldRow 31 0 .rs [0] [] 1 1]⟩,
  ⟨0x3C, 1, 1, [fieldRow 31 0 .rs [0] [] 1 1]⟩,
  ⟨0x3D, 1, 1, [fieldRow 31 0 .rs [0] [] 1 1]⟩,
  ⟨0x3E, 1, 1, [fieldRow 31 0 .rs [0] [] 1 1]⟩] ++
  [⟨0x3F, 1, 1, [fieldRow 31 0 .rs [0] [] 1 1]⟩]

/-- Registers of AUD (08 R352, 08 R353, 08 R354). -/
def rowsAud : List RegRow :=
  [⟨0x10, 1, 1, [fieldRow 31 31 .rw [0],
    fieldRow 30 29 .rw [0] [(0, 2)],
    fieldRow 28 28 .rw [0],
    fieldRow 27 26 .rw [1] [(0, 2)],
    fieldRow 25 24 .rw [0] [(0, 2)],
    fieldRow 23 23 .rw [0]]⟩,
  ⟨0x11, 1, 1, [fieldRow 31 31 .ro [0],
    fieldRow 30 30 .ro [0],
    fieldRow 29 28 .ro [0],
    fieldRow 27 27 .ro [0],
    fieldRow 26 26 .ro [0],
    fieldRow 14 0 .ro [0x1C20]]⟩,
  ⟨0x12, 1, 1, [fieldRow 31 31 .rw [1],
    fieldRow 14 0 .rw [0x1C20] [(0, 14400)]]⟩,
  ⟨0x13, 1, 1, [fieldRow 31 0 .rs [0] [] 1 1]⟩]

/-- Registers of VLR (10 R390, 10 R393, 10 R406, 10 R408, 10 R410, 10 R414, 10 R415, 10 R421, 10 R424). -/
def rowsVlr : List RegRow :=
  [⟨0x10, 1, 1, [fieldRow 31 30 .rw [0],
    fieldRow 29 29 .rw [1],
    fieldRow 28 28 .rw [1]]⟩,
  ⟨0x11, 1, 1, [fieldRow 31 31 .rw [0],
    fieldRow 29 28 .rw [1],
    fieldRow 23 0 .rw [0x83B2D8]]⟩,
  ⟨0x12, 1, 1, [fieldRow 9 0 .rw [0]]⟩,
  ⟨0x13, 1, 1, [fieldRow 29 24 .rw [0x0F] [(1, 63)],
    fieldRow 21 16 .rw [0x0F] [(1, 63)],
    fieldRow 7 0 .rw [0x1C] [(0, 40), (236, 255)]]⟩,
  ⟨0x14, 1, 1, [fieldRow 9 0 .rw [0x1F4] [(100, 1000)]]⟩,
  ⟨0x15, 1, 1, [fieldRow 31 31 .rw [1],
    fieldRow 30 30 .rw [1],
    fieldRow 29 29 .rw [0],
    fieldRow 23 16 .rw [0x19] [(5, 75)],
    fieldRow 7 0 .rw [0x0A] [(2, 60)]]⟩,
  ⟨0x16, 1, 1, [fieldRow 31 28 .ro [0],
    fieldRow 27 27 .ro [0],
    fieldRow 23 16 .ro [0],
    fieldRow 15 8 .ro [0],
    fieldRow 5 0 .ro [0]]⟩,
  ⟨0x17, 1, 1, [fieldRow 31 28 .ro [0],
    fieldRow 27 27 .ro [0],
    fieldRow 23 16 .ro [0x80],
    fieldRow 15 8 .ro [0x80]]⟩,
  ⟨0x18, 1, 1, [fieldRow 31 0 .rs [0] [] 1 2]⟩,
  ⟨0x19, 1, 1, [fieldRow 31 0 .rs [0] [] 1 2]⟩,
  ⟨0x1A, 1, 1, [fieldRow 31 24 .rs [0] [] 1 2,
    fieldRow 23 23 .rs [0] [] 1 2,
    fieldRow 15 0 .rs [0] [] 1 2]⟩,
  ⟨0x1B, 1, 1, [fieldRow 31 0 .ro [0]]⟩,
  ⟨0x40, 1, 1, [fieldRow 31 0 .rs [0] [] 1 1]⟩,
  ⟨0x41, 1, 1, [fieldRow 31 0 .rs [0] [] 1 1]⟩,
  ⟨0x42, 1, 1, [fieldRow 31 0 .rs [0] [] 1 1]⟩,
  ⟨0x43, 1, 1, [fieldRow 31 0 .rs [0] [] 1 1]⟩,
  ⟨0x44, 1, 1, [fieldRow 31 0 .rs [0] [] 1 1]⟩,
  ⟨0x45, 1, 1, [fieldRow 31 0 .rs [0] [] 1 1]⟩]

/-- Registers of VLM (10 R394, 10 R396, 10 R397, 10 R400, 10 R406, 10 R424). -/
def rowsVlm : List RegRow :=
  [⟨0x10, 1, 1, [fieldRow 7 4 .rw [0] [(0, 4)],
    fieldRow 0 0 .rw [0]]⟩,
  ⟨0x11, 1, 1, [fieldRow 8 0 .rw [0x40] [(32, 256)]]⟩,
  ⟨0x12, 1, 1, [fieldRow 31 31 .rw [0],
    fieldRow 30 30 .rw [0],
    fieldRow 26 24 .rw [2] [(0, 6)],
    fieldRow 15 15 .rw [1],
    fieldRow 14 14 .rw [1],
    fieldRow 10 8 .rw [2] [(0, 6)],
    fieldRow 0 0 .rw [0]]⟩,
  ⟨0x13, 1, 1, [fieldRow 31 0 .rw [0xD3915A6C]]⟩,
  ⟨0x14, 1, 1, [fieldRow 31 0 .rw [0]]⟩,
  ⟨0x15, 1, 1, [fieldRow 31 24 .rw [0xA0] [(1, 255)],
    fieldRow 15 8 .rw [0x24] [(5, 40)],
    fieldRow 4 0 .rw [0x10] [(8, 31)]]⟩,
  ⟨0x16, 1, 1, [fieldRow 2 2 .rw [1],
    fieldRow 1 0 .rw [0] [(0, 2)]]⟩,
  ⟨0x18, 1, 1, [fieldRow 31 0 .rs [0] [] 1 2]⟩,
  ⟨0x19, 1, 1, [fieldRow 31 0 .rs [0] [] 1 2]⟩,
  ⟨0x1A, 1, 1, [fieldRow 31 0 .rs [0] [] 1 2]⟩,
  ⟨0x40, 1, 1, [fieldRow 31 0 .rs [0] [] 1 1]⟩,
  ⟨0x41, 1, 1, [fieldRow 31 0 .rs [0] [] 1 1]⟩,
  ⟨0x42, 1, 1, [fieldRow 31 0 .rs [0] [] 1 1]⟩,
  ⟨0x43, 1, 1, [fieldRow 31 0 .rs [0] [] 1 1]⟩,
  ⟨0x44, 1, 1, [fieldRow 31 0 .rs [0] [] 1 1]⟩,
  ⟨0x45, 1, 1, [fieldRow 31 0 .rs [0] [] 1 1]⟩,
  ⟨0x46, 1, 1, [fieldRow 31 0 .rs [0] [] 1 1]⟩,
  ⟨0x47, 1, 1, [fieldRow 31 0 .rs [0] [] 1 1]⟩]

/-- Registers of VLQ (11 R433, 11 R437, 11 R440, 11 R441, 11 R442, 11 R444, 11 R448, 11 R456). -/
def rowsVlq : List RegRow :=
  [⟨0x10, 1, 1, [fieldRow 31 31 .rw [0],
    fieldRow 15 0 .rw [0]]⟩,
  ⟨0x11, 1, 1, [fieldRow 31 24 .rw [0x0A] [(1, 100)],
    fieldRow 23 16 .rw [0x14] [(2, 255)],
    fieldRow 11 0 .rw [0x3E8] [(300, 4000)]]⟩,
  ⟨0x12, 1, 1, [fieldRow 15 0 .rw [0x3E8]]⟩,
  ⟨0x13, 1, 1, [fieldRow 31 0 .ro [0]]⟩,
  ⟨0x14, 1, 1, [fieldRow 31 16 .ro [0],
    fieldRow 15 0 .ro [0]]⟩,
  ⟨0x15, 1, 1, [fieldRow 21 16 .rw [4] [(0, 32)],
    fieldRow 5 0 .rw [0x10] [(1, 63)]]⟩,
  ⟨0x16, 1, 1, [fieldRow 31 0 .w1c [0]]⟩,
  ⟨0x17, 1, 1, [fieldRow 5 0 .ro [0x20]]⟩,
  ⟨0x20, 32, 1, [fieldRow 31 28 .ro [0],
    fieldRow 27 24 .ro [0],
    fieldRow 23 16 .ro [0],
    fieldRow 15 0 .ro [0]]⟩,
  ⟨0x40, 1, 1, [fieldRow 31 0 .rs [0] [] 1 1]⟩,
  ⟨0x41, 1, 1, [fieldRow 31 0 .rs [0] [] 1 1]⟩,
  ⟨0x42, 1, 1, [fieldRow 31 0 .rs [0] [] 1 1]⟩,
  ⟨0x43, 1, 1, [fieldRow 31 0 .rs [0] [] 1 1]⟩,
  ⟨0x44, 1, 1, [fieldRow 31 0 .rs [0] [] 1 1]⟩,
  ⟨0x45, 1, 1, [fieldRow 31 0 .rs [0] [] 1 1]⟩,
  ⟨0x46, 1, 1, [fieldRow 31 0 .rs [0] [] 1 1]⟩,
  ⟨0x47, 1, 1, [fieldRow 31 0 .rs [0] [] 1 1]⟩,
  ⟨0x48, 1, 1, [fieldRow 31 0 .rs [0] [] 1 1]⟩,
  ⟨0x49, 1, 1, [fieldRow 31 0 .rs [0] [] 1 1]⟩,
  ⟨0x4A, 1, 1, [fieldRow 31 0 .rs [0] [] 1 1]⟩]

/-- Registers of REG (11 R445, 11 R447, 11 R448). -/
def rowsReg : List RegRow :=
  [⟨0x10, 1, 1, [fieldRow 31 31 .ro [0],
    fieldRow 30 30 .ro [0]]⟩,
  ⟨0x11, 1, 1, [fieldRow 27 16 .rwl [0xFA0] [(0, 4000)],
    fieldRow 8 0 .rwl [0x1F4] [(0, 500)]]⟩,
  ⟨0x18, 8, 3, [fieldRow 31 31 .rwl [1, 1, 0],
    fieldRow 30 30 .rwl [0, 1, 0],
    fieldRow 23 0 .rwl [0x83AEF0, 0x89A260, 0]]⟩,
  ⟨0x19, 8, 3, [fieldRow 23 0 .rwl [0x84C060, 0x8D9A00, 0]]⟩,
  ⟨0x1A, 8, 3, [fieldRow 31 24 .rwl [0x1C, 0x28, 0],
    fieldRow 15 0 .rwl [0x64, 0x2710, 0] [(0, 10000)]]⟩,
  ⟨0x30, 8, 1, [fieldRow 31 0 .ro [0]]⟩,
  ⟨0x38, 1, 1, [fieldRow 31 0 .rs [0] [] 1 1]⟩,
  ⟨0x39, 1, 1, [fieldRow 31 0 .rs [0] [] 1 1]⟩,
  ⟨0x3A, 1, 1, [fieldRow 31 0 .rs [0] [] 1 1]⟩]

/-- Registers of COX (11 R451, 11 R453). -/
def rowsCox : List RegRow :=
  [⟨0x10, 1, 1, [fieldRow 31 31 .rw [0],
    fieldRow 30 28 .rw [0],
    fieldRow 25 16 .rw [0x64] [(0, 1000)],
    fieldRow 11 0 .rw [0x7D0] [(10, 4000)]]⟩,
  ⟨0x11, 1, 1, [fieldRow 31 0 .ro [0]]⟩,
  ⟨0x12, 1, 1, [fieldRow 31 31 .ro [0],
    fieldRow 30 30 .ro [0],
    fieldRow 29 29 .ro [0]]⟩,
  ⟨0x18, 1, 1, [fieldRow 31 0 .rs [0] [] 1 1]⟩,
  ⟨0x19, 1, 1, [fieldRow 31 0 .rs [0] [] 1 1]⟩,
  ⟨0x1A, 1, 1, [fieldRow 31 0 .rs [0] [] 1 1]⟩]

/-- Registers of MSn (13 R522). -/
def rowsMs : List RegRow :=
  [⟨0x10, 1, 1, [fieldRow 31 16 .ro [0],
    fieldRow 0 0 .rw [0]]⟩,
  ⟨0x11, 1, 1, [fieldRow 31 28 .ro [0],
    fieldRow 27 24 .ro [0],
    fieldRow 23 23 .ro [0],
    fieldRow 22 22 .ro [0],
    fieldRow 21 21 .ro [0],
    fieldRow 20 16 .ro [0],
    fieldRow 13 8 .ro [0],
    fieldRow 6 4 .ro [0]]⟩,
  ⟨0x12, 1, 1, [fieldRow 13 0 .rwh [0]]⟩,
  ⟨0x13, 1, 1, [fieldRow 31 28 .ro [0],
    fieldRow 23 16 .ro [0],
    fieldRow 13 0 .ro [0]]⟩,
  ⟨0x14, 1, 1, [fieldRow 13 0 .rw [0]]⟩,
  ⟨0x15, 1, 1, [fieldRow 13 0 .rwh [0]]⟩,
  ⟨0x16, 1, 1, [fieldRow 14 2 .rw [0]]⟩,
  ⟨0x17, 1, 1, [fieldRow 31 0 .rwh [0]]⟩,
  ⟨0x18, 16, 1, [fieldRow 31 0 .rwh [0]]⟩,
  ⟨0x28, 8, 1, [fieldRow 31 0 .rwh [0]]⟩,
  ⟨0x30, 4, 1, [fieldRow 31 31 .rw [0],
    fieldRow 13 0 .rw [0]]⟩,
  ⟨0x34, 1, 1, [fieldRow 5 0 .rw [0]]⟩,
  ⟨0x35, 1, 1, [fieldRow 31 0 .rwh [0]]⟩,
  ⟨0x36, 1, 1, [fieldRow 4 0 .rw [0]]⟩,
  ⟨0x37, 1, 1, [fieldRow 31 0 .rwh [0]]⟩]

/-- Registers of GIO (19 R649, 19 R650). -/
def rowsGio : List RegRow :=
  [⟨0x10, 12, 1, [fieldRow 9 8 .rw [0],
    fieldRow 7 7 .rw [0],
    fieldRow 6 6 .rw [0],
    fieldRow 5 4 .rw [1] [(0, 2)],
    fieldRow 3 0 .rw [0] [(0, 6)]]⟩,
  ⟨0x1C, 1, 1, [fieldRow 11 0 .ro [0]]⟩,
  ⟨0x1D, 1, 1, [fieldRow 11 0 .rw [0]]⟩]

/-- The header registers of every page that hold RW fields of their own (03 R112); the others are computed or
have behaviour of their own (Machine/Access.lean). -/
def rowsHeader : List RegRow :=
  [⟨0x02, 1, 1, [fieldRow 31 31 .w1s [0], fieldRow 1 1 .w1s [0], fieldRow 0 0 .rw [1]]⟩,
  ⟨0x04, 1, 1, [fieldRow 31 0 .w1c [0]]⟩,
  ⟨0x05, 1, 1, [fieldRow 31 0 .rw [0]]⟩,
  ⟨0x06, 1, 1, [fieldRow 16 16 .rw [0], fieldRow 3 2 .rw [0] [(0, 2)], fieldRow 1 0 .rw [0] [(0, 2)]]⟩,
  ⟨0x07, 1, 1, [fieldRow 31 0 .ro [0]]⟩,
  ⟨0x08, 1, 1, [fieldRow 31 0 .w1c [0]]⟩,
  ⟨0x09, 1, 1, [fieldRow 31 0 .ro [0]]⟩,
  ⟨0x0A, 1, 1, [fieldRow 31 31 .w1c [0], fieldRow 30 30 .ro [0], fieldRow 27 24 .ro [0], fieldRow 23 16 .ro [0],
    fieldRow 15 0 .ro [0]]⟩,
  ⟨0x0B, 1, 1, [fieldRow 31 31 .w1s [0], fieldRow 23 16 .ro [0], fieldRow 7 0 .rw [0xFF]]⟩,
  ⟨0x0C, 1, 1, [fieldRow 31 0 .ro [0]]⟩,
  ⟨0x0D, 1, 1, [fieldRow 31 0 .wo [0]]⟩,
  ⟨0x0E, 1, 1, [fieldRow 31 0 .ro [0]]⟩,
  ⟨0x0F, 1, 1, [fieldRow 31 0 .rw [0]]⟩,
  ⟨0x00, 1, 1, [fieldRow 31 0 .ro [0]]⟩,
  ⟨0x01, 1, 1, [fieldRow 31 0 .ro [0x100]]⟩,
  ⟨0x03, 1, 1, [fieldRow 31 0 .ro [0]]⟩]

/-- The page-specific rows of a page number of the directory (03 R147). -/
def pageRows (page : Nat) : List RegRow :=
  match page with
  | 0x00 => rowsDev
  | 0x01 => rowsIrq
  | 0x02 => rowsTxn
  | 0x03 => rowsHpt
  | 0x04 => rowsMpt
  | 0x05 => rowsClk
  | 0x06 => rowsPwr
  | 0x07 => rowsTmaOnly ++ rowsTm
  | 0x08 => rowsTm
  | 0x09 => rowsChk
  | 0x0A => rowsCph
  | 0x0B => rowsIdn
  | 0x0C => rowsNvl
  | 0x0D => rowsItg
  | 0x0E => rowsTwn
  | 0x0F => rowsCsc
  | 0x10 => rowsFld
  | 0x11 => rowsPat
  | 0x12 => rowsFrx
  | 0x13 => rowsUmx
  | 0x14 => rowsPro
  | 0x15 => rowsInv
  | 0x16 => rowsLpd
  | 0x18 => rowsBp
  | 0x19 => rowsBp
  | 0x1A => rowsBp
  | 0x1B => rowsBp
  | 0x1C => rowsBda
  | 0x1D => rowsCcd
  | 0x1E => rowsAud
  | 0x20 => rowsVlr
  | 0x21 => rowsVlm
  | 0x22 => rowsVlq
  | 0x23 => rowsReg
  | 0x24 => rowsCox
  | 0x28 => rowsMs
  | 0x29 => rowsMs
  | 0x2A => rowsMs
  | 0x2B => rowsMs
  | 0x2C => rowsMs
  | 0x30 => rowsGio
  | _ => []

/-- One row of the page directory: owning island class (03 R112), power domain (01 R19) and last implemented offset (03 R147). -/
structure PageRow where
  cls : Nat
  domain : Nat
  last : Nat
  deriving DecidableEq, Repr

/-- The page directory (01 R19, 03 R147); `none` for a number that is not in it. -/
def pageRow (page : Nat) : Option PageRow :=
  match page with
  | 0x00 => some ⟨1, 1, 0x3F⟩
  | 0x01 => some ⟨1, 1, 0x4F⟩
  | 0x02 => some ⟨1, 1, 0x6F⟩
  | 0x03 => some ⟨1, 1, 0x37⟩
  | 0x04 => some ⟨1, 1, 0x3F⟩
  | 0x05 => some ⟨1, 1, 0x37⟩
  | 0x06 => some ⟨1, 1, 0x3F⟩
  | 0x07 => some ⟨1, 1, 0x8F⟩
  | 0x08 => some ⟨1, 1, 0x8F⟩
  | 0x09 => some ⟨1, 1, 0x47⟩
  | 0x0A => some ⟨2, 2, 0x7F⟩
  | 0x0B => some ⟨2, 2, 0x4F⟩
  | 0x0C => some ⟨1, 1, 0x5F⟩
  | 0x0D => some ⟨1, 1, 0x6F⟩
  | 0x0E => some ⟨6, 9, 0x3F⟩
  | 0x0F => some ⟨6, 9, 0x47⟩
  | 0x10 => some ⟨3, 3, 0x6F⟩
  | 0x11 => some ⟨3, 3, 0xDF⟩
  | 0x12 => some ⟨3, 4, 0x7F⟩
  | 0x13 => some ⟨3, 4, 0x6F⟩
  | 0x14 => some ⟨3, 4, 0x7F⟩
  | 0x15 => some ⟨3, 4, 0x8F⟩
  | 0x16 => some ⟨1, 1, 0x3F⟩
  | 0x18 => some ⟨4, 6, 0x57⟩
  | 0x19 => some ⟨4, 6, 0x57⟩
  | 0x1A => some ⟨4, 6, 0x57⟩
  | 0x1B => some ⟨4, 6, 0x57⟩
  | 0x1C => some ⟨4, 6, 0x8F⟩
  | 0x1D => some ⟨4, 6, 0x4F⟩
  | 0x1E => some ⟨4, 6, 0x2F⟩
  | 0x20 => some ⟨5, 7, 0x6F⟩
  | 0x21 => some ⟨5, 7, 0x5F⟩
  | 0x22 => some ⟨5, 7, 0x6F⟩
  | 0x23 => some ⟨1, 1, 0x3F⟩
  | 0x24 => some ⟨5, 7, 0x27⟩
  | 0x28 => some ⟨1, 1, 0x37⟩
  | 0x29 => some ⟨3, 4, 0x37⟩
  | 0x2A => some ⟨4, 6, 0x37⟩
  | 0x2B => some ⟨5, 7, 0x37⟩
  | 0x2C => some ⟨6, 9, 0x37⟩
  | 0x30 => some ⟨6, 9, 0x37⟩
  | _ => none

/-- The page numbers of the directory, in order (03 R147). -/
def allPages : List Nat :=
  [0x00, 0x01, 0x02, 0x03, 0x04, 0x05, 0x06, 0x07, 0x08, 0x09, 0x0A, 0x0B, 0x0C, 0x0D, 0x0E, 0x0F, 0x10, 0x11, 0x12, 0x13] ++
  [0x14, 0x15, 0x16, 0x18, 0x19, 0x1A, 0x1B, 0x1C, 0x1D, 0x1E, 0x20, 0x21, 0x22, 0x23, 0x24, 0x28, 0x29, 0x2A, 0x2B, 0x2C, 0x30]

end Sys2Proof.Machine

/-! Register indices (00 R8): page times 256 plus offset; for BPn, MSn and the timers the offset alone. -/

namespace Sys2Proof.Machine.Reg

abbrev pgDev : Nat := 0x00
abbrev pgIrq : Nat := 0x01
abbrev pgTxn : Nat := 0x02
abbrev pgHpt : Nat := 0x03
abbrev pgMpt : Nat := 0x04
abbrev pgClk : Nat := 0x05
abbrev pgPwr : Nat := 0x06
abbrev pgTma : Nat := 0x07
abbrev pgTmb : Nat := 0x08
abbrev pgChk : Nat := 0x09
abbrev pgCph : Nat := 0x0A
abbrev pgIdn : Nat := 0x0B
abbrev pgNvl : Nat := 0x0C
abbrev pgItg : Nat := 0x0D
abbrev pgTwn : Nat := 0x0E
abbrev pgCsc : Nat := 0x0F
abbrev pgFld : Nat := 0x10
abbrev pgPat : Nat := 0x11
abbrev pgFrx : Nat := 0x12
abbrev pgUmx : Nat := 0x13
abbrev pgPro : Nat := 0x14
abbrev pgInv : Nat := 0x15
abbrev pgLpd : Nat := 0x16
abbrev pgBp0 : Nat := 0x18
abbrev pgBp1 : Nat := 0x19
abbrev pgBp2 : Nat := 0x1A
abbrev pgBp3 : Nat := 0x1B
abbrev pgBda : Nat := 0x1C
abbrev pgCcd : Nat := 0x1D
abbrev pgAud : Nat := 0x1E
abbrev pgVlr : Nat := 0x20
abbrev pgVlm : Nat := 0x21
abbrev pgVlq : Nat := 0x22
abbrev pgReg : Nat := 0x23
abbrev pgCox : Nat := 0x24
abbrev pgMs0 : Nat := 0x28
abbrev pgMs1 : Nat := 0x29
abbrev pgMs2 : Nat := 0x2A
abbrev pgMs3 : Nat := 0x2B
abbrev pgMs4 : Nat := 0x2C
abbrev pgGio : Nat := 0x30

abbrev devChipId : Nat := 0x0010
abbrev devSiliconRev : Nat := 0x0011
abbrev devStatus : Nat := 0x0012
abbrev devMwinBase : Nat := 0x0013
abbrev devFwVersion : Nat := 0x0014
abbrev irqPend : Nat := 0x0110
abbrev irqVec : Nat := 0x0118
abbrev irqLineCtrl : Nat := 0x011C
abbrev txnTimeout : Nat := 0x0210
abbrev txnPool : Nat := 0x0211
abbrev txnOpenMap : Nat := 0x0212
abbrev txnWatermark : Nat := 0x0213
abbrev txnCommitted : Nat := 0x0214
abbrev txnAborted : Nat := 0x0215
abbrev txnJobPage : Nat := 0x0216
abbrev txnJobWord : Nat := 0x0217
abbrev txnGuardIndex : Nat := 0x0218
abbrev txnGuardMask : Nat := 0x0219
abbrev txnGuardValue : Nat := 0x021A
abbrev txnState : Nat := 0x0220
abbrev txnUse : Nat := 0x0228
abbrev txnOutcome : Nat := 0x0230
abbrev hptLanes : Nat := 0x0310
abbrev hptStatus : Nat := 0x0311
abbrev hptErrInfo : Nat := 0x0312
abbrev hptBusyLimit : Nat := 0x0313
abbrev mptXipCtrl : Nat := 0x0410
abbrev mptCopTimeout : Nat := 0x0411
abbrev mptFlashStatus : Nat := 0x0412
abbrev mptCopShape : Nat := 0x0420
abbrev clkXtal : Nat := 0x0510
abbrev clkPlumb : Nat := 0x0511
abbrev clkPlumbStatus : Nat := 0x0512
abbrev clkRtcSec : Nat := 0x0514
abbrev clkRtcSub : Nat := 0x0515
abbrev clkRtcSetSec : Nat := 0x0516
abbrev clkRtcSetSub : Nat := 0x0517
abbrev clkAlarmSec : Nat := 0x0518
abbrev clkAlarmSub : Nat := 0x0519
abbrev clkRtcCtrl : Nat := 0x051A
abbrev clkRtcTrim : Nat := 0x051B
abbrev clkSlew : Nat := 0x051C
abbrev clkMono : Nat := 0x051D
abbrev clkLocks : Nat := 0x0520
abbrev clkLosses : Nat := 0x0521
abbrev pwrDomains : Nat := 0x0610
abbrev pwrDrainLimit : Nat := 0x0611
abbrev pwrWakeEn : Nat := 0x0612
abbrev pwrWakeCause : Nat := 0x0613
abbrev pwrBuck : Nat := 0x0614
abbrev pwrSupply : Nat := 0x0615
abbrev pwrStopTime : Nat := 0x0616
abbrev pwrStops : Nat := 0x0620
abbrev pwrWakes : Nat := 0x0621
abbrev pwrDrainAborts : Nat := 0x0622
abbrev tmaGlobalStart : Nat := 0x0710
abbrev tmaGlobalStop : Nat := 0x0711
abbrev tmCtrl : Nat := 0x18
abbrev tmCnt : Nat := 0x19
abbrev tmTop : Nat := 0x1A
abbrev tmCmp : Nat := 0x1B
abbrev tmCap : Nat := 0x1C
abbrev tmCapCfg : Nat := 0x1D
abbrev tmPinCfg : Nat := 0x1E
abbrev tmStatus : Nat := 0x1F
abbrev tmCnt32 : Nat := 0x20
abbrev tmHiSnap : Nat := 0x21
abbrev tmLoSnap : Nat := 0x22
abbrev tmTop32 : Nat := 0x23
abbrev tmCmp32 : Nat := 0x24
abbrev tmCap32 : Nat := 0x25
abbrev chkClaim : Nat := 0x0910
abbrev chkOpenOk : Nat := 0x0911
abbrev chkCfg : Nat := 0x0918
abbrev chkPoly : Nat := 0x0919
abbrev chkInit : Nat := 0x091A
abbrev chkXorOut : Nat := 0x091B
abbrev chkShape : Nat := 0x091C
abbrev chkValue : Nat := 0x091D
abbrev chkResult : Nat := 0x091E
abbrev chkBytes : Nat := 0x091F
abbrev chkLast : Nat := 0x0920
abbrev chkFrames : Nat := 0x0921
abbrev chkStatus : Nat := 0x0922
abbrev cphWatermark : Nat := 0x0A10
abbrev cphJobs : Nat := 0x0A11
abbrev cphQPop : Nat := 0x0A12
abbrev cphQStatus : Nat := 0x0A13
abbrev cphHistory : Nat := 0x0A14
abbrev cphNodes : Nat := 0x0A15
abbrev cphSlot : Nat := 0x0A20
abbrev cphSlotCtr : Nat := 0x0A40
abbrev cphJobsDone : Nat := 0x0A60
abbrev cphTagFails : Nat := 0x0A61
abbrev cphProvReads : Nat := 0x0A62
abbrev cphExhausted : Nat := 0x0A63
abbrev idnStatus : Nat := 0x0B10
abbrev idnSerialLo : Nat := 0x0B11
abbrev idnSerialHi : Nat := 0x0B12
abbrev idnPubX : Nat := 0x0B18
abbrev idnPubY : Nat := 0x0B20
abbrev idnResult : Nat := 0x0B30
abbrev idnResultData : Nat := 0x0B31
abbrev idnResultRelease : Nat := 0x0B41
abbrev idnSigns : Nat := 0x0B48
abbrev idnVerifies : Nat := 0x0B49
abbrev idnRngFails : Nat := 0x0B4A
abbrev idnRandomBytes : Nat := 0x0B4B
abbrev nvlFuseStatus : Nat := 0x0C10
abbrev nvlBlowArm : Nat := 0x0C11
abbrev nvlDst : Nat := 0x0C12
abbrev nvlSrc : Nat := 0x0C13
abbrev nvlLength : Nat := 0x0C14
abbrev nvlOemX : Nat := 0x0C20
abbrev nvlOemY : Nat := 0x0C28
abbrev itgCtrl : Nat := 0x0D10
abbrev itgTemp0 : Nat := 0x0D11
abbrev itgTemp1 : Nat := 0x0D12
abbrev itgScrub : Nat := 0x0D13
abbrev itgTarget : Nat := 0x0D14
abbrev itgErrAddr : Nat := 0x0D15
abbrev itgFaultMap0 : Nat := 0x0D16
abbrev itgFaultMap1 : Nat := 0x0D17
abbrev itgRingSeq : Nat := 0x0D18
abbrev itgMortarCorrected : Nat := 0x0D20
abbrev itgMortarUncorr : Nat := 0x0D21
abbrev itgMramCorrected : Nat := 0x0D22
abbrev itgMramUncorr : Nat := 0x0D23
abbrev itgChainParity : Nat := 0x0D24
abbrev itgQueueParity : Nat := 0x0D25
abbrev itgBank1Off : Nat := 0x0D26
abbrev itgDecodeLate : Nat := 0x0D27
abbrev itgUrgentDemoted : Nat := 0x0D28
abbrev itgMortarSweeps : Nat := 0x0D29
abbrev itgMramSweeps : Nat := 0x0D2A
abbrev itgFwRestarts : Nat := 0x0D2B
abbrev itgTelem : Nat := 0x0D40
abbrev twnPortCtrl : Nat := 0x0E10
abbrev twnTxLen : Nat := 0x0E11
abbrev twnCtrl : Nat := 0x0E12
abbrev twnStatus : Nat := 0x0E13
abbrev twnPeerSerialLo : Nat := 0x0E14
abbrev twnPeerSerialHi : Nat := 0x0E15
abbrev twnBacklog : Nat := 0x0E16
abbrev twnTakeoverAt : Nat := 0x0E17
abbrev twnConfirmLeft : Nat := 0x0E18
abbrev twnPairings : Nat := 0x0E20
abbrev twnRefusals : Nat := 0x0E21
abbrev twnTakeovers : Nat := 0x0E22
abbrev twnStepDowns : Nat := 0x0E23
abbrev twnHbMissed : Nat := 0x0E24
abbrev twnMirrorDrops : Nat := 0x0E25
abbrev cscPortCtrl : Nat := 0x0F10
abbrev cscTxLen : Nat := 0x0F11
abbrev cscCtrl : Nat := 0x0F12
abbrev cscStatus : Nat := 0x0F13
abbrev cscMemberLo : Nat := 0x0F18
abbrev cscMemberHi : Nat := 0x0F1B
abbrev cscMemberInfo : Nat := 0x0F1E
abbrev cscJoins : Nat := 0x0F28
abbrev cscLeaves : Nat := 0x0F29
abbrev cscResyncs : Nat := 0x0F2A
abbrev cscRefusedJoins : Nat := 0x0F2B
abbrev fldField : Nat := 0x1010
abbrev fldPatsel : Nat := 0x1011
abbrev fldPatStatus : Nat := 0x1012
abbrev fldRamp : Nat := 0x1013
abbrev fldMod : Nat := 0x1014
abbrev fldLimit : Nat := 0x1015
abbrev fldLimitStatus : Nat := 0x1016
abbrev fldSurvey : Nat := 0x1017
abbrev fldSurveyStatus : Nat := 0x1018
abbrev fldSurveyAddr : Nat := 0x1019
abbrev fldArray : Nat := 0x101A
abbrev fldCascLead : Nat := 0x101B
abbrev fldCascImage : Nat := 0x101C
abbrev fldCascStatus : Nat := 0x101D
abbrev fldCycle : Nat := 0x101E
abbrev fldCascAt : Nat := 0x101F
abbrev fldPortCfg : Nat := 0x1020
abbrev fldPortStatus : Nat := 0x1028
abbrev fldSolveIn0 : Nat := 0x1030
abbrev fldSolveInP : Nat := 0x1031
abbrev fldSolveInN : Nat := 0x1039
abbrev fldResult : Nat := 0x1040
abbrev fldSolveData : Nat := 0x1041
abbrev fldResultRelease : Nat := 0x104F
abbrev patAshCtrl : Nat := 0x1110
abbrev patAshP0 : Nat := 0x1111
abbrev patAshP1 : Nat := 0x1112
abbrev patAshP2 : Nat := 0x1113
abbrev patAshP3 : Nat := 0x1114
abbrev patAshP4 : Nat := 0x1115
abbrev patAshP5 : Nat := 0x1116
abbrev patAshP6 : Nat := 0x1117
abbrev patAshP7 : Nat := 0x1118
abbrev patAshNullaLo : Nat := 0x1119
abbrev patAshNullaHi : Nat := 0x111A
abbrev patAshNullbLo : Nat := 0x111B
abbrev patAshNullbHi : Nat := 0x111C
abbrev frxCtrl : Nat := 0x1210
abbrev frxCapBase : Nat := 0x1211
abbrev frxCapCtrl : Nat := 0x1212
abbrev frxChainCfg : Nat := 0x1220
abbrev frxChainStatus : Nat := 0x1228
abbrev frxClipCnt : Nat := 0x1230
abbrev umxCtrl : Nat := 0x1310
abbrev umxLimits : Nat := 0x1311
abbrev umxEst : Nat := 0x1312
abbrev umxCascWait : Nat := 0x1313
abbrev umxStatus : Nat := 0x1314
abbrev umxLastSlot : Nat := 0x1320
abbrev umxLastQ : Nat := 0x1321
abbrev umxSlots : Nat := 0x1330
abbrev umxSingle : Nat := 0x1331
abbrev umxSeparated : Nat := 0x1332
abbrev umxStreams : Nat := 0x1333
abbrev umxFallback : Nat := 0x1334
abbrev umxCascLate : Nat := 0x133C
abbrev proCtrl : Nat := 0x1410
abbrev proQPop : Nat := 0x1411
abbrev proQStatus : Nat := 0x1412
abbrev proSession : Nat := 0x1413
abbrev proGuardOn : Nat := 0x1420
abbrev proRecovery : Nat := 0x1421
abbrev proWin : Nat := 0x1422
abbrev proWait : Nat := 0x1423
abbrev proFramesTx : Nat := 0x1440
abbrev proFramesRx : Nat := 0x1441
abbrev proTimeouts : Nat := 0x1442
abbrev proCrcErrors : Nat := 0x1443
abbrev invQPop : Nat := 0x1510
abbrev invQStatus : Nat := 0x1511
abbrev invJobs : Nat := 0x1512
abbrev invWatermark : Nat := 0x1513
abbrev invJobsDone : Nat := 0x1520
abbrev invTags : Nat := 0x1521
abbrev invSlots : Nat := 0x1522
abbrev invSeparated : Nat := 0x1523
abbrev invCollided : Nat := 0x1524
abbrev invRepeats : Nat := 0x1525
abbrev lpdRunCtrl : Nat := 0x1610
abbrev lpdStopCtrl : Nat := 0x1611
abbrev lpdHit : Nat := 0x1612
abbrev lpdBase : Nat := 0x1618
abbrev lpdHits : Nat := 0x1620
abbrev lpdWakes : Nat := 0x1621
abbrev bpTune : Nat := 0x10
abbrev bpRole : Nat := 0x11
abbrev bpService : Nat := 0x12
abbrev bpFilter : Nat := 0x13
abbrev bpAgc : Nat := 0x14
abbrev bpFollow : Nat := 0x15
abbrev bpTcCfg : Nat := 0x16
abbrev bpPskCfg : Nat := 0x17
abbrev bpPskSync : Nat := 0x18
abbrev bpStatus : Nat := 0x19
abbrev bpQual0 : Nat := 0x1A
abbrev bpQual1 : Nat := 0x1B
abbrev bpQPop : Nat := 0x1C
abbrev bpQStatus : Nat := 0x1D
abbrev bpTcStatus : Nat := 0x1E
abbrev bpCheckTune : Nat := 0x1F
abbrev bpCand : Nat := 0x20
abbrev bpResult : Nat := 0x30
abbrev bpCheckData : Nat := 0x31
abbrev bpResultRelease : Nat := 0x33
abbrev bpTunes : Nat := 0x40
abbrev bpLosses : Nat := 0x41
abbrev bpSwaps : Nat := 0x42
abbrev bpTrims : Nat := 0x43
abbrev bdaSlotCfg : Nat := 0x1C10
abbrev bdaGroupMask : Nat := 0x1C14
abbrev bdaUsec : Nat := 0x1C17
abbrev bdaSelArg : Nat := 0x1C18
abbrev bdaSel : Nat := 0x1C20
abbrev bdaQPop : Nat := 0x1C30
abbrev bdaQStatus : Nat := 0x1C31
abbrev bdaSubQPop : Nat := 0x1C32
abbrev bdaSubQStatus : Nat := 0x1C33
abbrev bdaLoad : Nat := 0x1C34
abbrev bdaWatermark : Nat := 0x1C35
abbrev bdaJobs : Nat := 0x1C36
abbrev bdaGroups : Nat := 0x1C40
abbrev bdaGroupsBad : Nat := 0x1C41
abbrev bdaFibs : Nat := 0x1C42
abbrev bdaFibCrc : Nat := 0x1C43
abbrev bdaPktGroups : Nat := 0x1C44
abbrev bdaPktCrc : Nat := 0x1C45
abbrev bdaDropsData : Nat := 0x1C46
abbrev bdaDropsSub : Nat := 0x1C47
abbrev ccdCtrl : Nat := 0x1D10
abbrev ccdTimeCfg : Nat := 0x1D11
abbrev ccdSlotBind : Nat := 0x1D12
abbrev ccdStream : Nat := 0x1D18
abbrev ccdMapA : Nat := 0x1D20
abbrev ccdMapB : Nat := 0x1D21
abbrev ccdQPop : Nat := 0x1D30
abbrev ccdQStatus : Nat := 0x1D31
abbrev ccdOpen : Nat := 0x1D32
abbrev ccdTimeNow0 : Nat := 0x1D34
abbrev ccdTimeNow1 : Nat := 0x1D35
abbrev ccdTimeNow2 : Nat := 0x1D36
abbrev ccdTimeNow3 : Nat := 0x1D37
abbrev ccdConfirmed : Nat := 0x1D38
abbrev ccdUnconfirmed : Nat := 0x1D39
abbrev ccdDisputed : Nat := 0x1D3A
abbrev ccdRepeats : Nat := 0x1D3B
abbrev ccdMalformed : Nat := 0x1D3C
abbrev ccdDrops : Nat := 0x1D3D
abbrev ccdTimeConfirmed : Nat := 0x1D3E
abbrev ccdTimeSteps : Nat := 0x1D3F
abbrev audCtrl : Nat := 0x1E10
abbrev audStatus : Nat := 0x1E11
abbrev audAlign : Nat := 0x1E12
abbrev audUnderrun : Nat := 0x1E13
abbrev vlrCtrl : Nat := 0x2010
abbrev vlrBand : Nat := 0x2011
abbrev vlrChannel : Nat := 0x2012
abbrev vlrPa : Nat := 0x2013
abbrev vlrHoldLimit : Nat := 0x2014
abbrev vlrMeter : Nat := 0x2015
abbrev vlrSynth : Nat := 0x2016
abbrev vlrState : Nat := 0x2017
abbrev vlrTxLog0 : Nat := 0x2018
abbrev vlrTxLog1 : Nat := 0x2019
abbrev vlrTxLog2 : Nat := 0x201A
abbrev vlrUsec : Nat := 0x201B
abbrev vlrTxFrames : Nat := 0x2040
abbrev vlrTxHeld : Nat := 0x2041
abbrev vlrTxFailed : Nat := 0x2042
abbrev vlrCals : Nat := 0x2043
abbrev vlrCalFails : Nat := 0x2044
abbrev vlrLockLost : Nat := 0x2045
abbrev vlmMod : Nat := 0x2110
abbrev vlmPreamble : Nat := 0x2111
abbrev vlmSyncCfg : Nat := 0x2112
abbrev vlmSync0 : Nat := 0x2113
abbrev vlmSync1 : Nat := 0x2114
abbrev vlmDetect : Nat := 0x2115
abbrev vlmFec : Nat := 0x2116
abbrev vlmLastRx0 : Nat := 0x2118
abbrev vlmLastRx1 : Nat := 0x2119
abbrev vlmLastRx2 : Nat := 0x211A
abbrev vlmDetects : Nat := 0x2140
abbrev vlmSyncs : Nat := 0x2141
abbrev vlmFalseDetects : Nat := 0x2142
abbrev vlmBadLength : Nat := 0x2143
abbrev vlmLengthMismatch : Nat := 0x2144
abbrev vlmDecoded : Nat := 0x2145
abbrev vlmMeterFrames : Nat := 0x2146
abbrev vlmMeterBad : Nat := 0x2147
abbrev vlqCtrl : Nat := 0x2210
abbrev vlqTiming : Nat := 0x2211
abbrev vlqReserve : Nat := 0x2212
abbrev vlqQPop : Nat := 0x2213
abbrev vlqQStatus : Nat := 0x2214
abbrev vlqWatermark : Nat := 0x2215
abbrev vlqDoneMap : Nat := 0x2216
abbrev vlqFree : Nat := 0x2217
abbrev vlqSlotStatus : Nat := 0x2220
abbrev vlqRxDelivered : Nat := 0x2240
abbrev vlqBadFrame : Nat := 0x2241
abbrev vlqNotMine : Nat := 0x2242
abbrev vlqUnknown : Nat := 0x2243
abbrev vlqDuplicates : Nat := 0x2244
abbrev vlqMicFail : Nat := 0x2245
abbrev vlqRingFull : Nat := 0x2246
abbrev vlqAcksSent : Nat := 0x2247
abbrev vlqAckLate : Nat := 0x2248
abbrev vlqNoAck : Nat := 0x2249
abbrev vlqMeterDropped : Nat := 0x224A
abbrev regStatus : Nat := 0x2310
abbrev regField : Nat := 0x2311
abbrev regSubLo : Nat := 0x2318
abbrev regSubHi : Nat := 0x2319
abbrev regSubLim : Nat := 0x231A
abbrev regSubUsed : Nat := 0x2330
abbrev regRefusedChannel : Nat := 0x2338
abbrev regRefusedPower : Nat := 0x2339
abbrev regRefusedDuty : Nat := 0x233A
abbrev coxCtrl : Nat := 0x2410
abbrev coxLastAbort : Nat := 0x2411
abbrev coxStatus : Nat := 0x2412
abbrev coxGrants : Nat := 0x2418
abbrev coxGntTimeouts : Nat := 0x2419
abbrev coxAborts : Nat := 0x241A
abbrev msCtrl : Nat := 0x10
abbrev msStatus : Nat := 0x11
abbrev msPc : Nat := 0x12
abbrev msTrap : Nat := 0x13
abbrev msPmAddr : Nat := 0x14
abbrev msPmData : Nat := 0x15
abbrev msDmAddr : Nat := 0x16
abbrev msDmData : Nat := 0x17
abbrev msStack : Nat := 0x18
abbrev msPt : Nat := 0x28
abbrev msBp : Nat := 0x30
abbrev msSprSel : Nat := 0x34
abbrev msSprData : Nat := 0x35
abbrev msRsSel : Nat := 0x36
abbrev msRsData : Nat := 0x37
abbrev gioFunc : Nat := 0x3010
abbrev gioIn : Nat := 0x301C
abbrev gioOut : Nat := 0x301D

end Sys2Proof.Machine.Reg
end

