-- ==== Sys2Proof/Machine/Ops.lean ====
section
/-!
DEFINITION. Sys2Proof/Machine/Ops.lean: the named operations every meaning is built from: register storage, power,
events, faults and refusals, snapshots, doors, results, result queues, free values.
-/
namespace Sys2Proof.Machine

/-- The outcome of a meaning. -/
abbrev Out := Host.Outcome State Fault Refusal

/-! ## Requesters (03 R126, R127; 04 R151) -/

/-- The requester code of WRITE_REJECT.REQUESTER. -/
def Requester.code (r : Requester) : Nat :=
  match r with
  | .host => 0
  | .mason n => n.val + 1
  | .lintel => 6

/-- The requester set: 0 host (and lintel link), 1 open (mason 4), 2 firmware. -/
def Requester.set (r : Requester) : Nat :=
  match r with
  | .host => 0
  | .mason n => if n.val = 4 then 1 else 2
  | .lintel => 0

/-! ## The register tables -/

/-- The row of a list that covers an offset, with the position in its repetition. -/
def findRow (rows : List RegRow) (off : Nat) : Option (RegRow × Nat) :=
  match rows with
  | [] => none
  | r :: t =>
    if r.off ≤ off ∧ (off - r.off) % r.stride = 0 ∧ (off - r.off) / r.stride < r.count
    then some (r, (off - r.off) / r.stride) else findRow t off

/-- The table row of a register index (03 R105: `none` for a reserved register or an index outside the pages). -/
def rowAt (i : Nat) : Option (RegRow × Nat) :=
  match pageRow (i / 256) with
  | none => none
  | some _ => if i % 256 < 16 then findRow rowsHeader (i % 256) else findRow (pageRows (i / 256)) (i % 256)

/-- Whether SOFT_RESET and ENABLE can be written on a page (03 R114). -/
def softResets (p : Nat) : Bool := !([0x00, 0x01, 0x02, 0x03, 0x06].contains p)

/-- The reset value of a field at a position of its repetition. -/
def FieldRow.resetAt (f : FieldRow) (k : Nat) : Nat := f.resets.getD k (f.resets.getLastD 0)

/-- The reset value of a register: its fields' reset values; for BPn.ROLE and the like the position is the page's. -/
def regReset (i : Nat) : Word :=
  match rowAt i with
  | none => 0#32
  | some (r, k) =>
    let k := if 0x18 ≤ i / 256 ∧ i / 256 ≤ 0x1B then i / 256 - 0x18 else k
    r.fields.foldl (fun w f => w ||| fieldWord f.msb f.lsb (f.resetAt k)) 0#32

/-! ## Register storage: the one home of every register -/

/-- The stored value of register `i`. -/
def getReg (s : State) (i : Nat) : Word := (keyFind s.regs i).getD (regReset i)

/-- Store register `i`; a register at its reset value is not listed. -/
def setReg (i : Nat) (w : Word) (s : State) : State :=
  { s with regs := if w = regReset i then keyErase s.regs i else keySet s.regs i w }

/-- Bits `msb..lsb` of register `i`. -/
def regBits (s : State) (i msb lsb : Nat) : Nat := bitsOf (getReg s i) msb lsb

/-- Bit `n` of register `i`. -/
def regBit (s : State) (i n : Nat) : Bool := bitAt (getReg s i) n

/-- Replace bits `msb..lsb` of register `i`. -/
def setRegBits (i msb lsb v : Nat) (s : State) : State := setReg i (withBits (getReg s i) msb lsb v) s

/-- Set bit `n` of register `i`. -/
def setRegBit (i n : Nat) (s : State) : State := setReg i (getReg s i ||| oneBit n) s

/-- Clear bit `n` of register `i`. -/
def clearRegBit (i n : Nat) (s : State) : State := setReg i (getReg s i &&& ~~~(oneBit n)) s

/-- Add `n` to counter register `i`, wrapping. -/
def countReg (i n : Nat) (s : State) : State := setReg i (getReg s i + BitVec.ofNat 32 n) s

/-- The index of offset `off` of page `p`. -/
def pageReg (p off : Nat) : Nat := p * 256 + off

/-! ## Time -/

/-- Whole microseconds in a number of carrier cycles: 13.56 cycles to the microsecond (00 R6). -/
def cyclesUs (n : Nat) : Nat := n * 25 / 339

/-- Microseconds since State.reset. -/
def nowUs (s : State) : Nat := cyclesUs s.now

/-- Whole seconds in a number of carrier cycles. -/
def cyclesSec (n : Nat) : Nat := n / 13560000

/-- CLK.MONO: seconds since PD0 was last powered up (15 R570). -/
def mono (s : State) : Nat := cyclesSec (s.now - s.rtc.monoNow)

/-- The part of the slew spent since the counter was last set, in µs: 500 ppm of the time (15 R567). -/
def slewSpent (s : State) : Int :=
  let most := cyclesUs (s.now - s.rtc.baseNow) / 2000
  if s.rtc.slew < 0 then -((min most s.rtc.slew.natAbs : Nat) : Int) else ((min most s.rtc.slew.natAbs : Nat) : Int)

/-- The rate correction in use: none while the counter runs from the main crystal (15 R559, R566). -/
def rtcTrim (s : State) : Int := if s.rtc.lfOk then s.rtc.trim else 0

/-- The real-time counter in 1/32,768 s: the count set, plus 512/211,875 a carrier cycle with the rate correction of
15 R566 (0.1 ppm a unit), plus the slew spent. -/
def rtcCount (s : State) : Nat :=
  (((s.rtc.base + (s.now - s.rtc.baseNow) * (512 * (10000000 + rtcTrim s).toNat) / (211875 * 10000000) : Nat) : Int)
    + slewSpent s * 32768 / 1000000).toNat

/-- Set the real-time counter at this instant, with a slew outstanding in µs. -/
def rtcSet (n : Nat) (slew : Int) (s : State) : State :=
  { s with rtc := { s.rtc with base := n, baseNow := s.now, slew := slew } }

/-- The slew outstanding in µs (15 R567). -/
def slewLeft (s : State) : Int := s.rtc.slew - slewSpent s

/-- The alarm is passed: it lies within the half-range behind the counter, modulo 2^47 (15 R569). -/
def alarmPassed (s : State) : Bool :=
  (rtcCount s + 2 ^ 47 - (regBits s Reg.clkAlarmSec 31 0 * 32768 + regBits s Reg.clkAlarmSub 14 0)) % 2 ^ 47 < 2 ^ 46

/-! ## Power (01 R19, R21) -/

/-- Whether the device serves registers at all: Run, or Stop entry before PD1 goes off. -/
def live (s : State) : Bool :=
  match s.phase with
  | .run => true
  | .stopEntry _ => true
  | _ => false

/-- Whether domain `d` is on. -/
def domainOn (s : State) (d : Nat) : Bool := live s && s.power.on.getLsbD d

/-- The power domain of a page; 10 for a page outside the directory. -/
def pageDomain (p : Nat) : Nat :=
  match pageRow p with
  | some r => r.domain
  | none => 10

/-- Whether domain `d` is being switched off: new transfers to and from it are refused (15 R573). -/
def draining (s : State) (d : Nat) : Bool := s.power.draining.getLsbD d

/-- Whether the page's owning domain is on and not being switched off. -/
def pageUp (s : State) (p : Nat) : Bool := domainOn s (pageDomain p) && !(draining s (pageDomain p))

/-- Periods of 13.56 MHz from the start of a domain's switch-on to power good: 30, 60 or 40 µs (15 R572). -/
def goodTicks (d : Nat) : Nat :=
  match d with
  | 2 => 407
  | 5 => 814
  | _ => 543

/-- Domain `d` has power good and is not ready yet (15 R572; notes/assumptions/30.md). -/
def waitsReady (s : State) (d : Nat) : Bool :=
  live s && !(s.power.on.getLsbD d) && s.power.starting.getLsbD d && s.power.startedAt + goodTicks d ≤ s.now

/-- Whether a page number is in the directory (03 R147). -/
def inDirectory (p : Nat) : Bool := (pageRow p).isSome

/-! ## Events, faults, refused writes (03 R118 to R126) -/

/-- Set bit `b` of EVENT of page `p` (03 R119). -/
def raiseEvent (p b : Nat) (s : State) : State := setRegBit (pageReg p 4) b s

/-- Set fault bit `b` of page `p` with its detail: FAULT_INFO records the first fault set while FAULT reads zero
(03 R125), which also sets the page's FAULT event (R118) and ITG.EVENT.PAGE_FAULT (17 R619). -/
def raiseFault (p b detail : Nat) (s : State) : State :=
  if getReg s (pageReg p 8) = 0#32 then
    s |> setReg (pageReg p 9) (fieldWord 31 24 b ||| fieldWord 23 0 detail)
      |> setRegBit (pageReg p 8) b |> raiseEvent p 30 |> raiseEvent 0x0D 2
  else setRegBit (pageReg p 8) b s

/-- Record a refused write in WRITE_REJECT of page `p` (03 R126). -/
def rejectWrite (p : Nat) (req : Requester) (reason index : Nat) (s : State) : State :=
  let i := pageReg p 0xA
  let more := bitAt (getReg s i) 31
  s |> setReg i (fieldWord 31 31 1 ||| fieldWord 30 30 (bit01 more) ||| fieldWord 27 24 (Requester.code req)
        ||| fieldWord 23 16 reason ||| fieldWord 15 0 index)
    |> raiseEvent p 29

/-- Set sticky bit `b` of HPT.STATUS (02 R78). -/
def portSticky (b : Nat) (s : State) : State := setRegBit Reg.hptStatus b s

/-- Record an error cause and index in HPT.ERR_INFO (02 R75). -/
def portError (cause index : Nat) (s : State) : State :=
  setReg Reg.hptErrInfo (fieldWord 23 16 cause ||| fieldWord 15 0 index) s

/-- Raise a fault on a mason's MS page (13 R525). -/
def masonFault (m : Fin 5) (b detail : Nat) (s : State) : State := raiseFault (0x28 + m.val) b detail s

/-- An access by `req` to a page whose domain is off (01 R21): the host port's sticky bit, or the mason's fault. -/
def domainOffAccess (req : Requester) (s : State) : State :=
  match req with
  | .host => if live s then portSticky 3 s else s
  | .mason m => if live s then masonFault m 0 (s.masons.getD m.val MasonUnit.reset).pc s else s
  | .lintel => s

/-- A write that waits until it can be applied (01 R24, R30; 04 R177; 15 R572). -/
def holdWrite (req : Requester) (i : Nat) (w : Word) (quiet : Bool) (s : State) : State :=
  { s with txn := { s.txn with held := s.txn.held ++ [{ requester := req, index := i, word := w, quiet := quiet }] } }

/-- The island of register `i`: the class of its page (03 R112). -/
def islandOf (i : Nat) : Nat :=
  match pageRow (i / 256) with
  | some r => r.cls
  | none => 0

/-- Whether nothing bound for register `i` waits for a clock: its island has one, or its domain is off (15 R558). -/
def islandRuns (s : State) (i : Nat) : Bool :=
  match pageRow (i / 256) with
  | none => true
  | some r => s.clocks.islands.getLsbD r.cls || !(domainOn s r.domain)

/-- An item of a requester for register `i` waits in its chain: the island's clock is stopped (15 R558), or an earlier write of
the requester to the island is still held, which a later write follows (01 R24) and a read waits for (R25). -/
def crossingWaits (s : State) (req : Requester) (i : Nat) : Bool :=
  !(islandRuns s i) || s.txn.held.any (fun h => h.requester == req && islandOf h.index == islandOf i)

/-- A write to a register of a page that is not up: it waits where the domain is powered and not ready (15 R572). -/
def awayWrite (req : Requester) (i : Nat) (w : Word) (s : State) : State :=
  if waitsReady s (pageDomain (i / 256)) then holdWrite req i w false s else domainOffAccess req s

/-- The alarm fires once it is passed, not again until it is written (15 R569). -/
def alarmCheck (s : State) : State :=
  if regBit s Reg.clkRtcCtrl 31 && !s.rtc.alarmFired && alarmPassed s then
    { s with rtc := { s.rtc with alarmFired := true, alarmNow := s.now } } |> raiseEvent 0x05 3
  else s

/-- The counter is stepped to a count: any slew is discarded, the alarm compares (15 R567, R569). -/
def rtcStep (n : Nat) (s : State) : State :=
  { rtcSet n 0 s with rtc := { (rtcSet n 0 s).rtc with valid := true } } |> alarmCheck

/-! ## Free values -/

/-- The next free word (notes/assumptions/3.md). -/
def freeWordOf (s : State) : Word := Config.freeWord s.freeIndex

/-- Pass to the next free value. -/
def useFree (s : State) : State := { s with freeIndex := s.freeIndex + 1 }

/-- `n` free bytes from index `k` on. -/
def freeBytesFrom (k n : Nat) : List Byte :=
  match n with
  | 0 => []
  | m + 1 => Config.freeByte k :: freeBytesFrom (k + 1) m

/-- The next `n` free bytes. -/
def freeBytesOf (s : State) (n : Nat) : List Byte := freeBytesFrom s.freeIndex n

/-- Pass over `n` free values. -/
def useFreeN (n : Nat) (s : State) : State := { s with freeIndex := s.freeIndex + n }

/-! ## Commit conditions (04 R171) -/

/-- The event of commit condition `c` comes: transactions waiting for it have it met. -/
def conditionEvent (c : Nat) (s : State) : State :=
  { s with txn := { s.txn with ids := s.txn.ids.map (fun x =>
      if x.phase = .waiting ∧ x.cond = c then { x with met := true } else x) } }

/-- Whether at least `us` µs have passed since instant `since` (00 R6: 13.56 cycles to the microsecond). -/
def passedUs (s : State) (since us : Nat) : Bool := us * 339 ≤ (s.now - since) * 25

/-- Whether at least `ms` ms have passed since instant `since`. -/
def passedMs (s : State) (since ms : Nat) : Bool := since + ms * 13560 ≤ s.now

/-! ## Result queues (02 R68, 14 R554 to R557) -/

/-- The queue at a POP register. -/
def queueAt (s : State) (pop : Nat) : RQueue := keyGet s.queues pop RQueue.empty

/-- Replace the queue at a POP register. -/
def setQueue (pop : Nat) (q : RQueue) (s : State) : State := { s with queues := keySet s.queues pop q }

/-- The capacity in entries of each result queue (07 R317, 08 R351, 09 R358, 11 R444, 12 R485); 0 for an index that is
no POP register (02 R75 cause 0x05). -/
def queueCap (pop : Nat) : Nat :=
  match pop with
  | 0x1411 => 64
  | 0x1510 => 2048
  | 0x181C => 128
  | 0x191C => 128
  | 0x1A1C => 128
  | 0x1B1C => 128
  | 0x1C30 => 1024
  | 0x1C32 => 256
  | 0x1D30 => 128
  | 0x2213 => 64
  | 0x0A12 => 32
  | _ => 0

/-- Number of entries a reader sees. -/
def queueCount (s : State) (pop : Nat) : Nat := (queueAt s pop).entries.length

/-- Entries that can still be written or reserved. -/
def queueFree (s : State) (pop : Nat) : Nat :=
  queueCap pop - ((queueAt s pop).entries.length + (queueAt s pop).reserved)

/-- Append an entry (the writer never writes a full queue, 14 R555): the number it carries counts entries written. -/
def queuePush (pop : Nat) (words : List Word) (s : State) : State :=
  let q := queueAt s pop
  if q.entries.length < queueCap pop then
    let es := q.entries ++ [{ seq := q.nextSeq % 2 ^ 32, poison := false, words := words }]
    setQueue pop { q with entries := es, high := max q.high es.length, nextSeq := q.nextSeq + 1 } s
  else s

/-- Reserve `n` entries. -/
def queueReserve (pop n : Nat) (s : State) : State :=
  let q := queueAt s pop
  setQueue pop { q with reserved := q.reserved + n } s

/-- Give back `n` reserved entries. -/
def queueUnreserve (pop n : Nat) (s : State) : State :=
  let q := queueAt s pop
  setQueue pop { q with reserved := q.reserved - n } s

/-- Empty the queue without restarting its numbers (02 R68: a soft reset). -/
def queueClear (pop : Nat) (s : State) : State :=
  let q := queueAt s pop
  setQueue pop { q with entries := [], reserved := 0 } s

/-- The queue as at reset (02 R68: device reset, wake, switch-on). -/
def queueReset (pop : Nat) (s : State) : State := { s with queues := keyErase s.queues pop }

/-- Take the entry at the head. -/
def queuePop (pop : Nat) (s : State) : State :=
  let q := queueAt s pop
  setQueue pop { q with entries := q.entries.tail } s

/-! ## Snapshots (03 R127 to R129) -/

/-- The key of a captured register. -/
def snapKey (set i : Nat) : Nat := set * 65536 + i

/-- SNAP_CTRL of a page and set. -/
def snapCtlAt (s : State) (p set : Nat) : SnapCtl := keyGet s.snapCtl (p * 4 + set) { seq := 0, group := 0xFF }

/-- Drop all snapshots of a page, of every set (03 R129). -/
def clearSnaps (p : Nat) (s : State) : State :=
  { s with snaps := s.snaps.filter (fun x => !(x.1 % 65536 / 256 == p)) }

/-! ## Masons bound to a decryption (12 R476) -/

/-- The decryptions a mason is bound to. -/
def boundJobs (s : State) (m : Fin 5) : List Nat := (s.cipher.bound.filter (fun b => b.1 == m.val)).map (·.2)

/-- Hold an effect of a bound mason (12 R476). -/
def holdEffect (m : Fin 5) (e : HeldEffect) (s : State) : State :=
  { s with cipher := { s.cipher with held := s.cipher.held ++ [{ mason := m, jobs := boundJobs s m, effect := e }] } }

/-- Effects a mason holds. -/
def heldBy (s : State) (m : Fin 5) : List HeldItem := s.cipher.held.filter (fun h => h.mason == m)

/-- Whether a mason bound to a decryption can hold one more effect (12 R476). -/
def canHold (s : State) (m : Fin 5) : Bool := (heldBy s m).length < 64

/-- Whether a mason is bound to a decryption. -/
def isBound (s : State) (m : Fin 5) : Bool := !(boundJobs s m).isEmpty

/-- A write as its requester issues it: a bound mason's is held for the verdict, the 65th stalling it (12 R476); any other
is carried out by `f`. -/
def issued (req : Requester) (i : Nat) (w : Word) (f : State → State) (s : State) : State :=
  match req with
  | .mason m =>
    if !(isBound s m) then f s
    else if canHold s m then holdEffect m (.write (BitVec.ofNat 16 i) w) s else s
  | _ => f s

/-! ## Doors (03 R131 to R138, R659) -/

/-- Door outcome codes (03 R138). -/
abbrev Oc.none : Nat := 0x00
abbrev Oc.accepted : Nat := 0x01
abbrev Oc.done : Nat := 0x02
abbrev Oc.deferred : Nat := 0x03
abbrev Oc.notRun : Nat := 0x04
abbrev Oc.preempted : Nat := 0x05
abbrev Oc.queueFull : Nat := 0x06
abbrev Oc.pageDisabled : Nat := 0x07
abbrev Oc.badArg : Nat := 0x08
abbrev Oc.tagMismatch : Nat := 0x09
abbrev Oc.resultFull : Nat := 0x0A
abbrev Oc.dependentOn : Nat := 0x0B
abbrev Oc.failed : Nat := 0x0C
abbrev Oc.pageReset : Nat := 0x0D
abbrev Oc.domainOff : Nat := 0x0E

/-- Whether an outcome is intermediate (03 R138): ACCEPTED or DEFERRED. -/
def outcomeRuns (oc : Nat) : Bool := oc == 0x01 || oc == 0x03

/-- The door view of a page and set. -/
def viewAt (s : State) (p set : Nat) : DoorView :=
  (s.doors.views.find? (fun v => v.page == p && v.set == set)).getD
    { page := p, set := set, tag := 0, cmd := 0, dup := false, outcome := 0, ticket := 0, follows := 0 }

/-- Replace the door view of a page and set. -/
def setView (v : DoorView) (s : State) : State :=
  { s with doors := { s.doors with
      views := v :: s.doors.views.filter (fun u => !(u.page == v.page && u.set == v.set)) } }

/-- Give command `id` the outcome `oc` in every view and record that follows it (03 R136). -/
def showOutcome (id oc : Nat) (s : State) : State :=
  { s with doors := { s.doors with
      views := s.doors.views.map (fun v => if v.follows = id then { v with outcome := oc } else v),
      recs := s.doors.recs.map (fun r => if r.id = id then { r with outcome := oc } else r) } }

/-- The accepted command with number `id`. -/
def runningCmd (s : State) (id : Nat) : Option RunCmd := s.doors.running.find? (fun c => c.id == id)

/-- Command `id` reaches the final outcome `oc`: it is shown, the command is no longer in progress, and DOOR_DONE of
its page is set (03 R118, R136). -/
def finishCmd (id oc : Nat) (s : State) : State :=
  match runningCmd s id with
  | none => s
  | some c =>
    let s := showOutcome id oc s
    { s with doors := { s.doors with running := s.doors.running.filter (fun d => d.id != id) } }
      |> raiseEvent c.page 31

/-- The self-tests and calibrations of page `p` that are still in progress (03 R140). -/
def testsOf (s : State) (p : Nat) : List TestCmd :=
  s.doors.tests.filter (fun t => t.page == p && (runningCmd s t.id).isSome)

/-- A self-test or calibration of page `p` runs. -/
def testRuns (s : State) (p : Nat) : Bool := (testsOf s p).any (·.started)

/-- An URGENT test of page `p` waits for its frame boundary (03 R657). -/
def urgentWaits (s : State) (p : Nat) : Bool := (testsOf s p).any (fun t => t.urgent && !t.started)

/-- Finish all commands accepted on page `p` that satisfy `f`, with the outcome `oc`. -/
def finishWhere (f : RunCmd → Bool) (oc : Nat) (s : State) : State :=
  ((s.doors.running.filter f).map (·.id)).foldl (fun t id => finishCmd id oc t) s

/-- The remembered command of requester `req` with `tag` at page `p` (03 R134, R135). -/
def remembered (s : State) (p : Nat) (req : Requester) (tag : Nat) : Option DoorRec :=
  if tag = 0 then none
  else s.doors.recs.find? (fun r => r.page == p && r.requester == req && bitsOf r.word 31 24 == tag)

/-- Remember an accepted command: the last 16 of the page are kept (03 R134). -/
def remember (r : DoorRec) (s : State) : State :=
  let mine := s.doors.recs.filter (fun x => x.page == r.page)
  let keep := if mine.length < 16 then s.doors.recs
    else match mine.head? with
      | none => s.doors.recs
      | some o => s.doors.recs.filter (fun x => x.id != o.id)
  { s with doors := { s.doors with recs := keep ++ [r] } }

/-- The next ticket of a series (03 R141): 1 first, 1 after 65,535. -/
def nextTicket (s : State) (key : Nat) : Nat := keyGet s.doors.tickets key 1

/-- Pass to the next ticket of a series. -/
def useTicket (key : Nat) (s : State) : State :=
  let t := nextTicket s key
  { s with doors := { s.doors with tickets := keySet s.doors.tickets key (if t = 0xFFFF then 1 else t + 1) } }

/-- A door word that meets a refusal shows it and sets DOOR_DONE (03 R118, R138); it is not remembered (R134). -/
def refuseDoor (req : Requester) (p : Nat) (word : Word) (oc : Nat) (s : State) : State :=
  s |> setView { page := p, set := Requester.set req, tag := bitsOf word 31 24, cmd := bitsOf word 23 16,
                 dup := false, outcome := oc, ticket := 0, follows := 0 }
    |> raiseEvent p 31

/-- Accept a door word: number it, show ACCEPTED, remember it if it has a tag (03 R134, R138). -/
def acceptDoor (req : Requester) (p : Nat) (word : Word) (ticket : Nat) (s : State) : State :=
  let id := s.doors.nextId
  let s := { s with doors := { s.doors with
              nextId := id + 1
              running := s.doors.running ++
                [{ id := id, page := p, requester := req, word := word, ticket := ticket }] } }
  let s := setView { page := p, set := Requester.set req, tag := bitsOf word 31 24, cmd := bitsOf word 23 16,
                     dup := false, outcome := Oc.accepted, ticket := ticket % 256, follows := id } s
  if bitsOf word 31 24 = 0 then s
  else remember { page := p, requester := req, word := word, outcome := Oc.accepted, ticket := ticket, id := id } s

/-- A door word whose tag matches remembered command `r` (03 R135): an equal word shows that command's outcome, a
differing one TAG_MISMATCH; DOOR_DONE is set when what it shows is final (R118). -/
def tagMatch (req : Requester) (p : Nat) (word : Word) (r : DoorRec) (s : State) : State :=
  let same := r.word = word
  let oc := if same then r.outcome else Oc.tagMismatch
  let s := setView { page := p, set := Requester.set req, tag := bitsOf word 31 24, cmd := bitsOf word 23 16,
                     dup := true, outcome := oc, ticket := if same then r.ticket % 256 else 0,
                     follows := if same then r.id else 0 } s
  if outcomeRuns oc then s else raiseEvent p 31 s

/-- Door commands on every page but PWR end with DOMAIN_OFF during Stop entry (15 R575). -/
def stopEntryRefuses (s : State) (p : Nat) : Bool :=
  match s.phase with
  | .stopEntry _ => !(p == 0x06)
  | _ => false

/-- The firmware mason of a page's island is STOPPED: its doors refuse every command (17 R613, R620). -/
def firmwareDown (s : State) (p : Nat) : Bool :=
  match pageRow p with
  | none => false
  | some r => 3 ≤ r.cls && r.cls ≤ 5 && (s.masons.getD (r.cls - 2) MasonUnit.reset).state == .stopped

/-- Whether the page is enabled (03 R115), and its firmware runs. -/
def pageEnabled (s : State) (p : Nat) : Bool := regBit s (pageReg p 2) 0 && !(firmwareDown s p)

/-- Length of the descriptor in Mortar that a door command reads at 16 times its argument; 0 where it has none (02 R90, 07
R287, 11 R434, 12 R460 to R482, 16 R588). -/
def doorDesc (p c : Nat) : Nat :=
  match p with
  | 0x04 => if c = 0x10 ∨ c = 0x11 then 16 else 0
  | 0x0A => if c = 0x10 ∨ c = 0x11 ∨ c = 0x20 then 48 else 0
  | 0x0B =>
    if c = 0x10 then 32 else if c = 0x11 then 160 else if c = 0x12 then 104 else if c = 0x13 then 8
    else if c = 0x14 then 4 else 0
  | 0x0E => if c = 0x20 then 64 else 0
  | 0x14 => if c = 0x10 then 16 else 0
  | 0x15 => if c = 0x10 then 32 else 0
  | 0x22 => if c = 0x10 then 16 else 0
  | _ => 0

/-- A door write waits until the bank of its descriptor is re-initialised (01 R30). -/
def doorWaits (s : State) (p : Nat) (word : Word) : Bool :=
  let n := doorDesc p (bitsOf word 23 16)
  0 < n && (s.mem.bank0Busy || (0x100000 < 16 * bitsOf word 15 0 + n && s.mem.bank1Busy
    && (domainOn s 8 || waitsReady s 8)))

/-- A door write (03 R131 to R138) whose command code the page defines, in the order of R659: the tag rule, then
PAGE_DISABLED, then `refusal` (which the caller orders by R659), then acceptance, with ticket series `series` if the
command produces results, and `run` for what the accepted command does at once. A page that is off, and an MS page while
the debug lock fuse is blown (12 R483), discard the write; a page that is not ready yet (15 R572), and a descriptor's bank
that is being re-initialised (01 R30), hold it. -/
def doorWrite (req : Requester) (p : Nat) (word : Word) (refusal : Option Nat) (series : Option Nat)
    (run : Nat → Nat → State → State) (s : State) : State :=
  if !(pageUp s p) then awayWrite req (pageReg p 0x0D) word s
  else if doorWaits s p word then holdWrite req (pageReg p 0x0D) word false s
  else if 0x28 ≤ p && p ≤ 0x2C && s.ident.locks.getLsbD 1 then (if req = .host then portSticky 4 s else s)
  else match remembered s p req (bitsOf word 31 24) with
  | some r => tagMatch req p word r s
  | none =>
    if stopEntryRefuses s p then refuseDoor req p word Oc.domainOff s
    else if !(pageEnabled s p) then refuseDoor req p word Oc.pageDisabled s
    else match refusal with
    | some oc => refuseDoor req p word oc s
    | none =>
      let ticket := match series with
        | some k => nextTicket s k
        | none => 0
      let id := s.doors.nextId
      let s := match series with
        | some k => useTicket k s
        | none => s
      run id ticket (acceptDoor req p word ticket s)

/-- A door command as its requester issues it: behind its held writes to the island (01 R24), and not before a verdict its
mason is bound to (12 R476). -/
def doorIssue (p : Nat) (f : Requester → Word → State → State) (req : Requester) (word : Word) (s : State) : State :=
  issued req (pageReg p 0x0D) word (fun t =>
    if crossingWaits t req (pageReg p 0x0D) then holdWrite req (pageReg p 0x0D) word false t else f req word t) s

/-- The door word of a command (03 R131). -/
def doorWord (tag : Byte) (cmd : Nat) (arg : BitVec 16) : Word :=
  fieldWord 31 24 tag.toNat ||| fieldWord 23 16 cmd ||| fieldWord 15 0 arg.toNat

/-- The first refusal of a list in the order of R659. -/
def firstRefusal (l : List (Bool × Nat)) : Option Nat :=
  match l with
  | [] => none
  | (b, oc) :: t => if b then some oc else firstRefusal t

/-! ## Result blocks (03 R141 to R146) -/

/-- The result block of a page: index of its header, number of data registers, index of RESULT_RELEASE. -/
def resultBlock (p : Nat) : Option (Nat × Nat × Nat) :=
  match p with
  | 0x10 => some (0x1040, 14, 0x104F)
  | 0x0B => some (0x0B30, 16, 0x0B41)
  | 0x18 => some (0x1830, 2, 0x1833)
  | 0x19 => some (0x1930, 2, 0x1933)
  | 0x1A => some (0x1A30, 2, 0x1A33)
  | 0x1B => some (0x1B30, 2, 0x1B33)
  | _ => none

/-- Results of a page awaiting release, oldest first. -/
def resultsOf (s : State) (p : Nat) : List ResultEntry := s.doors.results.filter (fun r => r.page == p)

/-- Deliver a result (03 R142). -/
def deliverResult (r : ResultEntry) (s : State) : State :=
  { s with doors := { s.doors with results := s.doors.results ++ [r] } }

/-- A page holds four results that await release, counting commands in progress that will produce one (03 R145). -/
def resultFull (s : State) (p : Nat) (cmds : List Nat) : Bool :=
  4 ≤ (resultsOf s p).length +
    (s.doors.running.filter (fun c => c.page == p && cmds.contains (bitsOf c.word 23 16))).length

/-- Remove the shown result of page `p`. -/
def dropResult (rs : List ResultEntry) (p : Nat) : List ResultEntry :=
  match rs with
  | [] => []
  | r :: t => if r.page = p then t else r :: dropResult t p

/-- The word of a result register: header or data (03 R142, R144); `none` where the index is none of them. -/
def resultView (s : State) (i : Nat) : Option Word :=
  match resultBlock (i / 256) with
  | none => none
  | some (h, n, _) =>
    if i = h then
      match resultsOf s (i / 256) with
      | [] => some 0#32
      | r :: _ => some (fieldWord 31 31 1 ||| fieldWord 30 30 (bit01 r.poison) ||| fieldWord 15 0 r.ticket)
    else if h < i ∧ i ≤ h + n then
      match resultsOf s (i / 256) with
      | [] => some 0#32
      | r :: _ => some (r.words.getD (i - h - 1) 0#32)
    else none

/-! ## Resetting pages -/

/-- Return the page-specific registers of page `p` to their reset values, keeping those that satisfy `keep`. -/
def resetPageRegs (p : Nat) (keep : Nat → Bool) (s : State) : State :=
  { s with regs := s.regs.filter (fun x => !(x.1 / 256 == p && 16 ≤ x.1 % 256) || keep x.1) }

/-- Clear the header registers of page `p` that a soft reset clears: EVENT, FAULT, FAULT_INFO, WRITE_REJECT, snapshots
and door tag histories (03 R116). -/
def clearHeader (p : Nat) (s : State) : State :=
  { s with regs := s.regs.filter (fun x => !(x.1 == pageReg p 4 || x.1 == pageReg p 8 || x.1 == pageReg p 9
                    || x.1 == pageReg p 0xA)),
           doors := { s.doors with recs := s.doors.recs.filter (fun r => !(r.page == p)) } }
    |> clearSnaps p

/-- Page `p` as after its domain was off: every register, view, record, result and snapshot of it at reset (03 R137,
R146, 01 R21), but for PAGE_CTRL.LOCK, which only a device reset clears (03 R114, R117). -/
def wipePage (p : Nat) (s : State) : State :=
  let locked := regBit s (pageReg p 2) 31
  let s := { s with
           regs := s.regs.filter (fun x => !(x.1 / 256 == p)),
           snapCtl := s.snapCtl.filter (fun x => !(x.1 / 4 == p)),
           doors := { s.doors with
             views := s.doors.views.filter (fun v => !(v.page == p)),
             recs := s.doors.recs.filter (fun r => !(r.page == p)),
             running := s.doors.running.filter (fun r => !(r.page == p)),
             tickets := s.doors.tickets.filter (fun t => !(t.1 == p)),
             tests := s.doors.tests.filter (fun t => !(t.page == p)),
             results := s.doors.results.filter (fun r => !(r.page == p)) } }
    |> clearSnaps p
  if locked then setRegBit (pageReg p 2) 31 s else s

/-- The Run baselines of card detection are learned again (07 R313). -/
def cardRelearn (s : State) : State :=
  { s with card := { s.card with learn := 4, overs := 0, hold := false, under := 0, above := false } }

end Sys2Proof.Machine
end

