-- ==== Sys2Proof/Machine/MemOps.lean ====
section
/-!
DEFINITION. Sys2Proof/Machine/MemOps.lean: the memories: bytes, words, the symbol code with its correction and
poison marks (17 R607 to R610), and the accesses of requesters and engines to Mortar (01 R28 to R30, 02 R64, R65).
-/
namespace Sys2Proof.Machine

/-- What an address that nothing has written reads as (notes/assumptions/7.md). -/
def emptyByte : Byte := 0#8

/-- The byte at an address. -/
def memGet (m : Memory) (a : Nat) : Byte := keyGet m a emptyByte

/-- The memory with one byte written; the empty byte is not listed. -/
def memSet (m : Memory) (a : Nat) (b : Byte) : Memory :=
  if b = emptyByte then keyErase m a else keySet m a b

/-- The canonical form of a memory. -/
def Memory.wf (m : Memory) : Bool := keysRise m && m.all (fun c => !(c.2 == emptyByte))

/-- `n` bytes from an address. -/
def memBytes (m : Memory) (a n : Nat) : List Byte :=
  match n with
  | 0 => []
  | k + 1 => memGet m a :: memBytes m (a + 1) k

/-- The memory with bytes written from an address on. -/
def memPut (m : Memory) (a : Nat) (bs : List Byte) : Memory :=
  match bs with
  | [] => m
  | b :: t => memPut (memSet m a b) (a + 1) t

/-- The 32-bit word at an address, little-endian. -/
def memWord (m : Memory) (a : Nat) : Word := leWord (memBytes m a 4)

/-- The memory with a 32-bit word written, little-endian. -/
def memPutWord (m : Memory) (a : Nat) (w : Word) : Memory := memPut m a (leBytes 4 w.toNat)

/-- First byte address past Mortar (01 R28). -/
def mortarEnd : Nat := 0x200000

/-- Whether an address lies in bank 1 (01 R28). -/
def inBank1 (a : Nat) : Bool := 0x100000 ≤ a

/-- Whether the bank of an address is off: bank 1 while PD8 is off (01 R29). -/
def bankOff (s : State) (a : Nat) : Bool := inBank1 a && !(waitsReady s 8) && (!(domainOn s 8) || draining s 8)

/-- Whether the bank of an address is being re-initialised (01 R30). -/
def bankBusy (s : State) (a : Nat) : Bool := if inBank1 a then s.mem.bank1Busy else s.mem.bank0Busy

/-- Whether a byte range reaches into a bank that is being re-initialised: accesses to it are held (01 R30). -/
def rangeBusy (s : State) (a n : Nat) : Bool :=
  0 < n && ((a < 0x100000 && s.mem.bank0Busy) || (0x100000 < a + n && s.mem.bank1Busy && !(bankOff s 0x100000)))

/-- Bytes of a range that lie before bank 1, or all of them while bank 1 is on. -/
def onBytes (s : State) (a n : Nat) : Nat := if bankOff s 0x100000 then min n (0x100000 - a) else n

/-- Words of 8 bytes of a range that lie in bank 1 while it is off. -/
def offWords (s : State) (a n : Nat) : Nat :=
  if onBytes s a n = n then 0 else (a + n - 1) / 8 - max (a / 8) 0x20000 + 1

/-- Whether Mortar word `w` (byte address / 8) is marked poisoned. -/
def isPoison (s : State) (w : Nat) : Bool := s.mem.poison.contains w

/-- Replace the memories. -/
def setMem (m : Mem) (s : State) : State := { s with mem := m }

/-- A data word found uncorrectable (17 R610): poisoned where it lies, counted, its address recorded, ITG.FAULT.DATA. -/
def markPoison (w : Nat) (s : State) : State :=
  s |> setMem { s.mem with poison := w :: s.mem.poison.filter (· != w), symErr := keyErase s.mem.symErr w }
    |> countReg Reg.itgMortarUncorr 1
    |> setReg Reg.itgErrAddr (fieldWord 31 31 1 ||| fieldWord 20 0 (8 * w))
    |> raiseFault 0x0D 0 (8 * w)

/-- An uncorrectable MRAM word (17 R610). -/
def markMramPoison (w : Nat) (s : State) : State :=
  s |> setMem { s.mem with mramPoison := w :: s.mem.mramPoison.filter (· != w) }
    |> countReg Reg.itgMramUncorr 1
    |> setReg Reg.itgErrAddr (fieldWord 31 31 1 ||| fieldWord 30 30 1 ||| fieldWord 20 0 (8 * w))
    |> raiseFault 0x0D 0 (0x800000 + 8 * w)

/-- Invert the data symbols of a Mortar word named by a mask: symbol 0 is the low half of its first byte, symbol 1
the high half (17 R607). -/
def flipSymbols (m : Memory) (w mask : Nat) : Memory :=
  memSet m (8 * w) (memGet m (8 * w) ^^^ (BitVec.ofNat 8 ((mask % 2) * 0x0F + (mask / 2 % 2) * 0xF0)))

/-- A read of Mortar word `w` meets the symbol code: errors in one symbol are corrected and written back, errors in
two poison the word (17 R608 to R610). -/
def settleWord (w : Nat) (s : State) : State :=
  let mask := keyGet s.mem.symErr w 0
  if mask = 0 then s
  else if mask = 3 then markPoison w s
  else s |> setMem { s.mem with mortar := flipSymbols s.mem.mortar w mask, symErr := keyErase s.mem.symErr w }
         |> countReg Reg.itgMortarCorrected 1

/-- Settle `n` successive Mortar words. -/
def settleWords (w n : Nat) (s : State) : State :=
  match n with
  | 0 => s
  | k + 1 => settleWords (w + 1) k (settleWord w s)

/-- Count the words of a range in bank 1 while it is off, each an access refused (01 R29). -/
def countOff (a n : Nat) (s : State) : State :=
  if offWords s a n = 0 then s else countReg Reg.itgBank1Off (offWords s a n) s

/-- An engine reads a byte range: each word of a bank that is on meets the symbol code, each of bank 1 while it is off is
counted (01 R29). -/
def settleRange (a n : Nat) (s : State) : State :=
  let k := onBytes s a n
  if n = 0 ∨ rangeBusy s a n then s
  else (if k = 0 then s else settleWords (a / 8) ((a + k - 1) / 8 - a / 8 + 1) s) |> countOff a n

/-- The 32-bit Mortar word at byte address `a`. -/
def mortarWord (s : State) (a : Nat) : Word := memWord s.mem.mortar a

/-- Bytes of Mortar, as an engine reads them after settling: zeros from bank 1 while it is off (01 R29). -/
def mortarBytes (s : State) (a n : Nat) : List Byte :=
  memBytes s.mem.mortar a (onBytes s a n) ++ List.replicate (n - onBytes s a n) 0#8

/-- Whether any word of a byte range reads with the poison tag: marked so, or in bank 1 while it is off (01 R29). -/
def rangePoison (s : State) (a n : Nat) : Bool :=
  onBytes s a n != n || s.mem.poison.any (fun w => a / 8 ≤ w && 8 * w < a + n)

/-- Write one byte, unless its word is poisoned (17 R610). -/
def mortarPutByte (a : Nat) (b : Byte) (s : State) : State :=
  if isPoison s (a / 8) then s else setMem { s.mem with mortar := memSet s.mem.mortar a b } s

/-- A word about to be written whole loses its marks (17 R610). -/
def clearMarks (w : Nat) (s : State) : State :=
  setMem { s.mem with poison := s.mem.poison.filter (· != w), symErr := keyErase s.mem.symErr w } s

/-- Write bytes one by one. -/
def mortarPutBytes (a : Nat) (bs : List Byte) (s : State) : State :=
  match bs with
  | [] => s
  | b :: t => mortarPutBytes (a + 1) t (mortarPutByte a b s)

/-- Clear the marks of `n` words from word `w` on. -/
def clearMarksN (w n : Nat) (s : State) : State :=
  match n with
  | 0 => s
  | k + 1 => clearMarksN (w + 1) k (clearMarks w s)

/-- A write of Mortar bytes waits until its bank is re-initialised (01 R30). -/
def waitBank (who : Option Requester) (a : Nat) (bs : List Byte) (idx : Nat) (s : State) : State :=
  setMem { s.mem with waits := s.mem.waits ++ [{ who := who, addr := a, bytes := bs, idx := idx }] } s

/-- A write by an engine: the words it covers whole lose their marks; the rest merge (17 R610). A word it covers in
part is settled first. It waits while a bank is re-initialised (01 R30); what falls in bank 1 while it is off is discarded
and counted (R29). -/
def engineWrite (a : Nat) (bs : List Byte) (s : State) : State :=
  if rangeBusy s a bs.length then waitBank none a bs 0 s
  else
    let n := onBytes s a bs.length
    let first := (a + 7) / 8
    let last := (a + n) / 8
    s |> clearMarksN first (last - first) |> settleRange a bs.length |> mortarPutBytes a (bs.take n)

/-- A requester's write of one 32-bit half, with alignment dropped (02 R64, 13 R494): merged with the stored other
half, discarded on a poisoned word. The flag says it was discarded. -/
def halfWrite (a : Nat) (w : Word) (s : State) : State × Bool :=
  let s := settleWord (a / 8) s
  if isPoison s (a / 8) then (s, true)
  else (mortarPutBytes (a / 4 * 4) (leBytes 4 w.toNat) s, false)

/-- A requester's read of one 32-bit half (02 R65): the data, and whether the word is poisoned. -/
def halfRead (a : Nat) (s : State) : State × Word × Bool :=
  let s := settleWord (a / 8) s
  (s, mortarWord s (a / 4 * 4), isPoison s (a / 8))

/-- Count an access to bank 1 while PD8 is off (01 R29). -/
def countBankOff (s : State) : State := countReg Reg.itgBank1Off 1 s

/-- Bytes of MRAM. -/
def mramBytes (s : State) (a n : Nat) : List Byte := memBytes s.mem.mram a n

/-- Write MRAM bytes; a word written whole loses its poison mark. -/
def mramWrite (a : Nat) (bs : List Byte) (s : State) : State :=
  let first := (a + 7) / 8
  let last := (a + bs.length) / 8
  setMem { s.mem with mram := memPut s.mem.mram a bs,
                      mramPoison := s.mem.mramPoison.filter (fun w => !(first ≤ w && w < last)) } s

/-- Whether any MRAM word of a byte range is poisoned. -/
def mramRangePoison (s : State) (a n : Nat) : Bool :=
  s.mem.mramPoison.any (fun w => a / 8 ≤ w && 8 * w < a + n)

/-- Drop every stored byte of a Mortar bank and its marks, as after its domain was off: the contents are undefined
(01 R30), and the model's unlisted byte stands for them (notes/assumptions/7.md). Its sweep starts again (17 R612). -/
def wipeBank (one : Bool) (s : State) : State :=
  setMem { s.mem with
    mortar := s.mem.mortar.filter (fun c => !(inBank1 c.1 == one)),
    poison := s.mem.poison.filter (fun w => !(inBank1 (8 * w) == one)),
    symErr := s.mem.symErr.filter (fun e => !(inBank1 (8 * e.1) == one)),
    waits := s.mem.waits.filter (fun e => !(inBank1 e.addr == one)),
    scrub0 := if one then s.mem.scrub0 else 0,
    scrub1 := if one then 0 else s.mem.scrub1 } s

/-- A CRC-32C step over one bit (reflected polynomial 0x82F6_3B78). -/
def crc32cBits (n : Nat) (c : Word) : Word :=
  match n with
  | 0 => c
  | k + 1 => crc32cBits k (if c.getLsbD 0 then (c >>> 1) ^^^ 0x82F63B78#32 else c >>> 1)

/-- CRC-32C of a byte string (18 R628, 01 R32): initial value and final XOR of all ones. -/
def crc32c (bs : List Byte) : Word :=
  ~~~(bs.foldl (fun c b => crc32cBits 8 (c ^^^ BitVec.ofNat 32 b.toNat)) 0xFFFFFFFF#32)

end Sys2Proof.Machine
end

