-- ==== Sys2Proof/Machine/MasonOps.lean ====
section
/-!
DEFINITION. Sys2Proof/Machine/MasonOps.lean: a mason apart from its instructions (13): its stacks, loop levels,
products, special registers, program words, how an instruction ends, halts, mason reset, the loading of its program, and
what its MS page shows.
-/
namespace Sys2Proof.Machine

/-- Mason `m`. -/
def masonAt (s : State) (m : Fin 5) : MasonUnit := s.masons.getD m.val MasonUnit.reset

/-- Replace mason `m`. -/
def setMason (m : Fin 5) (u : MasonUnit) (s : State) : State := { s with masons := s.masons.set m.val u }

/-- MSn.STATUS.STATE codes (13 R522). -/
def MasonState.code (x : MasonState) : Nat :=
  match x with
  | .reset => 0
  | .loading => 1
  | .noImage => 2
  | .running => 3
  | .waiting => 4
  | .halted => 5
  | .stopped => 6

/-- The debug lock fuse is blown (12 R483). -/
def debugLocked (s : State) : Bool := s.ident.locks.getLsbD 1

/-! ## Program words (13 R490, R521) -/

/-- What fills the program words behind an image (13 R521). -/
def fillerWord : BitVec 14 := 0x0FFF#14

/-- The word of program memory of mason `m` at an address (13 R488, R490): masons 0 to 3 run firmware that is not
specified. -/
def storedWord (s : State) (m : Fin 5) (a : Nat) : BitVec 14 :=
  if m = 4 then keyGet (masonAt s 4).prog a fillerWord else Config.firmwareWord s.bootUnit.fwIndex m.val a

/-- In Recovery mason 0 fetches its instructions through the execute-in-place window (02 R88, 18 R631). -/
def fetchesFlash (s : State) (m : Fin 5) : Bool := m == 0 && s.boot == .recovery

/-- The flash address of a program word of the recovery package: behind its header of 16 bytes (13 R520, 18 R631). -/
def packageAddr (a : Nat) : Nat := 16 + 2 * a

/-- The program word in the buffered line that holds it, bits 15..14 of its halfword ignored (02 R88). -/
def flashWord (s : State) (a : Nat) : Option (BitVec 14) :=
  (keyFind s.port.lines (packageAddr a / 64)).map (fun d =>
    BitVec.ofNat 14 (leNat ((d.drop (packageAddr a % 64)).take 2)))

/-- Whether the window is held busy by a flash door frame (02 R89, R92). -/
def flashOnPort (s : State) : Bool :=
  match s.port.flash with
  | some j => j.onPort
  | none => false

/-- Whether mason `m` can fetch the program word at an address: at once from program memory; through the window when it is
enabled, not held busy, and the line is buffered (02 R86 to R89). -/
def fetched (s : State) (m : Fin 5) (a : Nat) : Bool :=
  !(fetchesFlash s m) || (regBit s Reg.mptXipCtrl 31 && !(flashOnPort s) && (flashWord s a).isSome)

/-- The program word of mason `m` at an address. -/
def progWord (s : State) (m : Fin 5) (a : Nat) : BitVec 14 :=
  if fetchesFlash s m then (flashWord s a).getD (Config.firmwareWord s.bootUnit.fwIndex 4 a) else storedWord s m a

/-- Words an instruction takes: two for class 0b11 (13 R502). -/
def wordsOf (w : BitVec 14) : Nat := if w.toNat / 4096 = 3 then 2 else 1

/-- Whether the words of an instruction stand at an address; none runs past 0x3FFF. -/
def wordsAt (s : State) (m : Fin 5) (a : Nat) (ws : List (BitVec 14)) : Bool :=
  match ws with
  | [] => true
  | w :: t => a < 0x4000 && fetched s m a && progWord s m a == w && wordsAt s m (a + 1) t

/-! ## Stacks -/

/-- Operand stack entry `i`, 0 the top. -/
def MasonUnit.top (u : MasonUnit) (i : Nat) : Word := if i < u.depth then u.stack.getD (u.depth - 1 - i) 0#32 else 0#32

/-- Push onto the operand stack. -/
def MasonUnit.push (u : MasonUnit) (w : Word) : MasonUnit :=
  { u with stack := u.stack.set u.depth w, depth := u.depth + 1 }

/-- Push a list, its last element ending on top. -/
def MasonUnit.pushAll (u : MasonUnit) (ws : List Word) : MasonUnit := ws.foldl MasonUnit.push u

/-- Drop `n` operand stack entries; the cells keep what they held (13 R522, SPR_DATA). -/
def MasonUnit.pop (u : MasonUnit) (n : Nat) : MasonUnit := { u with depth := u.depth - n }

/-- Return stack entry `i`, 0 the top. -/
def MasonUnit.rtop (u : MasonUnit) (i : Nat) : Word :=
  if i < u.rdepth then u.rstack.getD (u.rdepth - 1 - i) 0#32 else 0#32

/-- Push onto the return stack. -/
def MasonUnit.rpush (u : MasonUnit) (w : Word) : MasonUnit :=
  { u with rstack := u.rstack.set u.rdepth w, rdepth := u.rdepth + 1 }

/-- Pointer register p. -/
def MasonUnit.pt (u : MasonUnit) (p : Nat) : Word := u.pts.getD p 0#32

/-- Set pointer register p. -/
def MasonUnit.setPt (u : MasonUnit) (p : Nat) (w : Word) : MasonUnit := { u with pts := u.pts.set p w }

/-! ## Loop levels (13 R511, R514) -/

/-- Whether an address is the LE of an active level that is checked. -/
def MasonUnit.atLe (u : MasonUnit) (a : Nat) : Bool :=
  (List.range 4).any (fun i => u.lbase ≤ i && i < u.ld && u.le.getD i 0 == a)

/-- The instruction at `a` completes (13 R511): the innermost level whose LE it is counts down; the loop start when its
count is not spent, else the next level out with the same LE is checked. -/
def loopEnd (fuel : Nat) (a : Nat) (u : MasonUnit) : MasonUnit × Option Nat :=
  match fuel with
  | 0 => (u, none)
  | k + 1 =>
    if u.lbase < u.ld ∧ u.le.getD (u.ld - 1) 0 = a then
      let n := u.lc.getD (u.ld - 1) 0#32 - 1#32
      let u := { u with lc := u.lc.set (u.ld - 1) n }
      if n = 0#32 then loopEnd k a { u with ld := u.ld - 1 } else (u, some (u.ls.getD (u.ld - 1) 0))
    else (u, none)

/-! ## Products (13 R510) -/

/-- Write every product due by a mason cycle, in issue order. -/
def landDue (cycle : Nat) (ps : List Product) (u : MasonUnit) : MasonUnit :=
  match ps with
  | [] => { u with products := [] }
  | p :: t => if p.due ≤ cycle then landDue cycle t { u with mlo := p.lo, mhi := p.hi } else { u with products := p :: t }

/-- The mason as an instruction issued now sees it. -/
def MasonUnit.landed (u : MasonUnit) : MasonUnit := landDue u.cycle u.products u

/-! ## Special registers (13 R500, R501) -/

/-- The value MFS n pushes. -/
def sprRead (m : Fin 5) (u : MasonUnit) (n : Nat) : Word :=
  if n = 0 then u.mlo
  else if n = 1 then u.mhi
  else if n = 2 then BitVec.ofNat 32 u.crcSel
  else if n = 3 then BitVec.ofNat 32 u.depth
  else if n = 4 then BitVec.ofNat 32 u.rdepth
  else if n = 5 then BitVec.ofNat 32 u.ld
  else if n = 6 then u.rleft
  else if n = 7 then BitVec.ofNat 32 (bit01 u.ectrl)
  else if n = 8 then BitVec.ofNat 32 u.tcause
  else if n = 9 then BitVec.ofNat 32 u.tpc
  else if n = 10 then BitVec.ofNat 32 u.epc
  else if n = 11 then BitVec.ofNat 32 m.val
  else if n = 12 then BitVec.ofNat 32 u.cycle
  else if 16 ≤ n ∧ n < 20 then BitVec.ofNat 32 (u.ls.getD (n - 16) 0)
  else if 20 ≤ n ∧ n < 24 then BitVec.ofNat 32 (u.le.getD (n - 20) 0)
  else if 24 ≤ n ∧ n < 28 then u.lc.getD (n - 24) 0#32
  else 0#32

/-- What MTS n writes; none where it changes nothing and raises FAULT.SPR. -/
def sprWrite (u : MasonUnit) (n : Nat) (w : Word) : Option MasonUnit :=
  let a := w.toNat % 0x4000
  if n = 2 then (if 4 < w.toNat % 8 then none else some { u with crcSel := w.toNat % 8 })
  else if n = 6 then some { u with rleft := w }
  else if n = 7 then some { u with ectrl := w.getLsbD 0 }
  else if n = 9 then some { u with tpc := a }
  else if n = 10 then some { u with epc := a }
  else if 16 ≤ n ∧ n < 20 then some { u with ls := u.ls.set (n - 16) a }
  else if 20 ≤ n ∧ n < 24 then some { u with le := u.le.set (n - 20) a }
  else if 24 ≤ n ∧ n < 28 then some { u with lc := u.lc.set (n - 24) w }
  else none

/-- What a debugger's write of SPR_DATA writes: as MTS, and the depths (13 R522). -/
def sprDebugWrite (u : MasonUnit) (n : Nat) (w : Word) : Option MasonUnit :=
  if n = 3 then (if w.toNat ≤ 16 then some { u with depth := w.toNat } else none)
  else if n = 4 then (if w.toNat ≤ 32 then some { u with rdepth := w.toNat } else none)
  else if n = 5 then
    (if w.toNat ≤ 4 then some { u with ld := w.toNat, lbase := min u.lbase w.toNat } else none)
  else sprWrite u n w

/-! ## Halting and the end of an instruction (13 R511, R515, R523, R524) -/

/-- The mason enters HALTED: a sequence about to repeat shows its count in RLEFT; HALT and STEP end DONE. -/
def haltMason (m : Fin 5) (why : Nat) (s : State) : State :=
  let u := masonAt s m
  let ids := u.haltIds ++ u.stepId.toList
  let u := if u.rep = 0 then u else { u with rleft := BitVec.ofNat 32 u.rep, rep := 0, repFirst := false, repHeld := true }
  ids.foldl (fun t i => finishCmd i Oc.done t)
    (s |> setMason m { u with state := .halted, haltWhy := why, haltIds := [], stepId := none, stepLeft := 0 }
       |> raiseEvent (0x28 + m.val) 0)

/-- At an instruction boundary: a finished STEP halts, then a HALT command does. -/
def atBoundary (m : Fin 5) (s : State) : State :=
  let u := masonAt s m
  if u.state ≠ .running ∨ u.rep ≠ 0 then s
  else if u.stepId.isSome && u.stepLeft == 0 then haltMason m 2 s
  else if u.haltIds.isEmpty then s
  else haltMason m 1 s

/-- The instruction at PC has completed with unit `u`: one repetition of several, or the instruction itself, whose loop
level is then checked unless it transferred control. `next` follows it; `why` is the cause of a halt it makes. -/
def endInstr (m : Fin 5) (u : MasonUnit) (next : Nat) (jump : Bool) (cycles : Nat) (why : Option Nat) (s : State) :
    State :=
  let u := { u with cycle := u.cycle + cycles, skipBp := false, stall := none }
  if 1 < u.rep then setMason m { u with rep := u.rep - 1, repFirst := false } s
  else
    let u := { u with rep := 0, repFirst := false }
    let back := if jump then (u, none) else loopEnd 4 u.pc u
    let s := setMason m { back.1 with pc := back.2.getD next, stepLeft := u.stepLeft - 1 } s
    match why with
    | some w => haltMason m w s
    | none => atBoundary m s

/-- REP has taken effect: the next instruction is to run `n` times. -/
def startRep (m : Fin 5) (u : MasonUnit) (n : Nat) (s : State) : State :=
  setMason m { u with cycle := u.cycle + 1, skipBp := false, pc := u.pc + 1, rep := n, repFirst := true } s

/-- A coprocessor operation in progress completes (13 R517): its results are pushed and the mason goes on. -/
def endOperation (m : Fin 5) (results : List Word) (s : State) : State :=
  let u := masonAt s m
  endInstr m (u.pushAll results) (u.pc + 2) false 1 none s

/-! ## Reset and loading (13 R499, R520, R521, R526) -/

/-- A mason is held in reset or stopped from outside: it keeps its state until mason reset (13 R499); a STEP ends FAILED,
and what the instruction in progress waited for is abandoned. -/
def freezeMason (m : Fin 5) (state : MasonState) (s : State) : State :=
  let u := masonAt s m
  let s := match u.stepId with
    | none => s
    | some i => finishCmd i Oc.failed s
  setMason m { u with state := state, stall := none, stepId := none, stepLeft := 0 } s

/-- What a mason keeps at mason reset: its memories, its latch and its door commands; a STEP ends FAILED. -/
def holdMason (m : Fin 5) (state : MasonState) (s : State) : State :=
  let u := masonAt s m
  let s := match u.stepId with
    | none => s
    | some i => finishCmd i Oc.failed s
  setMason m { MasonUnit.reset with
    state := state, prog := u.prog, dram := u.dram, latch := u.latch, version := u.version, resetHeld := u.resetHeld,
    haltIds := u.haltIds, reloadIds := u.reloadIds, doubles := u.doubles } s

/-- Mason reset (13 R499): a HALT that waits for it halts the mason before its first instruction (R524). -/
def resetMason (m : Fin 5) (s : State) : State :=
  let s := holdMason m .running s
  if (masonAt s m).haltIds.isEmpty then s else haltMason m 1 s

/-- First MRAM address of mason 4's image (13 R520). -/
def imageAt : Nat := 0x080000

/-- Program words `a` on from MRAM, `n` of them: none where bits 15..14 of a halfword are not 0. -/
def imageWords (mram : Memory) (a n : Nat) : Option (List (Nat × BitVec 14)) :=
  match n with
  | 0 => some []
  | k + 1 =>
    let h := leNat (memBytes mram (imageAt + 16 + 2 * a) 2)
    if 0x4000 ≤ h then none
    else match imageWords mram (a + 1) k with
    | none => none
    | some t => some (if h = 0x0FFF then t else (a, BitVec.ofNat 14 h) :: t)

/-- The header of mason 4's image: its words; none where MAGIC, WORDS or the reserved bytes are wrong (13 R520). -/
def imageSize (s : State) : Option Nat :=
  let n := leNat (mramBytes s (imageAt + 4) 2)
  if leNat (mramBytes s imageAt 4) = 0x4A434544 ∧ 1 ≤ n ∧ n ≤ 16384 ∧ leNat (mramBytes s (imageAt + 12) 4) = 0
  then some n else none

/-- The program of mason 4's image, when it is valid (13 R520) and holds no uncorrectable word (17 R613). -/
def imageProgram (s : State) : Option (List (Nat × BitVec 14)) :=
  match imageSize s with
  | none => none
  | some n =>
    if mramRangePoison s imageAt (16 + 2 * n) ∨
        leNat (mramBytes s (imageAt + 8) 4) ≠ (crc32c (mramBytes s (imageAt + 16) (2 * n))).toNat then none
    else imageWords s.mem.mram 0 n

/-- Mason 4's load ends (13 R33, R521): a valid image gives mason reset, unless CTRL.RESET holds it; any other leaves
NO_IMAGE, and an uncorrectable word in it raises ITG.FAULT.PERSIST (17 R613). RELOAD commands end. -/
def endLoad4 (s : State) : State :=
  let ids := (masonAt s 4).reloadIds
  let u := { masonAt s 4 with reloadIds := [] }
  match imageProgram s with
  | some p =>
    let s := setMason 4 { u with prog := p, version := BitVec.ofNat 16 (leNat (mramBytes s (imageAt + 6) 2)) } s
    ids.foldl (fun t i => finishCmd i Oc.done t) (if u.resetHeld then holdMason 4 .reset s else resetMason 4 s)
  | none =>
    let bad := s.mem.mramPoison.find? (fun w => imageAt ≤ 8 * w && 8 * w < imageAt + 16 + 2 * (imageSize s).getD 0)
    let s := setMason 4 { u with prog := [], version := 0#16, state := .noImage } s
    let s := match bad with
      | some w => raiseFault 0x0D 1 (8 * w) s
      | none => s
    ids.foldl (fun t i => finishCmd i 0x42 t) s

/-- A mason's domain is switched off (13 R526): its state and memories are lost. -/
def dropMason (m : Fin 5) (s : State) : State := setMason m MasonUnit.reset s

/-! ## The MS page (13 R522) -/

/-- The fields marked "halted" are locked. -/
def haltedLock (u : MasonUnit) : Bool := !(u.state == .reset || u.state == .halted)

/-- MSn.STATUS. -/
def masonStatus (u : MasonUnit) : Word :=
  fieldWord 31 28 u.state.code ||| fieldWord 27 24 u.haltWhy ||| fieldWord 23 23 (bit01 u.tact)
    ||| fieldWord 22 22 (bit01 u.eact) ||| fieldWord 21 21 (bit01 (!u.products.isEmpty))
    ||| fieldWord 20 16 u.depth ||| fieldWord 13 8 u.rdepth ||| fieldWord 6 4 u.ld

/-- The present value of a register of an MS page whose home is the mason; none for the others. -/
def masonWord (s : State) (m : Fin 5) (off : Nat) : Option Word :=
  let u := (masonAt s m).landed
  if off = Reg.msCtrl then some (fieldWord 31 16 u.version.toNat ||| fieldWord 0 0 (bit01 u.resetHeld))
  else if off = Reg.msStatus then some (masonStatus u)
  else if off = Reg.msPc then some (BitVec.ofNat 32 u.pc)
  else if off = Reg.msTrap then
    some (fieldWord 31 28 u.tcause ||| fieldWord 23 16 u.traps ||| fieldWord 13 0 u.tpcLast)
  else if off = Reg.msPmData then
    some (if haltedLock u then 0#32
      else BitVec.ofNat 32 (storedWord s m (regBits s (pageReg (0x28 + m.val) Reg.msPmAddr) 13 0)).toNat)
  else if off = Reg.msDmData then
    some (if haltedLock u then 0#32 else memWord u.dram (regBits s (pageReg (0x28 + m.val) Reg.msDmAddr) 14 0))
  else if Reg.msStack ≤ off ∧ off < Reg.msStack + 16 then some (u.top (off - Reg.msStack))
  else if Reg.msPt ≤ off ∧ off < Reg.msPt + 8 then some (u.pt (off - Reg.msPt))
  else if off = Reg.msSprData then some (sprRead m u (regBits s (pageReg (0x28 + m.val) Reg.msSprSel) 5 0))
  else if off = Reg.msRsData then some (u.rtop (regBits s (pageReg (0x28 + m.val) Reg.msRsSel) 4 0))
  else none

/-- Whether a write of an MS register by a debugger is refused with LOCKED: the fields marked "halted" outside RESET and
HALTED, every RW field on MS0 to MS3, stack entries out of use (13 R522). -/
def masonLocked (s : State) (m : Fin 5) (off : Nat) : Bool :=
  let u := masonAt s m
  let halted := off == Reg.msPc || off == Reg.msPmData || off == Reg.msDmData || off == Reg.msSprData
    || off == Reg.msRsData || (Reg.msStack ≤ off && off < Reg.msStack + 16) || (Reg.msPt ≤ off && off < Reg.msPt + 8)
  m != 4 || (halted && haltedLock u) || (Reg.msStack ≤ off && off < Reg.msStack + 16 && u.depth ≤ off - Reg.msStack)
    || (off == Reg.msRsData && u.rdepth ≤ regBits s (pageReg (0x28 + m.val) Reg.msRsSel) 4 0)

/-- An access to PM_DATA or DM_DATA advances its address register (13 R522). -/
def advanceData (m : Fin 5) (off : Nat) (s : State) : State :=
  let p := 0x28 + m.val
  if off = Reg.msPmData then
    setRegBits (pageReg p Reg.msPmAddr) 13 0 (regBits s (pageReg p Reg.msPmAddr) 13 0 + 1) s
  else if off = Reg.msDmData then
    setRegBits (pageReg p Reg.msDmAddr) 14 2 (regBits s (pageReg p Reg.msDmAddr) 14 2 + 1) s
  else s

/-- CTRL.RESET of mason 4 is written (13 R522): 1 holds the mason in reset, from 1 to 0 it gives mason reset; while a
load runs the mason stays in it. -/
def writeMasonReset (m : Fin 5) (hold : Bool) (s : State) : State :=
  let u := masonAt s m
  if u.resetHeld = hold then s
  else
    let s := setMason m { u with resetHeld := hold } s
    if u.state = .loading then s
    else if hold then freezeMason m .reset s else resetMason m s

/-- A program word is listed unless it is the filler. -/
def progSet (p : List (Nat × BitVec 14)) (a : Nat) (w : BitVec 14) : List (Nat × BitVec 14) :=
  if w = fillerWord then keyErase p a else keySet p a w

/-- An accepted write of an MS register whose home is the mason (13 R522). -/
def writeMason (m : Fin 5) (off : Nat) (w : Word) (s : State) : State :=
  let u := masonAt s m
  let p := 0x28 + m.val
  if off = Reg.msCtrl then writeMasonReset m (w.getLsbD 0) s
  else if off = Reg.msPc then setMason m { u with pc := w.toNat % 0x4000 } s
  else if off = Reg.msPmData then
    advanceData m off (setMason m { u with
      prog := progSet u.prog (regBits s (pageReg p Reg.msPmAddr) 13 0) (BitVec.ofNat 14 w.toNat) } s)
  else if off = Reg.msDmData then
    advanceData m off (setMason m { u with dram := memPutWord u.dram (regBits s (pageReg p Reg.msDmAddr) 14 0) w } s)
  else if Reg.msStack ≤ off ∧ off < Reg.msStack + 16 then
    setMason m { u with stack := u.stack.set (u.depth - 1 - (off - Reg.msStack)) w } s
  else if Reg.msPt ≤ off ∧ off < Reg.msPt + 8 then setMason m (u.setPt (off - Reg.msPt) w) s
  else if off = Reg.msSprData then
    match sprDebugWrite u (regBits s (pageReg p Reg.msSprSel) 5 0) w with
    | some u => setMason m u s
    | none => masonFault m 3 u.pc s
  else if off = Reg.msRsData then
    setMason m { u with rstack := u.rstack.set (u.rdepth - 1 - regBits s (pageReg p Reg.msRsSel) 4 0) w } s
  else s

end Sys2Proof.Machine
end

