-- ==== Sys2Proof/Machine/Checks.lean ====
section
/-!
DEFINITION. Sys2Proof/Machine/Checks.lean: the CRC steps of the Decja coprocessor and of the check-value units (13 R512,
14 R543 to R551), and the open programming they share with other blocks (14 R546).
-/
namespace Sys2Proof.Machine

/-! ## Cyclic redundancy steps -/

/-- The parameters of a CRC (14 R544): width, polynomial, initial value, final XOR, reflection of input and output. -/
structure CrcParams where
  width : Nat
  poly : Word
  init : Word
  xorOut : Word
  refIn : Bool
  refOut : Bool
  deriving DecidableEq, Repr

/-- The low `w` bits of a word, reversed. -/
def reflectIn (w : Nat) (v : Word) : Word :=
  (List.range w).foldl (fun r i => if bitAt v i then r ||| oneBit (w - 1 - i) else r) 0#32

/-- The parameters a SEL value names (14 R544). -/
def crcOfSel (sel : Nat) : CrcParams :=
  if sel = 1 then ⟨16, 0x8005#32, 0#32, 0#32, true, true⟩
  else if sel = 2 then ⟨32, 0x04C11DB7#32, 0xFFFFFFFF#32, 0xFFFFFFFF#32, true, true⟩
  else if sel = 3 then ⟨32, 0x1EDC6F41#32, 0xFFFFFFFF#32, 0xFFFFFFFF#32, true, true⟩
  else if sel = 4 then ⟨8, 0x07#32, 0#32, 0#32, false, false⟩
  else ⟨16, 0x1021#32, 0xFFFF#32, 0#32, false, false⟩

/-- The low `w` bits of a word. -/
def lowBits (w : Nat) (v : Word) : Word := BitVec.ofNat 32 (v.toNat % 2 ^ w)

/-- One data bit enters the register (13 R512, 14 R545): shifted left with the polynomial, or right with the reflected
one. -/
def crcBit (p : CrcParams) (c : Word) (b : Bool) : Word :=
  if p.refIn then
    let r := c >>> 1
    if bitAt c 0 != b then r ^^^ reflectIn p.width p.poly else r
  else
    let r := lowBits p.width (c <<< 1)
    if bitAt c (p.width - 1) != b then r ^^^ lowBits p.width p.poly else r

/-- The bits of a byte in the order they enter (14 R544). -/
def crcOrder (p : CrcParams) (b : Byte) : List Bool :=
  let bits := (List.range 8).map (fun i => b.getLsbD i)
  if p.refIn then bits else bits.reverse

/-- One byte enters the register; bits above the width are ignored and 0 in the result. -/
def crcByte (p : CrcParams) (c : Word) (b : Byte) : Word :=
  (crcOrder p b).foldl (crcBit p) (lowBits p.width c)

/-- Bytes enter the register. -/
def crcBytes (p : CrcParams) (c : Word) (bs : List Byte) : Word := bs.foldl (crcByte p) c

/-! ## The units (14 R543 to R549) -/

/-- Whether open programming is allowed (14 R546): Start-up, Recovery, or TEST_LOCK intact. -/
def openAllowed (s : State) : Bool := s.boot != .run || !(s.ident.locks.getLsbD 0)

/-- The index of template offset `off` of unit `u`. -/
def chkReg (u off : Nat) : Nat := 0x0918 + 12 * u + off

/-- The unit and template offset of a register index. -/
def chkOf (i : Nat) : Option (Nat × Nat) :=
  if 0x0918 ≤ i ∧ i < 0x0918 + 48 then some ((i - 0x0918) / 12, (i - 0x0918) % 12) else none

/-- Whether the valve link claims a unit (11 R428, 14 R549). -/
def chkClaimed (s : State) (u : Nat) : Bool := u == 3 && domainOn s 7 && regBit s Reg.vlqCtrl 31

/-- The configuration a unit runs with; a claimed one has STREAM 4, SEL 0 and FRAME (14 R549). -/
def chkCfgOf (s : State) (u : Nat) : Word :=
  if chkClaimed s u then oneBit 31 ||| oneBit 29 ||| fieldWord 26 24 4 else getReg s (chkReg u 0)

/-- The parameters in force in a unit (14 R544, R546). -/
def chkParams (s : State) (u : Nat) : CrcParams :=
  let cfg := chkCfgOf s u
  if bitAt cfg 30 then
    let shape := getReg s (chkReg u 4)
    { width := bitsOf shape 5 0, poly := getReg s (chkReg u 1), init := getReg s (chkReg u 2),
      xorOut := getReg s (chkReg u 3), refIn := bitAt shape 6, refOut := bitAt shape 7 }
  else crcOfSel (bitsOf cfg 2 0)

/-- RESULT of a unit (14 R545). -/
def chkResult (s : State) (u : Nat) : Word :=
  let p := chkParams s u
  let v := lowBits p.width (getReg s (chkReg u 5))
  (if p.refIn != p.refOut then reflectIn p.width v else v) ^^^ lowBits p.width p.xorOut

/-- INIT as it is loaded into VALUE (14 R545). -/
def chkInitValue (p : CrcParams) : Word := if p.refIn then reflectIn p.width p.init else lowBits p.width p.init

/-- Whether a unit processes a stream in a direction: 1 into the device, 2 out of it (14 R543). -/
def chkTakes (s : State) (u stream dir : Nat) : Bool :=
  let cfg := chkCfgOf s u
  live s && bitAt cfg 31 && bitsOf cfg 26 24 == stream && (bitsOf cfg 28 27 == 0 || bitsOf cfg 28 27 == dir)

/-- Payload enters unit `u`: whole bytes, then a final group of bits in the order sent, counted as one byte. With FRAME
the first payload of a frame loads INIT and clears BYTES (14 R547, R548). -/
def chkUnitFeed (u : Nat) (bs : List Byte) (rest : List Bool) (s : State) : State :=
  if bs.isEmpty && rest.isEmpty then s
  else
    let p := chkParams s u
    let first := bitAt (chkCfgOf s u) 29 && !(s.checks.getD u false)
    let v := if first then chkInitValue p else getReg s (chkReg u 5)
    let n := if first then 0#32 else getReg s (chkReg u 7)
    { s with checks := s.checks.set u true }
      |> setReg (chkReg u 5) (rest.foldl (crcBit p) (crcBytes p v bs))
      |> setReg (chkReg u 7) (n + BitVec.ofNat 32 (bs.length + bit01 (!rest.isEmpty)))

/-- Payload passes on a stream. -/
def chkFeedBits (stream dir : Nat) (bs : List Byte) (rest : List Bool) (s : State) : State :=
  (List.range 4).foldl (fun t u => if chkTakes t u stream dir then chkUnitFeed u bs rest t else t) s

/-- Payload bytes pass on a stream. -/
def chkFeed (stream dir : Nat) (bs : List Byte) (s : State) : State := chkFeedBits stream dir bs [] s

/-- The bytes of words in the order in which they pass a port, most significant first (14 R543). -/
def wireBytes (ws : List Word) : List Byte := ws.flatMap (fun w => beBytes 4 w.toNat)

/-- Words pass on a stream. -/
def chkWords (stream dir : Nat) (ws : List Word) (s : State) : State := chkFeed stream dir (wireBytes ws) s

/-- A frame of a stream ends (14 R548): a unit with FRAME that took payload latches its result; the link's own use of
unit 3 sets no event (R549). -/
def chkFrameEnd (stream : Nat) (s : State) : State :=
  (List.range 4).foldl (fun t u =>
    if bitsOf (chkCfgOf t u) 26 24 == stream && t.checks.getD u false then
      let t := { t with checks := t.checks.set u false }
      if bitAt (chkCfgOf t u) 29 && bitAt (chkCfgOf t u) 31 then
        let t := t |> setReg (chkReg u 8) (chkResult t u) |> countReg (chkReg u 9) 1
        if chkClaimed t u then t else raiseEvent 0x09 u t
      else t
    else t) s

/-- A lintel or cascade frame passes whole (02 R103). -/
def chkFrame (stream dir : Nat) (bytes : List Byte) (s : State) : State :=
  s |> chkFeed stream dir bytes |> chkFrameEnd stream

/-- A valve-link frame passes whole (14 R543, stream 4): bytes 0 to 14 + P. -/
def chkValveFrame (out : Bool) (bytes : List Byte) (s : State) : State :=
  s |> chkFeed 4 (if out then 2 else 1) (bytes.take (bytes.length - 2)) |> chkFrameEnd 4

/-! ## Their registers -/

/-- A frame of the stream of a unit is in progress. -/
def streamBusy (s : State) (stream : Nat) : Bool :=
  match stream with
  | 0 => s.host.held.isSome
  | 1 => s.port.fill.isSome || (match s.port.flash with
      | some j => j.onPort
      | none => false)
  | 4 => 6 ≤ regBits s Reg.vlrState 31 28 && regBits s Reg.vlrState 31 28 ≤ 8
  | _ => false

/-- The word read at a register of a unit where it is not the stored word (14 R546, R550). -/
def chkWord (s : State) (u off : Nat) : Option Word :=
  let p := chkParams s u
  if off = 1 then some p.poly
  else if off = 2 then some p.init
  else if off = 3 then some p.xorOut
  else if off = 4 then
    some (fieldWord 7 7 (bit01 p.refOut) ||| fieldWord 6 6 (bit01 p.refIn) ||| fieldWord 5 0 p.width)
  else if off = 5 then some (lowBits p.width (getReg s (chkReg u 5)))
  else if off = 6 then some (chkResult s u)
  else if off = 10 then
    some (fieldWord 31 31 (bit01 (chkClaimed s u))
      ||| fieldWord 30 30 (bit01 (streamBusy s (bitsOf (chkCfgOf s u) 26 24))))
  else none

/-- Whether a write of word `w` to a unit's register is refused with LOCKED (14 R546, R549). -/
def chkWriteLocked (s : State) (u off : Nat) (w : Word) : Bool :=
  chkClaimed s u || (!(openAllowed s) && ((off == 0 && bitAt w 30) || (1 ≤ off && off ≤ 4)))

/-- What follows a write of CFG, given the word it replaced: OPEN loads the parameters of SEL (14 R546). -/
def chkCfgWritten (u : Nat) (old : Word) (s : State) : State :=
  let w := getReg s (chkReg u 0)
  if bitAt w 30 && !(bitAt old 30) then
    let p := crcOfSel (bitsOf w 2 0)
    s |> setReg (chkReg u 1) p.poly |> setReg (chkReg u 2) p.init |> setReg (chkReg u 3) p.xorOut
      |> setReg (chkReg u 4) (fieldWord 7 7 (bit01 p.refOut) ||| fieldWord 6 6 (bit01 p.refIn) ||| fieldWord 5 0 p.width)
  else s

/-- START_DONE clears every unit whose OPEN is set (14 R546). -/
def chkOpenEnd (s : State) : State :=
  (List.range 4).foldl (fun t u =>
    if regBit t (chkReg u 0) 30 then
      t |> clearRegBit (chkReg u 0) 30 |> clearRegBit (chkReg u 0) 31 |> raiseEvent 0x09 4
    else t) s

end Sys2Proof.Machine
end

