-- ==== Sys2Proof/Machine/LinkFrames.lean ====
section
/-!
DEFINITION. Sys2Proof/Machine/LinkFrames.lean: frames on the lintel and cascade ports: header, length field, lane groups, the
ready line and the receive status word (02 R98 to R103).
-/
namespace Sys2Proof.Machine

/-- The header byte of a frame (02 R98): direction, target position, 0. -/
def linkHeader (toController : Bool) (position : Nat) : Byte := BitVec.ofNat 8 (128 * bit01 toController + 16 * position)

/-- The first `n` bits of bytes in groups of four lanes, most significant first, the last group padded with 0 (02 R52, R99). -/
def laneGroups (n : Nat) (bs : List Byte) : List Nat :=
  (List.range ((n + 3) / 4)).map (fun g =>
    let b := (bs.getD (g / 2) 0#8).toNat
    let v := if g % 2 = 0 then b / 16 else b % 16
    v - v % 2 ^ (4 * g + 4 - n))

/-- What the lanes carry in a frame (02 R98, R99): header, 16-bit length field, payload. -/
def frameLanes (f : LinkFrame) : List Nat :=
  laneGroups 8 [f.header] ++ laneGroups 16 (beBytes 2 f.declared.toNat) ++ laneGroups f.declared.toNat f.payload

/-- Whether the whole declared payload was delivered (02 R102). -/
def frameWhole (f : LinkFrame) : Bool := (f.declared.toNat + 7) / 8 == f.payload.length

/-- The receive status word (02 R102). -/
def rxStatus (incomplete : Bool) (declared delivered : Nat) : Word :=
  fieldWord 31 31 (bit01 incomplete) ||| fieldWord 29 16 declared ||| fieldWord 13 0 delivered

/-- Bytes as the words they pass a port in, most significant byte first, the last filled up with 0. -/
def wireWords (bs : List Byte) : List Word :=
  (List.range ((bs.length + 3) / 4)).map (fun i => 
    let c := (bs.drop (4 * i)).take 4
    BitVec.ofNat 32 (beNat c * 256 ^ (4 - c.length)))

/-- The port of a stream: 2 lintel, 3 cascade. -/
def linkLine (stream : Nat) (s : State) : LinkLine := if stream = 2 then s.twin.line else s.cascade.line

/-- Replace the port of a stream. -/
def setLinkLine (stream : Nat) (l : LinkLine) (s : State) : State :=
  if stream = 2 then { s with twin := { s.twin with line := l } } else { s with cascade := { s.cascade with line := l } }

/-- Whether this device, as a target, holds its ready line high (02 R100, R101): it can accept a payload of 8,192 bits whenever
its port is enabled, since the mason takes each frame as it ends; on the cascade port only where it is addressed. -/
def ownReady (stream : Nat) (s : State) : Bool :=
  let ctrl := if stream = 2 then Reg.twnPortCtrl else Reg.cscPortCtrl
  domainOn s 9 && regBit s ctrl 31 && regBits s ctrl 30 29 == 2 && (stream == 2 || s.cascade.line.addressed)

/-- A frame is handed to the mason through slot 7: its words, behind the receive status word (02 R102). -/
def handOver (stream : Nat) (incomplete : Bool) (declared delivered : Nat) (words : List Word) (s : State) : State :=
  setLinkLine stream { linkLine stream s with rx := rxStatus incomplete declared delivered :: words } s

/-- A frame is received: units that snoop the port take its payload (02 R103), and the mason has it. -/
def frameReceived (stream : Nat) (f : LinkFrame) (s : State) : State :=
  let n := if frameWhole f then f.declared.toNat else 32 * (f.payload.length / 4)
  s |> handOver stream (!(frameWhole f)) f.declared.toNat n (wireWords (if frameWhole f then f.payload else f.payload.take (n / 8)))
    |> chkFrame stream 1 (if frameWhole f then f.payload else f.payload.take (n / 8))

/-- This device sends a frame: the length field holds TX_LEN (02 R99), which the mason has written. -/
def frameSent (stream : Nat) (f : LinkFrame) (s : State) : State :=
  s |> setReg (if stream = 2 then Reg.twnTxLen else Reg.cscTxLen) (f.declared.setWidth 32)
    |> (fun t => setLinkLine stream { linkLine stream t with lanes := frameLanes f } t) |> chkFrame stream 2 f.payload

/-- A frame of `n` payload bytes that the device composes itself; the spec leaves the bytes open (notes/assumptions/17.md). -/
def sendFree (stream : Nat) (header : Byte) (n : Nat) (s : State) : State :=
  frameSent stream { header := header, declared := BitVec.ofNat 14 (8 * n), payload := freeBytesOf s n, ready := true }
    (useFreeN n s)

end Sys2Proof.Machine
end

