-- ==== Sys2Proof/Machine/TwinOps.lean ====
section
/-!
DEFINITION. Sys2Proof/Machine/TwinOps.lean: what the rest of the device asks of the twin (16): its role and state, and
the mirroring of changes to the secondary (R585, R591).
-/
namespace Sys2Proof.Machine

/-- TWN.STATUS.STATE (16). -/
def twinState (s : State) : Nat := regBits s Reg.twnStatus 31 28

/-- TWN.STATUS.ROLE: 0 solo, 1 primary, 2 secondary. -/
def twinRole (s : State) : Nat := regBits s Reg.twnStatus 27 26

/-- An active twin secondary (04 R153, 11 R454, 16 R593): the role is secondary and the pair is SYNCING or PAIRED. -/
def activeSecondary (s : State) : Bool := twinRole s == 2 && (twinState s == 4 || twinState s == 5)

/-- A device that sends nothing on the valve link: an active secondary, or a stepped-down device until it pairs again or
is made solo (16 R593, R597). -/
def linkSilent (s : State) : Bool := activeSecondary s || s.twin.steppedDown

/-- A paired primary: it mirrors (16 R591). -/
def mirrors (s : State) : Bool := twinRole s == 1 && twinState s == 5

/-- Replace the twin unit. -/
def setTwin (t : TwinUnit) (s : State) : State := { s with twin := t }

/-- Unacknowledged mirror data in bytes (16 R585). -/
def backlogBytes (s : State) : Nat :=
  ((s.twin.out.filter (fun m => 0xD4 ≤ m.kind && m.kind ≤ 0xD7)).map (fun m => m.body.length)).sum

/-- A message waits for the next frame that this device may start on the lintel port. -/
def queueMsg (m : TwinMsg) (s : State) : State := setTwin { s.twin with queue := s.twin.queue ++ [m] } s

/-- Bytes of a message on the wire (16 R584): header word and body in clear; the others with counter and tag. -/
def TwinMsg.bytes (m : TwinMsg) : Nat := (if m.kind ≤ 0xD1 then 4 else 24) + m.body.length

/-- The message that waits longest goes out in one frame. -/
def sendNext (s : State) : State :=
  match s.twin.queue with
  | [] => s
  | m :: rest =>
    s |> setTwin { s.twin with
          queue := rest
          out := s.twin.out.map (fun o => if o.counter = m.counter ∧ 0xD2 ≤ m.kind then { o with sentAt := some s.now } else o) }
      |> sendFree 2 (linkHeader (regBits s Reg.twnPortCtrl 30 29 == 2) 0) m.bytes

/-- A sealed message with the next counter is to be sent (16 R584, R585); it is kept until it is acknowledged. -/
def sendSealed (kind : Nat) (body : List Byte) (s : State) : State :=
  let m : TwinMsg := { counter := s.twin.outCtr, kind := kind, body := body, sentAt := none }
  s |> setTwin { s.twin with out := s.twin.out ++ [m], outCtr := s.twin.outCtr + 1 } |> queueMsg m

/-- Mirror data to the secondary (16 R585, R591): dropped beyond 64 KiB, which clears SYNCED and calls for a new bulk
transfer. -/
def mirror (kind : Nat) (body : List Byte) (s : State) : State :=
  if !(mirrors s) then s
  else if 65536 < backlogBytes s + body.length then
    s |> setRegBits Reg.twnStatus 25 25 0 |> raiseEvent 0x0E 6 |> countReg Reg.twnMirrorDrops 1
      |> (fun t => setTwin { t.twin with bulkDue := true } t)
  else sendSealed kind body s

/-- Mirror a record as queued (16 R591): 0xD7 RECORD with the POP register of its queue and its words. -/
def mirrorRecord (pop : Nat) (words : List Word) (s : State) : State :=
  mirror 0xD7 (leBytes 2 pop ++ wordsBytes words) s

/-- Mirror a change of the valve link or key store (16 R591): 0xD6 VALVE. -/
def mirrorValve (body : List Byte) (s : State) : State := mirror 0xD6 body s

end Sys2Proof.Machine
end

