-- ==== Sys2Proof/Machine/Transactions.lean ====
section
/-!
DEFINITION. Sys2Proof/Machine/Transactions.lean: the eight transaction identifiers (04): opening, ending, dooming,
conflicts, and what power, soft resets and resets do to them. Staging and committing stand in Machine/Commit.lean.
-/
namespace Sys2Proof.Machine

/-- Abort codes (04 R180). -/
abbrev Ab.conflict : Nat := 0x01
abbrev Ab.capacity : Nat := 0x02
abbrev Ab.timeout : Nat := 0x03
abbrev Ab.domainOff : Nat := 0x04
abbrev Ab.tagFail : Nat := 0x05
abbrev Ab.guardFail : Nat := 0x06
abbrev Ab.hostAbort : Nat := 0x07
abbrev Ab.refused : Nat := 0x08
abbrev Ab.requesterAbort : Nat := 0x09
abbrev Ab.jobRefused : Nat := 0x0A
abbrev Ab.badCondition : Nat := 0x0B
abbrev Ab.notOpen : Nat := 0x0C
abbrev Ab.peerLost : Nat := 0x0D

/-- Identifier `t`. -/
def txnAt (s : State) (t : Nat) : Txn := s.txn.ids.getD t Txn.free

/-- Replace identifier `t`. -/
def setTxn (t : Nat) (x : Txn) (s : State) : State :=
  { s with txn := { s.txn with ids := s.txn.ids.set t x } }

/-- Number of FREE identifiers. -/
def freeIds (s : State) : Nat := (s.txn.ids.filter (fun x => x.phase == .free)).length

/-- The lowest FREE identifier of a list, from number `k` on. -/
def lowestFree (ids : List Txn) (k : Nat) : Option Nat :=
  match ids with
  | [] => none
  | x :: t => if x.phase = .free then some k else lowestFree t (k + 1)

/-- Whether the identifier is frozen, when it can no longer abort (04 R173, R181): APPLYING, or for TAP0 waiting for the
tap-0 edge with its freeze made, 0.8 µs after prepare (notes/assumptions/49.md), or before the plumb line left lock (R174). -/
def txnFrozen (s : State) (x : Txn) : Bool :=
  x.phase == .applying || (x.phase == .waiting && x.cond == 0x20 &&
    (x.froze || (!(s.clocks.bypass) && s.clocks.plumb == .locked && x.preparedAt + 11 ≤ s.now)))

/-- The plumb line leaves lock or loses its reference: TAP0 commits that stand frozen keep so (04 R174). -/
def keepFrozen (s : State) : State :=
  { s with txn := { s.txn with ids := s.txn.ids.map (fun x =>
      if x.phase = .waiting ∧ txnFrozen s x = true then { x with froze := true } else x) } }

/-- TXN.STATE code of a phase (04 R148). -/
def TxnPhase.code (p : TxnPhase) : Nat :=
  match p with
  | .free => 0
  | .openPhase => 1
  | .doomed => 2
  | .preparing => 3
  | .waiting => 4
  | .applying => 5

/-- Register entries an identifier uses: registers, guards and doors (04 R162). -/
def Txn.entries (x : Txn) : Nat := x.regs.length + x.guards.length + x.doors.length

/-- Register entries in use, device-wide. -/
def poolEntries (s : State) : Nat := s.txn.ids.foldl (fun n x => n + x.entries) 0

/-- Mortar host words staged, device-wide. -/
def poolWords (s : State) : Nat := s.txn.ids.foldl (fun n x => n + x.mortar.length) 0

/-- The transaction with everything staged released (04 R159). -/
def Txn.release (x : Txn) : Txn := { x with regs := [], guards := [], doors := [], mortar := [] }

/-- A transaction word: state, code, tag (04 R66, R190). -/
def txnWord (state code tag : Nat) : Word :=
  fieldWord 31 24 state ||| fieldWord 23 16 code ||| fieldWord 15 0 tag

/-- Give the commit record of identifier `t` its final state and code (04 R182). -/
def closeRecord (t state code : Nat) (s : State) : State :=
  { s with txn := { s.txn with records := s.txn.records.map (fun r =>
      if r.live.map (·.val) = some t then { r with state := state, code := code, live := none } else r) } }

/-! ## The job tables (01 R34) -/

/-- The entries that waiting transactions hold reserved for door entries of a page with one of some command codes (04
R173, R175); a word whose tag is remembered needs none. -/
def reservedJobs (s : State) (p : Nat) (cmds : List Nat) : Nat :=
  ((s.txn.ids.filter (fun x => x.phase == .waiting)).map (fun x =>
    (x.doors.filter (fun d => d.1 == p && cmds.contains (bitsOf d.2 23 16)
      && (remembered s p x.requester (bitsOf d.2 31 24)).isNone)).length)).sum

/-- Free entries of the contactless job table. -/
def nfcFree (s : State) : Nat :=
  16 - (s.nfc.table.length + reservedJobs s 0x14 [0x10] + reservedJobs s 0x15 [0x10])

/-- Free entries of the broadcast service request table: selections, and commands of the paths. -/
def bcastFree (s : State) : Nat :=
  16 - (((List.range 12).filter (fun k => regBits s (Reg.bdaSel + k) 31 30 != 0)).length
    + (s.bcast.paths.map (fun p => p.jobs.length)).sum + reservedJobs s 0x1C [0x10] + reservedJobs s 0x18 [0x10, 0x11]
    + reservedJobs s 0x19 [0x10, 0x11] + reservedJobs s 0x1A [0x10, 0x11] + reservedJobs s 0x1B [0x10, 0x11])

/-- Free entries of the cipher job table. -/
def cipherFree (s : State) : Nat := 16 - (s.cipher.jobs.length + reservedJobs s 0x0A [0x10, 0x11, 0x12])

/-- Free outbound slots. -/
def freeSlots (s : State) : Nat :=
  (s.link.slots.filter (fun o => o.state == 0)).length - reservedJobs s 0x22 [0x10]

/-- A job table's JOB_SPACE event fires when its free entries rise past the watermark. -/
def jobSpaceEvent (p bit level before after : Nat) (s : State) : State :=
  if before < level ∧ level ≤ after then raiseEvent p bit s else s

/-- The JOB_SPACE events of the four tables after a transaction has given its reserved entries back. -/
def spaceGiven (before s : State) : State :=
  s |> jobSpaceEvent 0x15 8 (regBits s Reg.invWatermark 20 16) (nfcFree before) (nfcFree s)
    |> jobSpaceEvent 0x1C 8 (regBits s Reg.bdaWatermark 20 16) (bcastFree before) (bcastFree s)
    |> jobSpaceEvent 0x0A 8 (regBits s Reg.cphWatermark 20 16) (cipherFree before) (cipherFree s)
    |> jobSpaceEvent 0x22 8 (regBits s Reg.vlqWatermark 21 16) (freeSlots before) (freeSlots s)

/-- A swap whose transaction ends aborted is given up; after CONFLICT no new one is staged for its slot for 1 s (08
R347). -/
def swapEnded (t state code : Nat) (s : State) : State :=
  match s.bcast.swap with
  | none => s
  | some w =>
    if w.txn = t ∧ state = 3 then
      { s with bcast := { s.bcast with
          swap := none
          noSwap := if code = Ab.conflict then keySet s.bcast.noSwap w.slot (s.now + 13560000) else s.bcast.noSwap } }
    else s

/-- The host frame held for the commit of identifier `t` has its reply word (04 R178). -/
def answerHost (t state code : Nat) (s : State) : State :=
  match s.host.held with
  | some (.commit a none, why) =>
    if bitsOf a 31 24 = t then
      { s with host := { s.host with held := some (.commit a (some (txnWord state code (bitsOf a 23 8))), why) } }
    else s
  | _ => s

/-- Whoever waits for the reply of the commit of identifier `t` receives it (04 R178, 13 R517). -/
def answerCommit (t state code : Nat) (s : State) : State :=
  answerHost t state code <| ([0, 1, 2, 3, 4] : List (Fin 5)).foldl (fun u m =>
    match (masonAt u m).stall with
    | some (.commit k tag) => if k.val = t then endOperation m [txnWord state code tag.toNat] u else u
    | _ => u) s

/-- Identifier `t` ends, committed (state 2) or aborted (state 3): its outcome is written, DONE[t] is set, a count goes
up, the identifier is FREE, and JOB_SPACE fires when the free ones rise to the watermark (04 R149, R190, R191). -/
def endTxn (t state code : Nat) (s : State) : State :=
  let x := txnAt s t
  if x.phase = .free then s
  else
    let before := freeIds s
    let s := s |> setReg (Reg.txnOutcome + t) (txnWord state code x.tag) |> closeRecord t state code
      |> countReg (if state = 2 then Reg.txnCommitted else Reg.txnAborted) 1
      |> (fun u => if x.doors.isEmpty then setTxn t Txn.free u else spaceGiven u (setTxn t Txn.free u))
      |> raiseEvent 0x02 t |> swapEnded t state code |> answerCommit t state code
    let level := regBits s Reg.txnWatermark 3 0
    if before < level ∧ level ≤ freeIds s then raiseEvent 0x02 8 s else s

/-- A cause that dooms identifier `t` (04 R159): an OPEN one becomes DOOMED, keeps its first code and releases its
entries; one whose commit is already requested and that is not frozen ends ABORTED with the cause
(notes/assumptions/12.md). -/
def doomTxn (t code : Nat) (s : State) : State :=
  let x := txnAt s t
  if txnFrozen s x then s
  else match x.phase with
  | .openPhase => setTxn t { x.release with phase := .doomed, doom := code } s
  | .preparing => endTxn t 3 code s
  | .waiting => endTxn t 3 code s
  | _ => s

/-- An abort of identifier `t` before the freeze: a DOOMED one ends with its doom code (04 R159). -/
def abortTxn (t code : Nat) (s : State) : State :=
  let x := txnAt s t
  if txnFrozen s x then s
  else match x.phase with
  | .free => s
  | .doomed => endTxn t 3 x.doom s
  | _ => endTxn t 3 code s

/-- Whether register index `i` is in the write set or guard set. -/
def Txn.touches (x : Txn) (i : Nat) : Bool :=
  x.regs.any (fun e => e.1 == i) || x.guards.any (fun g => g.1 == i)

/-- Whether the transaction has an entry, guard or door entry on a page that satisfies `f`. -/
def Txn.onPage (x : Txn) (f : Nat → Bool) : Bool :=
  x.regs.any (fun e => f (e.1 / 256)) || x.guards.any (fun g => f (g.1 / 256)) || x.doors.any (fun d => f d.1)

/-- Apply `f` to every identifier number below 8 in turn. -/
def forIds (f : Nat → State → State) (s : State) : State := (List.range 8).foldl (fun t k => f k t) s

/-- A write to register `i` that is not refused dooms every transaction, other than `own`, that holds it (04 R168). -/
def conflict (i : Nat) (own : Option Nat) (s : State) : State :=
  forIds (fun k t => if some k ≠ own ∧ (txnAt t k).touches i then doomTxn k Ab.conflict t else t) s

/-- A soft reset of a page aborts with CONFLICT every transaction with a staged write or guard on it (03 R116): an OPEN one
is DOOMED with it (04 R168), and one already frozen completes (R181). -/
def abortOnPage (p : Nat) (s : State) : State :=
  forIds (fun k t => if (txnAt t k).regs.any (fun e => e.1 / 256 == p) || (txnAt t k).guards.any (fun g => g.1 / 256 == p)
    then doomTxn k Ab.conflict t else t) s

/-- The domains that produce a commit condition (04 R172). -/
def condDomains (cond : Nat) : List Nat :=
  if 0x10 ≤ cond ∧ cond ≤ 0x1F then [1]
  else if cond = 0x20 then [3]
  else if cond = 0x30 then [7]
  else if 0x40 ≤ cond ∧ cond ≤ 0x43 then [5, 6]
  else []

/-- Whether a transaction depends on domain `d` (04 R184). -/
def Txn.needsDomain (x : Txn) (d : Nat) : Bool :=
  x.onPage (fun p => pageDomain p == d) || (d == 8 && x.mortar.any (fun e => inBank1 e.1))
    || ((x.phase == .waiting || x.phase == .preparing) && (condDomains x.cond).contains d)

/-- An accepted switch-off of domain `d` aborts every transaction not yet frozen that depends on it (04 R184). -/
def abortOnDomain (d : Nat) (s : State) : State :=
  forIds (fun k t => if (txnAt t k).needsDomain d then abortTxn k Ab.domainOff t else t) s

/-- Stop and device reset end every transaction without an outcome and empty every record (04 R185). -/
def dropTxns (s : State) : State :=
  { s with txn := { s.txn with ids := List.replicate 8 Txn.free, records := [], held := [] } }

/-- The requester of identifier `t` aborts it (04 R160, R181): an identifier not OPEN or DOOMED for the host sets
BAD_ID; other requesters abort before the freeze. -/
def badId (req : Requester) (t : Nat) (s : State) : State :=
  raiseFault 0x02 0 (Requester.code req * 0x100000 + (txnAt s t).phase.code * 0x10000 + t % 8) s

/-- Open the lowest FREE identifier (04 R152, R153): the identifier, or a refusal reason. A secondary refuses the host
and mason 4. -/
def openTxn (req : Requester) (secondary : Bool) (s : State) : State × Nat × Option Nat :=
  if secondary && (req == .host || req == .mason 4) then (s, 0x10, none)
  else match lowestFree s.txn.ids 0 with
  | none => (s, 0x06, none)
  | some k =>
    let x : Txn := { Txn.free with phase := .openPhase, requester := req, openedAt := s.now,
                                   limitMs := regBits s Reg.txnTimeout 13 0, serial := s.txn.nextSerial }
    ({ s with txn := { s.txn with ids := s.txn.ids.set k x, nextSerial := s.txn.nextSerial + 1 } }, 0, some k)

/-- TXN.STATE[t] (04 R190). -/
def txnStateWord (x : Txn) : Word :=
  fieldWord 31 28 x.phase.code ||| fieldWord 27 24 (if x.phase = .free then 0 else Requester.code x.requester)
    ||| fieldWord 23 16 (if x.phase = .doomed then x.doom else 0) ||| fieldWord 15 0 x.tag

/-- TXN.USE[t] (04 R190). -/
def txnUseWord (x : Txn) : Word :=
  fieldWord 31 28 x.doors.length ||| fieldWord 24 12 x.mortar.length ||| fieldWord 8 0 x.entries

/-- A page's TXN_OWNER (03 R130). -/
def txnOwnerWord (s : State) (p : Nat) : Word :=
  let bits := fun (f : Txn → Bool) =>
    (List.range 8).foldl (fun n k => if f (txnAt s k) then n + 2 ^ k else n) 0
  fieldWord 15 8 (bits (fun x => x.guards.any (fun g => g.1 / 256 == p)))
    ||| fieldWord 7 0 (bits (fun x => x.regs.any (fun e => e.1 / 256 == p)))

end Sys2Proof.Machine
end

