-- ==== Sys2Proof/Machine/BcastOps.lean ====
section
/-!
DEFINITION. Sys2Proof/Machine/BcastOps.lean: the broadcast paths (08): slots, states, commands, selections and their
load, role clashes, and the audio output's source.
-/
namespace Sys2Proof.Machine

/-- Path states (08, BPn.STATUS.STATE). -/
abbrev Bs.off : Nat := 0
abbrev Bs.noFrontEnd : Nat := 1
abbrev Bs.settling : Nat := 2
abbrev Bs.searching : Nat := 3
abbrev Bs.locked : Nat := 4
abbrev Bs.lost : Nat := 5

/-- Replace the Broadcast unit. -/
def setBcast (b : BcastUnit) (s : State) : State := { s with bcast := b }

/-- Index of offset `off` of path `p`'s page. -/
def bpReg (p off : Nat) : Nat := (0x18 + p) * 256 + off

/-- Path `p` beyond its registers. -/
def pathAt (s : State) (p : Nat) : BcastPath := s.bcast.paths.getD p BcastPath.reset

/-- Replace path `p`. -/
def setPath (p : Nat) (x : BcastPath) (s : State) : State :=
  setBcast { s.bcast with paths := s.bcast.paths.set p x } s

/-- BPn.TUNE.MODE: 0 OFF, 1 AM, 2 FM, 3 DAB, 4 TIMECODE. -/
def bpMode (s : State) (p : Nat) : Nat := regBits s (bpReg p Reg.bpTune) 31 28

/-- BPn.STATUS.STATE. -/
def bpState (s : State) (p : Nat) : Nat := regBits s (bpReg p Reg.bpStatus) 31 28

/-- Enter a path state. -/
def setBpState (p st : Nat) (s : State) : State := setRegBits (bpReg p Reg.bpStatus) 31 28 st s

/-- BPn.STATUS.SYNC. -/
def bpSync (s : State) (p : Nat) : Bool := regBit s (bpReg p Reg.bpStatus) 27

/-- BPn.ROLE.ROLE: 0 IDLE, 1 LISTEN, 2 SCAN. -/
def bpRole (s : State) (p : Nat) : Nat := regBits s (bpReg p Reg.bpRole) 31 30

/-- BPn.ROLE.SLOT. -/
def bpSlot (s : State) (p : Nat) : Nat := regBits s (bpReg p Reg.bpRole) 29 28

/-- The path behind listening slot `k` (08, "Roles and listening slots"). -/
def slotPath (s : State) (k : Nat) : Option Nat :=
  (List.range 4).find? (fun p => bpRole s p == 1 && bpSlot s p == k)

/-- The slot of a listening path. -/
def listenSlot (s : State) (p : Nat) : Option Nat := if bpRole s p = 1 then some (bpSlot s p) else none

/-- The slot the audio output sends. -/
def audSlot (s : State) : Nat := regBits s Reg.audCtrl 30 29

/-- AUD.STATUS.SOURCE_OK: the slot's path is AM or FM and LOCKED. -/
def sourceOk (s : State) : Bool :=
  match slotPath s (audSlot s) with
  | none => false
  | some p => (bpMode s p == 1 || bpMode s p == 2) && bpState s p == Bs.locked

/-- A ramp or crossfade of the audio begins that takes `ms` ms (08 R346, R352): FADING. -/
def audioFade (ms : Nat) (s : State) : State :=
  setRegBits Reg.audStatus 26 26 1 (setBcast { s.bcast with fadeUntil := s.now + ms * 13560 } s)

/-- The ramps to zero and back, and the crossfade of 240 samples, in ms (08 R346, R352). -/
abbrev fadeDown : Nat := 10
abbrev fadeUp : Nat := 50
abbrev fadeCross : Nat := 5

/-- A test of the page of the path behind the audio output mutes it, by ramps (08 R352, R356). -/
def audioTested (page ramp : Nat) (s : State) : State :=
  match slotPath s (audSlot s) with
  | none => s
  | some p => if page = 0x18 + p then audioFade ramp s else s

/-- Sample rate of the output format in force (08 R352). -/
def audRate (s : State) : Nat :=
  match bitsOf s.bcast.audio 25 24 with
  | 1 => 44100
  | 2 => 32000
  | _ => 48000

/-- AUD.STATUS.DELAY under an AUD.ALIGN word: with SLEW it returns to BASE by one sample in every 1,000 (08 R353). -/
def audDelay (s : State) (align : Word) : Nat :=
  let d := regBits s Reg.audStatus 14 0
  let base := bitsOf align 14 0
  let n := (s.now - s.bcast.delayNow) * audRate s / 13560000000
  if !(bitAt align 31) then d else if d < base then min base (d + n) else max base (d - n)

/-- Give AUD.STATUS.DELAY a value from now on. -/
def setDelay (d : Nat) (s : State) : State :=
  s |> setRegBits Reg.audStatus 14 0 d |> setBcast { s.bcast with delayNow := s.now }

/-- Apply a change and set AUD.EVENT.SOURCE_LOST if SOURCE_OK falls; a fall or return fades the output (08 R352). -/
def audioWatch (f : State → State) (s : State) : State :=
  let t := f s
  if sourceOk s == sourceOk t then t
  else
    if sourceOk s then t |> audioFade fadeDown |> raiseEvent 0x1E 0 else audioFade fadeUp t

/-! ## Acquisition (08 R322, R324) -/

/-- The path leaves what it was tuned to: its output stops, SYNC is 0, the frame count restarts, the state is `st`. -/
def leaveTuning (p st : Nat) (s : State) : State :=
  let ant := bpMode s p == 3 && regBits s (bpReg p Reg.bpTune) 25 24 == 3
  s |> audioWatch (setReg (bpReg p Reg.bpStatus) (fieldWord 31 28 st ||| fieldWord 24 24 (bit01 ant)))
    |> setReg (bpReg p Reg.bpTcStatus) 0#32
    |> setPath p { pathAt s p with dab := DabInfo.empty, aids := [], idents := [], lowSince := none, width := 0 }

/-- Acquisition of path `p` restarts at step 1. -/
def restartPath (p : Nat) (s : State) : State :=
  if bpMode s p = 0 then leaveTuning p Bs.off s
  else s |> leaveTuning p (if domainOn s 5 then Bs.settling else Bs.noFrontEnd) |> countReg (bpReg p Reg.bpTunes) 1

/-! ## Requests (01 R34, 08 R349) -/

/-- Apply a change and set BDA.EVENT.JOB_SPACE if the free entries rise to the watermark. -/
def bcastSpaceWatch (f : State → State) (s : State) : State :=
  let t := f s
  let level := regBits t Reg.bdaWatermark 20 16
  if bcastFree s < level ∧ level ≤ bcastFree t then raiseEvent 0x1C 8 t else t

/-- The queue entries SCAN reserves (08 R351). -/
def scanSpace : Nat := 121

/-- The command at the head of path `p` starts if it can, and tunes the path away: a SCAN once it has reserved its entries
(08 R349 to R351). -/
def bpStart (p : Nat) (s : State) : State :=
  match (pathAt s p).jobs with
  | [] => s
  | j :: t =>
    if j.started || testRuns s (0x18 + p) || urgentWaits s (0x18 + p) then s
    else if j.scan && queueFree s (bpReg p Reg.bpQPop) < scanSpace then s
    else
      let j := { j with started := true, startNow := s.now }
      let s := s |> leaveTuning p Bs.settling |> fun u => setPath p { pathAt u p with jobs := j :: t } u
      if j.scan then queueReserve (bpReg p Reg.bpQPop) scanSpace s else s

/-- Entries of its reservation a command still holds. -/
def BpJob.reserved (j : BpJob) : Nat := if j.scan && j.started then scanSpace - j.stations else 0

/-- Queue a SCAN's end entry (08 R351). -/
def scanEnd (p : Nat) (j : BpJob) (code : Nat) (s : State) : State :=
  s |> queueUnreserve (bpReg p Reg.bpQPop) j.reserved
    |> queuePush (bpReg p Reg.bpQPop)
        [fieldWord 31 24 0x2F ||| fieldWord 23 16 code ||| fieldWord 15 0 j.stations,
         fieldWord 31 16 j.ticket ||| fieldWord 15 0 (capAt 0xFFFF ((s.now - j.startNow) / 135600))]
    |> raiseEvent (0x18 + p) 4

/-- The command at the head of path `p` ends with an outcome: the path returns to its own TUNE (08 R350), and the next
command starts. -/
def bpEndHead (p oc : Nat) (s : State) : State :=
  match (pathAt s p).jobs with
  | [] => s
  | j :: t =>
    s |> bcastSpaceWatch (setPath p { pathAt s p with jobs := t }) |> finishCmd j.id oc
      |> (if j.started then restartPath p else id) |> bpStart p

/-- All commands of path `p` end with an outcome; a started SCAN gives its reservation back, or delivers its end entry
(08 R349, R357; notes/assumptions/14.md); the path returns to its own TUNE. -/
def bpEndAll (p oc : Nat) (deliver : Bool) (s : State) : State :=
  let jobs := (pathAt s p).jobs
  let s := bcastSpaceWatch (setPath p { pathAt s p with jobs := [] }) s
  let s := if jobs.any (·.started) then restartPath p s else s
  jobs.foldl (fun t j =>
    let t := if j.scan && j.started then
        (if deliver then scanEnd p j 0 t else queueUnreserve (bpReg p Reg.bpQPop) j.reserved t)
      else t
    finishCmd j.id oc t) s

/-! ## Candidates and tuning (08 R322, R348) -/

/-- Clear the candidate list of path `p` (08 R348). -/
def clearCandidates (p : Nat) (s : State) : State :=
  let s := (List.range 16).foldl (fun t i => setReg (bpReg p Reg.bpCand + i) 0#32 t) s
  setBcast { s.bcast with better := s.bcast.better.filter (fun b => !(b.1 / 16 == p))
                          barred := s.bcast.barred.filter (fun b => !(b.1 / 16 == p)) } s

/-- A write of BPn.TUNE was applied over `old` (08 R322, R348): acquisition restarts if MODE, INPUT, DIVERSITY or FREQ
changed; a write by the host to a LISTEN path clears its candidates. -/
def tuneWritten (req : Requester) (p : Nat) (old : Word) (s : State) : State :=
  let s := if getReg s (bpReg p Reg.bpTune) = old then s else restartPath p s
  if req = .host ∧ bpRole s p = 1 then clearCandidates p s else s

/-! ## Roles (08 R339) -/

/-- Two paths clash: they hold the same slot, or both hold SCAN. -/
def rolesClash (s : State) (p q : Nat) : Bool :=
  (bpRole s p == 1 && bpRole s q == 1 && bpSlot s p == bpSlot s q) || (bpRole s p == 2 && bpRole s q == 2)

/-- Path `p` held in `before` the role it holds now. -/
def heldRole (before s : State) (p : Nat) : Bool :=
  bpRole before p == bpRole s p && (bpRole s p != 1 || bpSlot before p == bpSlot s p)

/-- Set a clashing path to IDLE: it counts as a write (04 R168). -/
def idleRole (p : Nat) (s : State) : State :=
  s |> setRegBits (bpReg p Reg.bpRole) 31 30 0 |> conflict (bpReg p Reg.bpRole) none

/-- Resolve the clash of two paths, the lower-numbered first. -/
def resolveClash (before : State) (p q : Nat) (s : State) : State :=
  if !(rolesClash s p q) then s
  else (if heldRole before s q && !(heldRole before s p) then idleRole p s else idleRole q s)
    |> raiseEvent (0x18 + p) 3 |> raiseEvent (0x18 + q) 3

/-- The pairs of paths, lower-numbered first. -/
def pathPairs : List (Nat × Nat) := [(0, 1), (0, 2), (0, 3), (1, 2), (1, 3), (2, 3)]

/-- After an apply that changed a ROLE (08 R339, R349): clashes are resolved, and the commands of a path that became
LISTEN end. -/
def rolesApplied (before s : State) : State :=
  let s := pathPairs.foldl (fun t pq => resolveClash before pq.1 pq.2 t) s
  let s := (List.range 4).foldl (fun t p => if bpRole t p = 1 then bpEndAll p 0x42 false t else t) s
  if sourceOk before && !(sourceOk s) then s |> audioFade fadeDown |> raiseEvent 0x1E 0 else s

/-! ## Selections (09 R365 to R367) -/

/-- Selection register of slot `k`, entry `j`. -/
def selReg (k j : Nat) : Nat := Reg.bdaSel + 4 * k + j

/-- STATE of a selection: 0 EMPTY, 1 PENDING, 2 ACTIVE, 3 SUSPENDED. -/
def selState (s : State) (k j : Nat) : Nat := regBits s (selReg k j) 31 30

/-- Rate of the ACTIVE selections of a slot in kbit/s. -/
def slotRate (s : State) (k : Nat) : Nat :=
  ((List.range 4).map (fun j => if selState s k j = 2 then 8 * regBits s (selReg k j) 21 14 else 0)).sum

/-- The decode load in kbit/s (09 R367). -/
def decodeLoad (s : State) : Nat :=
  32 * ((List.range 4).filter (fun p => bpMode s p == 3 && (bpRole s p == 1 || bpRole s p == 2))).length
    + slotRate s 0 + slotRate s 1 + slotRate s 2
    + (match s.bcast.verifying with
       | none => 0
       | some (l, _) => if bpRole s l = 1 then slotRate s (bpSlot s l) else 0)

/-- How often the selections of slot `k` count: once more while a scan path verifies a candidate for it (09 R367). -/
def slotWeight (s : State) (k : Nat) : Nat :=
  match s.bcast.verifying with
  | none => 1
  | some (l, _) => if listenSlot s l = some k then 2 else 1

/-- The most the decoder is given (09 R367). -/
def decodeLimit : Nat := 20000

/-- What a selection resolves to on path `p`: its subchannel and rate (09 R366). -/
def resolveOn (s : State) (p : Nat) (packet : Bool) (component : Nat) : Option (Nat × Nat) :=
  if bpMode s p ≠ 3 then none
  else ficResolve (pathAt s p).dab (getReg s (bpReg p Reg.bpService)).toNat packet component

/-- Give a selection its state, subchannel and rate. -/
def setSel (k j st subch rate : Nat) (s : State) : State :=
  s |> setRegBits (selReg k j) 31 30 st |> setRegBits (selReg k j) 27 22 subch |> setRegBits (selReg k j) 21 14 rate

/-- Resolve entry `j` of slot `k` through the FIC of path `p` (09 R366, R367). -/
def resolveSel (k p j : Nat) (s : State) : State :=
  let st := selState s k j
  if st = 0 then s
  else match resolveOn s p (regBit s (selReg k j) 29) (regBits s (selReg k j) 11 0) with
  | none => setSel k j 1 0 0 s
  | some c =>
    let others := decodeLoad s - (if st = 2 then slotWeight s k * 8 * regBits s (selReg k j) 21 14 else 0)
    if others + slotWeight s k * 8 * c.2 ≤ decodeLimit then setSel k j 2 c.1 c.2 s
    else
      let s := setSel k j 3 c.1 c.2 s
      if st = 3 then s else raiseEvent 0x1C 3 s

/-- Resolve the selections of the slot that path `p` carries. -/
def resolveSlot (p : Nat) (s : State) : State :=
  match listenSlot s p with
  | none => s
  | some k => (List.range 4).foldl (fun t j => resolveSel k p j t) s

/-- BDA.LOAD.KBPS (09 R367). -/
def loadOf (s : State) : Nat := capAt 0xFFFF (decodeLoad s)

/-- BDA.USEC: µs since PD6 was switched on (09). -/
def bdaUsec (s : State) : Word := BitVec.ofNat 32 (cyclesUs (s.now - s.bcast.onNow))

/-! ## Records (09 R358 to R361) -/

/-- Mark word 0 of a record with a flag bit. -/
def markWord0 (n : Nat) (b : Bool) (words : List Word) : List Word :=
  match words with
  | [] => []
  | w :: t => (if b then w ||| oneBit n else w) :: t

/-- Word 0 of a record of slot `k` from path `p`; the swap mark is added when it is queued (09 R359). -/
def recordHead (type k p low : Nat) : Word :=
  fieldWord 31 24 type ||| fieldWord 23 22 k ||| fieldWord 21 20 p ||| fieldWord 15 0 low

/-- Take the swap mark of slot `k` and record kind `type`. -/
def takeSwapMark (k type : Nat) (s : State) : Bool × State :=
  (s.bcast.swapMarks.contains (256 * k + type),
   setBcast { s.bcast with swapMarks := s.bcast.swapMarks.filter (· != 256 * k + type) } s)

/-- A record for the data queue (09 R359 to R361, R385). -/
def dataRecord (type k p low : Nat) (usec : Word) (rest : List Word) (s : State) : State :=
  if queueFree s Reg.bdaQPop = 0 then
    s |> setBcast { s.bcast with dataGap := true } |> countReg Reg.bdaDropsData 1 |> raiseEvent 0x1C 2
  else
    let (mark, s) := takeSwapMark k type s
    let words := recordHead type k p low :: usec :: rest
    let s := queuePush Reg.bdaQPop (words |> markWord0 19 mark |> markWord0 18 s.bcast.dataGap) s
    let s := setBcast { s.bcast with dataGap := false } s
    if queueCount s Reg.bdaQPop = regBits s Reg.bdaWatermark 9 0 then raiseEvent 0x1C 0 s else s

/-- A record for the subchannel queue. -/
def subRecord (k p low : Nat) (rest : List Word) (s : State) : State :=
  if queueFree s Reg.bdaSubQPop = 0 then
    s |> setBcast { s.bcast with subGap := true } |> countReg Reg.bdaDropsSub 1 |> raiseEvent 0x1C 2
  else
    let (mark, s) := takeSwapMark k 0x32 s
    let words := recordHead 0x32 k p low :: bdaUsec s :: rest
    s |> queuePush Reg.bdaSubQPop (words |> markWord0 19 mark |> markWord0 18 s.bcast.subGap)
      |> (fun t => setBcast { t.bcast with subGap := false } t) |> raiseEvent 0x1C 1

/-- A record for the outcome queue, mirrored on a twin primary (09 R389); a paired secondary discards its own (16
R591). -/
def outcomeRecord (words : List Word) (s : State) : State :=
  if activeSecondary s then s
  else if queueFree s Reg.ccdQPop = 0 then
    s |> setBcast { s.bcast with outcomeGap := true } |> countReg Reg.ccdDrops 1 |> raiseEvent 0x1D 4
  else
    let words := markWord0 19 s.bcast.outcomeGap words
    s |> queuePush Reg.ccdQPop words |> (fun t => setBcast { t.bcast with outcomeGap := false } t)
      |> mirrorRecord Reg.ccdQPop words

/-! ## Power (08 R327, R357; 09 R388) -/

/-- PD5 goes off while PD6 stays on: every tuned path shows NO_FRONT_END. -/
def frontEndOff (s : State) : State :=
  audioWatch (fun t => (List.range 4).foldl (fun t p =>
    if bpMode t p = 0 then t
    else t |> setBpState p Bs.noFrontEnd |> setRegBits (bpReg p Reg.bpStatus) 27 25 0) t) s

/-- PD5 comes on: every tuned path starts at step 1. -/
def frontEndOn (s : State) : State :=
  (List.range 4).foldl (fun t p => if bpMode t p = 0 then t else restartPath p t) s

/-- A switch-off of PD5 or PD6 is accepted: running and queued commands end with DOMAIN_OFF. -/
def bcastWindDown (pd6Stays : Bool) (s : State) : State :=
  (List.range 4).foldl (fun t p => bpEndAll p Oc.domainOff pd6Stays t) s

end Sys2Proof.Machine
end

