-- ==== Sys2Proof/Machine/Linear.lean ====
section
/-!
DEFINITION. Sys2Proof/Machine/Linear.lean: exact arithmetic for the two engines that compute with currents and coupling
vectors (05 R227 to R231, 06 R256 to R260): complex numbers over the rationals, linear systems, the signature of a
Hermitian matrix, decibels and phase codes. Powers of ten and the phases of the codes, which are irrational, are taken to
40 decimal places.
-/
namespace Sys2Proof.Machine

/-! ## Complex numbers -/

/-- A complex number with rational parts. -/
structure Cx where
  re : Rat
  im : Rat
  deriving DecidableEq, Repr

def Cx.zero : Cx := ⟨0, 0⟩
def Cx.one : Cx := ⟨1, 0⟩
def Cx.real (r : Rat) : Cx := ⟨r, 0⟩
def Cx.add (a b : Cx) : Cx := ⟨a.re + b.re, a.im + b.im⟩
def Cx.sub (a b : Cx) : Cx := ⟨a.re - b.re, a.im - b.im⟩
def Cx.mul (a b : Cx) : Cx := ⟨a.re * b.re - a.im * b.im, a.re * b.im + a.im * b.re⟩
def Cx.conj (a : Cx) : Cx := ⟨a.re, -a.im⟩
def Cx.scale (r : Rat) (a : Cx) : Cx := ⟨r * a.re, r * a.im⟩

/-- The squared magnitude. -/
def Cx.norm2 (a : Cx) : Rat := a.re * a.re + a.im * a.im

/-- The inverse; 0 of 0. -/
def Cx.inv (a : Cx) : Cx := if a.norm2 = 0 then Cx.zero else Cx.scale (1 / a.norm2) a.conj

/-- A pair of integers as a complex number. -/
def Cx.ofPair (p : Int × Int) : Cx := ⟨p.1, p.2⟩

/-- The sum of a list. -/
def cxSum (l : List Cx) : Cx := l.foldl Cx.add Cx.zero

/-- The sum of products of two vectors, the first conjugated. -/
def cxDot (a b : List Cx) : Cx := cxSum ((a.zip b).map (fun p => Cx.mul p.1.conj p.2))

/-- The squared norm of a vector. -/
def cxNorm2 (a : List Cx) : Rat := a.foldl (fun t x => t + x.norm2) 0

/-- The larger of two rationals, and the largest of a list with 0. -/
def ratMax (a b : Rat) : Rat := if a < b then b else a
def ratMaxOf (l : List Rat) : Rat := l.foldl ratMax 0

/-! ## Linear systems -/

/-- Row `a` less `z` times row `b`. -/
def rowSub (z : Cx) (a b : List Cx) : List Cx := (a.zip b).map (fun p => Cx.sub p.1 (Cx.mul z p.2))

/-- The first row from `c` on whose entry `c` is not 0. -/
def pivotRow (rows : List (List Cx)) (c : Nat) : Option Nat :=
  (List.range rows.length).find? (fun i => c ≤ i && !((rows.getD i []).getD c Cx.zero == Cx.zero))

/-- Gauss and Jordan's elimination of columns `c` to `c + n - 1`; `none` where a column has no pivot. -/
def eliminate (n c : Nat) (rows : List (List Cx)) : Option (List (List Cx)) :=
  match n with
  | 0 => some rows
  | m + 1 =>
    match pivotRow rows c with
    | none => none
    | some p =>
      let top := rows.getD p []
      let rows := (rows.set p (rows.getD c [])).set c top
      let unit := top.map (Cx.mul (top.getD c Cx.zero).inv)
      let rows := rows.zipIdx.map (fun r =>
        if r.2 = c then unit else rowSub (r.1.getD c Cx.zero) r.1 unit)
      eliminate m (c + 1) rows

/-- The solution x of A x = b, where A has an inverse. -/
def solveLinear (a : List (List Cx)) (b : List Cx) : Option (List Cx) :=
  (eliminate a.length 0 (a.zipIdx.map (fun r => r.1 ++ [b.getD r.2 Cx.zero]))).map
    (fun rows => rows.map (fun r => r.getLastD Cx.zero))

/-- The inverse of a square matrix, where it has one. -/
def inverse (a : List (List Cx)) : Option (List (List Cx)) :=
  let n := a.length
  (eliminate n 0 (a.zipIdx.map (fun r =>
    r.1 ++ (List.range n).map (fun j => if j = r.2 then Cx.one else Cx.zero)))).map
      (fun rows => rows.map (fun r => r.drop n))

/-! ## The signature of a Hermitian matrix -/

/-- A Hermitian matrix without row and column 0, after these have been cleared with its first diagonal entry. -/
def schur (a : List (List Cx)) : List (List Cx) :=
  let top := a.headD []
  let d := (top.headD Cx.zero).re
  a.tail.map (fun r => rowSub (Cx.scale (1 / d) (r.headD Cx.zero)) r top |>.tail)

/-- Exchange entries 0 and `i` of a list. -/
def swapTo {α : Type} (i : Nat) (l : List α) : List α :=
  match l[0]?, l[i]? with
  | some x, some y => (l.set i x).set 0 y
  | _, _ => l

/-- Exchange rows and columns 0 and `i`. -/
def swapBoth (i : Nat) (a : List (List Cx)) : List (List Cx) := (swapTo i a).map (swapTo i)

/-- The first position at which a list holds something else than 0. -/
def firstNonzero (l : List Cx) : Option Nat := (List.range l.length).find? (fun i => !(l.getD i Cx.zero == Cx.zero))

/-- Add `z` times row `j` to row 0, and its conjugate times column `j` to column 0. -/
def foldInto (z : Cx) (j : Nat) (a : List (List Cx)) : List (List Cx) :=
  let rows := a.set 0 (rowSub (Cx.scale (-1) z) (a.headD []) (a.getD j []))
  rows.map (fun r => r.set 0 (Cx.add (r.headD Cx.zero) (Cx.mul z.conj (r.getD j Cx.zero))))

/-- How many eigenvalues of a Hermitian matrix of `n` rows are positive: the positive pivots of a diagonalisation by
congruence, which keeps their number. -/
def positives (n : Nat) (a : List (List Cx)) : Nat :=
  match n with
  | 0 => 0
  | m + 1 =>
    let diag := (List.range (m + 1)).map (fun i => (a.getD i []).getD i Cx.zero)
    match firstNonzero diag with
    | some i =>
      let b := swapBoth i a
      (if 0 < ((b.headD []).headD Cx.zero).re then 1 else 0) + positives m (schur b)
    | none =>
      match (List.range (m + 1)).find? (fun i => (firstNonzero (a.getD i [])).isSome) with
      | none => 0
      | some i =>
        let b := swapBoth i a
        let j := ((firstNonzero (b.headD [])).getD 0)
        let c := foldInto ((b.headD []).getD j Cx.zero) j b
        (if 0 < ((c.headD []).headD Cx.zero).re then 1 else 0) + positives m (schur c)

/-- A matrix less `x` times another. -/
def matSub (x : Rat) (a b : List (List Cx)) : List (List Cx) :=
  (a.zip b).map (fun r => rowSub (Cx.real x) r.1 r.2)

/-- The diagonal matrix of a list. -/
def diagonal (d : List Rat) : List (List Cx) :=
  d.zipIdx.map (fun x => (List.range d.length).map (fun j => if j = x.2 then Cx.real x.1 else Cx.zero))

/-- Between `lo` and `hi`, after `n` halvings: the least x (from above) for which fewer than `k` eigenvalues exceed x,
those of `a` against the positive diagonal matrix `d`. -/
def bisect (n k : Nat) (a d : List (List Cx)) (lo hi : Rat) : Rat :=
  match n with
  | 0 => hi
  | m + 1 =>
    let mid := (lo + hi) / 2
    if positives a.length (matSub mid a d) < k then bisect m k a d lo mid else bisect m k a d mid hi

/-! ## Decibels and phases -/

/-- 10^40, the unit of the fixed-point values. -/
def fixUnit : Nat := 10000000000000000000000000000000000000000

/-- 10^(n / 1,000) in units of 10^-40. -/
def tenMilli (n : Nat) : Nat :=
  match n with
  | 0 => fixUnit
  | m + 1 => tenMilli m * 10023052380778996719154048893281105540537 / fixUnit

/-- 10^(n / 1,000). -/
def tenTo (n : Nat) : Rat := (tenMilli n : Nat) / (fixUnit : Nat)

/-- The number of times, up to `fuel`, that `bound`, multiplied by `step` each time, does not exceed `v`; both in units of
10^-40. -/
def logWalk (step fuel n bound : Nat) (v : Rat) : Nat :=
  match fuel with
  | 0 => n
  | m + 1 => if (bound : Rat) ≤ v * (fixUnit : Nat) then logWalk step m (n + 1) (bound * step / fixUnit) v else n

/-- The largest n up to `cap` with 10^(unit n / 1,000) at most `v`; 0 where even n = 1 exceeds it. -/
def logFloor (unit cap : Nat) (v : Rat) : Nat := logWalk (tenMilli unit) cap 0 (tenMilli unit) v

/-- The n up to `cap` for which 10^(unit n / 1,000), with an even `unit`, is nearest in decibels to `v`, at least 1. -/
def logNear (unit cap : Nat) (v : Rat) : Nat := logWalk (tenMilli unit) cap 0 (tenMilli (unit / 2)) v

/-- A phase in units of 10^-40, turned on by 360/1,024 degrees. -/
def turnPhase (p : Int × Int) : Int × Int :=
  let c : Int := 9999811752826011426569904377285677161739
  let s : Int := 61358846491544753596402345903725809171
  ((p.1 * c - p.2 * s) / (fixUnit : Nat), (p.1 * s + p.2 * c) / (fixUnit : Nat))

/-- Cosine and sine of k times 360/1,024 degrees, in units of 10^-40. -/
def phaseFix (k : Nat) : Int × Int :=
  match k with
  | 0 => ((fixUnit : Nat), 0)
  | m + 1 => turnPhase (phaseFix m)

/-- exp(j 2 pi k / 1,024). -/
def phaseOf (k : Nat) : Cx := Cx.scale (1 / (fixUnit : Nat)) (Cx.ofPair (phaseFix k))

/-- `n` phase codes with their phases, from code `k` of phase `p` on. -/
def phaseTable (n : Nat) (k : Nat) (p : Int × Int) : List (Nat × (Int × Int)) :=
  match n with
  | 0 => []
  | m + 1 => (k, p) :: phaseTable m (k + 1) (turnPhase p)

/-- The phase code nearest to the argument of `z`: the one whose direction has the largest projection of `z`. -/
def phaseCode (z : Cx) : Nat :=
  let value := fun (p : Int × Int) => z.re * (p.1 : Rat) + z.im * (p.2 : Rat)
  ((phaseTable 1024 0 ((fixUnit : Nat), 0)).foldl
    (fun (best : Nat × Rat) e => if best.2 < value e.2 then (e.1, value e.2) else best) (0, value ((fixUnit : Nat), 0))).1

/-- The square root of a rational, rounded down to a multiple of 2^-64. -/
def ratSqrt (v : Rat) : Rat :=
  let n := (v * (2 ^ 128 : Nat)).floor.toNat
  (rootBits 160 n 0 : Nat) / (2 ^ 64 : Nat)
where
  /-- The integer square root, bit by bit from bit `k` down. -/
  rootBits (k n r : Nat) : Nat :=
    match k with
    | 0 => r
    | m + 1 => if (r + 2 ^ m) * (r + 2 ^ m) ≤ n then rootBits m n (r + 2 ^ m) else rootBits m n r

end Sys2Proof.Machine
end

