-- ==== Sys2Proof/Machine/Solve.lean ====
section
/-!
DEFINITION. Sys2Proof/Machine/Solve.lean: solving a pattern with null points (05 R227 to R231). The drive needed per unit
coil current is the inverse of the coupling the survey measured: with port i driven, chain j sees K[i][j] of what chain
i sees (05 R222; notes/assumptions/54.md).
-/
namespace Sys2Proof.Machine

/-- A signed value of `w` bits. -/
def signedBits (w n : Nat) : Int := if n < 2 ^ (w - 1) then (n : Int) else (n : Int) - (2 ^ w : Nat)

/-- The amplitude of a code against full scale: 10^(-0.002 x (1023 - code)) (05 R193, R227). -/
def codeAmp (code : Nat) : Rat := 1 / tenTo (2 * (1023 - code))

/-- The current, or drive, that a port word states (05 R197, R227). -/
def wordCurrent (w : Word) : Cx := Cx.scale (codeAmp (bitsOf w 9 0)) (phaseOf (bitsOf w 25 16))

/-- The amplitude code nearest to a squared magnitude against full scale: 0.04 dB a step, 0 from -40.92 dB down. -/
def ampCode (p : Rat) : Nat := if p ≤ 0 then 0 else 1023 - logNear 4 1023 (1 / p)

/-- The codes of a drive within full scale, in the places of a port word (05 R227). -/
def encodeDrive (v : Cx) : Word := fieldWord 25 16 (phaseCode v) ||| fieldWord 9 0 (ampCode v.norm2)

/-- K[i][j] of a survey (05 R222). -/
def surveyK (survey : List Word) (i j : Nat) : Cx :=
  let w := survey.getD (8 * i + j) 0#32
  Cx.scale (1 / 16384) ⟨signedBits 16 (bitsOf w 31 16), signedBits 16 (bitsOf w 15 0)⟩

/-- The coil currents at ports `used` that drives of these ports produce. -/
def coilCurrents (survey : List Word) (used : List Nat) (drive : List Cx) : List Cx :=
  used.map (fun j => cxSum ((used.zip drive).map (fun d => Cx.mul (surveyK survey d.1 j) d.2)))

/-- The drives that produce coil currents at ports `used`; none where the couplings have no inverse. -/
def drivesFor (survey : List Word) (used : List Nat) (currents : List Cx) : Option (List Cx) :=
  solveLinear (used.map (fun j => used.map (fun i => surveyK survey i j))) currents

/-- Null gain `k` (0 A, 1 B) of port `p` in the 13 words of an ashlar (05 R203). -/
def nullGain (words : List Word) (k p : Nat) : Rat :=
  let w := words.getD (9 + 2 * k + p / 4) 0#32
  (signedBits 8 (bitsOf w (8 * (p % 4) + 7) (8 * (p % 4))) : Rat) / 128

/-- The gains of the null points in use over ports `used`. -/
def nullRows (words : List Word) (used : List Nat) : List (List Rat) :=
  (List.range (bitsOf (words.getD 0 0#32) 29 28)).map (fun k => used.map (nullGain words k))

/-- The field at a null point: the sum of gain times current. -/
def fieldAt (h : List Rat) (i : List Cx) : Cx := cxSum ((h.zip i).map (fun p => Cx.scale p.1 p.2))

/-- Take the component along `h` from the currents. -/
def projectOff (h : List Rat) (i : List Cx) : List Cx :=
  let hh := h.foldl (fun t x => t + x * x) 0
  if hh = 0 then i
  else
    let a := Cx.scale (1 / hh) (fieldAt h i)
    (i.zip h).map (fun p => Cx.sub p.1 (Cx.scale p.2 a))

/-- A row of gains made orthogonal to the one before. -/
def orthogonal (h g : List Rat) : List Rat :=
  let hh := h.foldl (fun t x => t + x * x) 0
  let gh := (g.zip h).foldl (fun t x => t + x.1 * x.2) 0
  if hh = 0 then g else (g.zip h).map (fun p => p.1 - gh / hh * p.2)

/-- The currents less their orthogonal projection onto the span of the null gains (05 R227). -/
def projectNulls (rows : List (List Rat)) (i : List Cx) : List Cx :=
  match rows with
  | [h] => projectOff h i
  | [h, g] => projectOff (orthogonal h g) (projectOff h i)
  | _ => i

/-- The largest squared magnitude of a list. -/
def maxNorm2 (l : List Cx) : Rat := ratMaxOf (l.map Cx.norm2)

/-- What SOLVE finds (05 R227 to R229): the port words of `used` (codes only), whether the solution is singular, the null
depths in dB, and SCALE; `none` stands for a value the spec does not state. -/
structure Solution where
  words : List (Option Word)
  singular : Bool
  depths : List (Option Nat)
  scale : Option Int
  deriving DecidableEq, Repr

/-- 20 log10 of a ratio of squared magnitudes, to the nearest dB, saturating at 255 (05 R228, R229). -/
def depthDb (num den : Rat) : Nat :=
  if num = 0 then 255 else if den = 0 then 255 else if num ≤ den then 0 else logNear 100 255 (num / den)

/-- SCALE (05 R228): 20 log10(1/g) in steps of 0.04 dB, of a squared ratio; within 10 bits. -/
def scaleSteps (v : Rat) : Option Int :=
  if v ≤ 0 then none
  else
    let up := logNear 4 512 v
    let down := logNear 4 513 (1 / v)
    if 1 ≤ v then (if up ≤ 511 then some (up : Int) else none) else (if down ≤ 512 then some (-(down : Int)) else none)

/-- Solve the currents of an ashlar's words over ports `used` (05 R227 to R229). -/
def solvePattern (survey : List Word) (used : List Nat) (words : List Word) : Solution :=
  let iin := used.map (fun p => wordCurrent (words.getD (p + 1) 0#32))
  let rows := nullRows words used
  let goal := projectNulls rows iin
  let most := maxNorm2 iin
  if maxNorm2 goal * (2 ^ 20 : Nat) ≤ most then
    { words := [], singular := true
      depths := rows.map (fun h => some (depthDb (fieldAt h iin).norm2 0)), scale := none }
  else match drivesFor survey used goal with
  | none => { words := used.map (fun _ => none), singular := false, depths := rows.map (fun _ => none), scale := none }
  | some v =>
    let g2 := most / maxNorm2 v
    let g := ratSqrt g2
    let out := v.map (fun x => encodeDrive (Cx.scale g x))
    let iout := (coilCurrents survey used (out.map wordCurrent)).map (Cx.scale (1 / g))
    { words := out.map some, singular := false
      depths := rows.map (fun h => some (depthDb (fieldAt h iin).norm2 (fieldAt h iout).norm2))
      scale := scaleSteps (1 / g2) }

/-- A repair of an ashlar's port words (05 R231): the currents they produce under the new survey, projected, converted
back to drive, and scaled so that the largest amplitude code is unchanged; the words as they stand where that has no
solution. -/
def repairPattern (survey : List Word) (used : List Nat) (words : List Word) : List Word :=
  let old := used.map (fun p => words.getD (p + 1) 0#32)
  let goal := projectNulls (nullRows words used) (coilCurrents survey used (old.map wordCurrent))
  let keep := fun (w codes : Word) => (w &&& ~~~(maskOf 25 16 ||| maskOf 9 0)) ||| codes
  match drivesFor survey used goal with
  | none => words
  | some v =>
    if maxNorm2 v = 0 then words
    else
      let g := ratSqrt (maxNorm2 (old.map wordCurrent) / maxNorm2 v)
      (used.zip v).foldl (fun ws x =>
        ws.set (x.1 + 1) (keep (ws.getD (x.1 + 1) 0#32) (encodeDrive (Cx.scale g x.2)))) words

end Sys2Proof.Machine
end

