-- ==== Sys2Proof/Machine/FieldOps.lean ====
section
/-!
DEFINITION. Sys2Proof/Machine/FieldOps.lean: the pattern engine (05): which ports an ashlar drives, the field limits,
the field state, and the change of the ashlar driven.
-/
namespace Sys2Proof.Machine

/-- Field states (05 R213). -/
abbrev Fs.off : Nat := 0
abbrev Fs.rampUp : Nat := 1
abbrev Fs.on : Nat := 2
abbrev Fs.rampDown : Nat := 3
abbrev Fs.survey : Nat := 4
abbrev Fs.quiet : Nat := 5
abbrev Fs.thermalOff : Nat := 6

/-- Replace the pattern engine. -/
def setFld (f : FieldUnit) (s : State) : State := { s with fld := f }

/-- FLD.PAT_STATUS.STATE. -/
def fieldState (s : State) : Nat := regBits s Reg.fldPatStatus 31 28

/-- Enter a field state, at this instant. -/
def setFieldState (n : Nat) (s : State) : State :=
  setRegBits Reg.fldPatStatus 31 28 n (setFld { s.fld with since := s.now } s)

/-- The ashlar whose values the engine drives. -/
def activeAshlar (s : State) : Nat := regBits s Reg.fldPatStatus 23 20

/-- FLD.ARRAY.MODE: 0 STANDALONE, 1 HEAD, 2 MEMBER (05 R233). -/
def arrayMode (s : State) : Nat := regBits s Reg.fldArray 31 30

/-- The 13 words of ashlar `n` as PAT holds them (05 R202). -/
def ashlarWords (s : State) (n : Nat) : List Word :=
  (List.range 13).map (fun k => getReg s (Reg.patAshCtrl + 13 * n + k))

/-- Whether a coil is fitted to port `p` (05 R192). -/
def portPresent (s : State) (p : Nat) : Bool := regBit s (Reg.fldPortCfg + p) 31

/-- Whether port `p` is stopped as faulted (05 R195). -/
def portFaulted (s : State) (p : Nat) : Bool := regBit s (Reg.fldPortStatus + p) 31

/-- The ports PRESENT, in ascending order. -/
def presentPorts (s : State) : List Nat := (List.range 8).filter (portPresent s)

/-- Whether the words of an ashlar enable port `p` and the port can be driven (05 R192). -/
def portCandidate (s : State) (words : List Word) (p : Nat) : Bool :=
  bitAt (words.getD (p + 1) 0#32) 31 && portPresent s p && !(portFaulted s p)

/-- The ports the engine drives for the words of ashlar `n`: exactly one for ashlar 0 (05 R201), none for an ashlar with
VALID 0 (R202). -/
def drivenPorts (s : State) (n : Nat) (words : List Word) : List Nat :=
  let ps := (List.range 8).filter (portCandidate s words)
  if !(bitAt (words.getD 0 0#32) 31) then [] else if n = 0 then ps.take 1 else ps

/-- 10^(-0.004) times 10^40, rounded (05 R193). -/
def ampStep : Nat := 9908319448927675744082831438839203524994

/-- Power in 10^-9 mW of a port of full scale `full` mW at amplitude code `code` less `atten` steps: full times
10^(-0.004 x (1023 - code + atten)) (05 R193, R217). -/
def ampPower (full code atten : Nat) : Nat :=
  let k := 1023 - code + atten
  full * 10 ^ 9 * ampStep ^ k / (10 ^ 40) ^ k

/-- Nominal output of port `p` under the words of an ashlar, in 10^-9 mW. -/
def portNominal (s : State) (words : List Word) (p : Nat) : Nat :=
  ampPower (regBits s (Reg.fldPortCfg + p) 24 16) (bitsOf (words.getD (p + 1) 0#32) 9 0) 0

/-- Whether the regulatory region is unreadable: its limits are then 0 (17 R613). -/
def regRegionBad (s : State) : Bool := mramRangePoison s 0xDA000 4096

/-- The field limit of each port and of all ports, in 10^-9 mW (11 R445). -/
def portLimit (s : State) : Nat := if regRegionBad s then 0 else regBits s Reg.regField 8 0 * 10 ^ 9

/-- The limit over all ports. -/
def totalLimit (s : State) : Nat := if regRegionBad s then 0 else regBits s Reg.regField 27 16 * 10 ^ 9

/-- Whether the nominal output of an ashlar meets the field limits (05 R210, R211). -/
def fieldAllowed (s : State) (n : Nat) (words : List Word) : Bool :=
  let ps := drivenPorts s n words
  ps.all (fun p => portNominal s words p ≤ portLimit s)
    && (ps.foldl (fun t p => t + portNominal s words p) 0 ≤ totalLimit s)

/-- The selection the engine is to drive, with its SOURCE code (05 R209): ashlar 0 on bypass, the last cascade switch
made on a member, else the most recent selection. -/
def selection (s : State) : Nat × Nat :=
  if s.clocks.bypass then (0, 3)
  else if arrayMode s = 2 then (s.fld.switched, 4)
  else (s.fld.sel, s.fld.selSource)

/-- Record a refused ashlar (05 R211). -/
def refuseAshlar (n : Nat) (s : State) : State :=
  s |> setRegBits Reg.fldPatStatus 15 12 n |> raiseEvent 0x10 4

/-- The output asked of port `p` now, with the common attenuation (05 R193, R217). -/
def askedPower (s : State) (p : Nat) : Nat :=
  ampPower (regBits s (Reg.fldPortCfg + p) 24 16) (bitsOf (s.fld.driven.getD (p + 1) 0#32) 9 0)
    (regBits s Reg.fldLimitStatus 20 12)

/-- The most a port can deliver at the present VSUP, in 10^-9 mW (05 R194): no bound at 4.5 V or more, else
500 x (VSUP / 4.5 V)^2; PWR.SUPPLY counts 25 mV. -/
def canDeliver (s : State) (p : Nat) : Bool :=
  let v := regBits s Reg.pwrSupply 31 24
  180 ≤ v || askedPower s p ≤ 500 * v * v * 10 ^ 9 / 32400

/-- Set or clear CLIP of port `p`; a port that sets it raises the event (05 R194, R243). -/
def updateClip (p : Nat) (s : State) : State :=
  let driven := (drivenPorts s (activeAshlar s) s.fld.driven).contains p
    && (fieldState s == Fs.on || fieldState s == Fs.rampUp)
  let clip := driven && !(canDeliver s p)
  let was := regBit s (Reg.fldPortStatus + p) 30
  let s := setRegBits (Reg.fldPortStatus + p) 30 30 (bit01 clip) s
  if clip && !was then raiseEvent 0x10 8 s else s

/-- CLIP of all ports. -/
def updateClips (s : State) : State := (List.range 8).foldl (fun t p => updateClip p t) s

/-- A change of the ashlar driven, or an entry to or exit from bypass, breaks a reply in progress (06 R260 BREAK). -/
def breakReply (s : State) : State :=
  match s.frx.reply with
  | none => s
  | some r => { s with frx := { s.frx with reply := some { r with broken := true } } }

/-! ## The gain of the receive chains (06 R245, R248) -/

/-- Replace the receive unit. -/
def setFrx (f : ReceiveUnit) (s : State) : State := { s with frx := f }

/-- Whether chain `p` is used (06 R245). -/
def chainUsed (s : State) (p : Nat) : Bool :=
  regBit s (Reg.frxChainCfg + p) 31 && !(regBit s (Reg.frxChainStatus + p) 29)
    && (!(domainOn s 3) || (portPresent s p && !(portFaulted s p)))

/-- The chains used. -/
def usedChains (s : State) : List Nat := (List.range 8).filter (chainUsed s)

/-- Chain `p` takes gain step `g`: inside a response window the step waits until the window closes. -/
def gainStep (p g : Nat) (s : State) : State :=
  if !(domainOn s 4) then s
  else if s.frx.windowOpen then setFrx { s.frx with gainDue := s.frx.gainDue ++ [(p, g)] } s
  else setRegBits (Reg.frxChainStatus + p) 28 26 g s

/-- Gain steps that fell due inside a window are made when it closes (06 R248). -/
def gainSteps (s : State) : State :=
  s.frx.gainDue.foldl (fun t g => setRegBits (Reg.frxChainStatus + g.1) 28 26 g.2 t)
    (setFrx { s.frx with gainDue := [] } s)

/-- The highest gain step up to `n` at which a signal `below` half decibels below full scale stays below -12 dBFS; 0 where
none does (06 R248). -/
def gainFor (n below : Nat) : Nat :=
  match n with
  | 0 => 0
  | g + 1 => if 24 + 12 * (g + 1) < below then g + 1 else gainFor g below

/-- A used chain with GAIN_AUTO set selects its gain (06 R248). The signal left after cancellation is what the coil picks
up: a free value (notes/assumptions/3.md). -/
def gainAuto (p : Nat) (s : State) : State :=
  if regBit s (Reg.frxChainCfg + p) 30 then s |> gainStep p (gainFor 5 (Config.freeNat s.freeIndex)) |> useFree else s

/-- The gains are selected anew at a field-on and at a change of the ashlar driven. -/
def gainsAuto (s : State) : State :=
  if domainOn s 4 then (usedChains s).foldl (fun t p => gainAuto p t) s else s

/-- A write of FRX.CHAIN_CFG[p]: with GAIN_AUTO clear the chain uses GAIN. -/
def chainCfgWritten (p : Nat) (s : State) : State :=
  let w := getReg s (Reg.frxChainCfg + p)
  if bitAt w 30 then s else gainStep p (bitsOf w 18 16) s

/-! ## Modulation (05 R214 to R216) -/

/-- A reader-to-tag frame is in progress. -/
def readerFrameOn (s : State) : Bool :=
  match s.nfc.run with
  | none => false
  | some r => r.framed && s.now < r.frameEnd

/-- The pause of the reader frame in progress at this instant, with its edge of FLD.MOD.EDGE cycles (05 R216): when it
ends, and the depth that the job calls for. -/
def pauseNow (s : State) : Option (Nat × Nat) :=
  let edge := regBits s Reg.fldMod 10 8
  (s.fld.pauses.find? (fun p => p.1 ≤ s.now && s.now < p.2.1 + edge)).map (fun p => (p.2.1 + edge, p.2.2))

/-- The words in force: inside a pause, those from before an ashlar change that fell into it (05 R216). -/
def wordsInForce (s : State) : List Word :=
  match s.fld.beforePause with
  | some (t, w) => if s.now < t then w else s.fld.driven
  | none => s.fld.driven

/-- The depth of modulation at a port in percent, for a job that calls for `depth` (05 R215): MOD 0 follows the job, 1 keeps
the drive, 8 to 30 are that depth, 31 is 100. -/
def modDepth (w : Word) (depth : Nat) : Nat :=
  let m := bitsOf w 30 26
  if m = 1 then 0 else if m = 31 then 100 else if 8 ≤ m then m else depth

/-- How port `p` is driven at this instant: its phase and amplitude codes and the depth of a pause in percent; `none` where
it is not driven, or stopped for a pause of 100 % ASK (05 R215). -/
def portDrive (s : State) (p : Nat) : Option (Nat × Nat × Nat) :=
  let w := (wordsInForce s).getD (p + 1) 0#32
  let depth := match pauseNow s with
    | none => 0
    | some q => modDepth w q.2
  if (drivenPorts s (activeAshlar s) (wordsInForce s)).contains p && depth < 100
    && (fieldState s == Fs.rampUp || fieldState s == Fs.on || fieldState s == Fs.rampDown)
  then some (bitsOf w 25 16, bitsOf w 9 0, depth) else none

/-- Drive ashlar `n` with its present words, from source `src` (05 R205 to R209); inside a pause they apply when it ends
(R216). -/
def driveAshlar (n src : Nat) (s : State) : State :=
  s |> setFld { s.fld with driven := ashlarWords s n, changeDue := false, rewriteDue := false
                           beforePause := (pauseNow s).map (fun p => (p.1, wordsInForce s)) }
    |> setRegBits Reg.fldPatStatus 23 20 n |> setRegBits Reg.fldPatStatus 18 16 src
    |> breakReply |> gainsAuto |> updateClips

/-- Whether the selection would be refused (05 R211); the ashlar 0 that an entry to bypass forces is driven without this
check (R199). -/
def changeRefused (s : State) : Bool :=
  let n := (selection s).1
  !(fieldAllowed s n (ashlarWords s n))

/-- The engine takes the selection at a tap-0 edge (05 R205, R206, R211). A refusal leaves ACTIVE and SOURCE as they stand,
so that after a refused return from bypass SOURCE reads BYPASS (notes/assumptions/55.md). -/
def takeSelection (s : State) : State :=
  let n := (selection s).1
  if changeRefused s then setFld { s.fld with changeDue := false } s |> refuseAshlar n
  else driveAshlar n (selection s).2 s

/-- New words of the ashlar in force are taken at a tap-0 edge, where the selection itself was refused (05 R206, R211). -/
def takeRewrite (s : State) : State :=
  let n := activeAshlar s
  if !(s.fld.rewriteDue) then s
  else if fieldAllowed s n (ashlarWords s n) then driveAshlar n (regBits s Reg.fldPatStatus 18 16) s
  else setFld { s.fld with rewriteDue := false } s |> refuseAshlar n

/-- What is due at a tap-0 edge is taken (05 R205, R206). -/
def tapEdge (s : State) : State :=
  if !(domainOn s 3) || s.clocks.bypass then s
  else takeRewrite (if s.fld.changeDue then takeSelection s else s)

/-- A selection is made: `src` 1 from FLD.PATSEL, 2 from a job step, 4 from a cascade switch. -/
def selectAshlar (n src : Nat) (s : State) : State :=
  setFld { s.fld with sel := n, selSource := src, changeDue := true } s

/-- The secondary of a cascade head drives no coil (16 R593): CSC.STATUS reads HELD. -/
def headHeld (s : State) : Bool := regBits s Reg.cscStatus 31 28 == 5

/-- Whether the field is requested (05 R212): not while PD3 is being switched off (R240) or the device is HELD; FLD.FIELD.ON is
ignored on a cascade member (16 R604). -/
def fieldRequested (s : State) : Bool :=
  ((regBit s Reg.fldField 0 && arrayMode s != 2) || s.fld.jobHold) && !(draining s 3) && !(headHeld s)

/-- Whether a field-on due now would be refused (05 R211). -/
def riseRefused (s : State) : Bool :=
  fieldState s == Fs.off && fieldRequested s && s.fld.offMinDone && changeRefused s

/-- The field ramps up on the selection, or stays OFF where it is refused (05 R211, R213). -/
def rampField (s : State) : State :=
  if changeRefused s then s |> refuseAshlar (selection s).1 |> setFieldState Fs.off
  else s |> driveAshlar (selection s).1 (selection s).2 |> setFieldState Fs.rampUp

/-- The port a survey drives next: the lowest PRESENT one above those done (05 R219). -/
def nextSurveyPort (s : State) : Option Nat :=
  (presentPorts s).find? (fun p => s.fld.survey.all (fun r => r.1 < p) && !(portFaulted s p))

/-- The field rises: refused under R211, or preceded by the first survey (05 R225), or ramping up (R213). With no PRESENT
port that is not faulted there is nothing to survey, and the rise is not delayed (notes/assumptions/55.md). -/
def riseField (s : State) : State :=
  let t := setFld { s.fld with survey := [] } s
  if changeRefused s then refuseAshlar (selection s).1 s
  else if !(s.fld.surveyValid) && (nextSurveyPort t).isSome then setFieldState Fs.survey t
  else rampField s

/-- The field follows its request (05 R213). A request that ends in SURVEY leads to OFF at once (notes/assumptions/55.md).
The step of a job that waits for a cascade switch comes before the rise (R239). -/
def fieldMove (s : State) : State :=
  let st := fieldState s
  if st = Fs.off then
    (if fieldRequested s && s.fld.offMinDone && !(regBit s Reg.fldCascStatus 31 && s.fld.jobHold && arrayMode s == 1)
     then riseField s else s)
  else if st = Fs.rampUp ∨ st = Fs.on then (if fieldRequested s then s else setFieldState Fs.rampDown s)
  else if st = Fs.survey then (if fieldRequested s then s else setFieldState Fs.off s)
  else s

/-- The field follows its request at once, or on a cascade head at the cycle of the ramp that is announced (16 R604), but
for the fall of a domain that is switched off. -/
def fieldUpdate (s : State) : State :=
  if arrayMode s = 1 && !(draining s 3) then s else fieldMove s

/-- Mark port `p` faulted with KIND `k` (05 R195, R243). -/
def faultPort (p k : Nat) (s : State) : State :=
  s |> setRegBits (Reg.fldPortStatus + p) 31 31 1 |> setRegBits (Reg.fldPortStatus + p) 29 28 k
    |> setRegBits (Reg.fldPortStatus + p) 30 30 0 |> raiseFault 0x10 0 (p * 256 + k)

/-- A write of FLD.PORT_CFG[p] clears the port's fault (05 R195). -/
def portCfgWritten (p : Nat) (s : State) : State :=
  s |> setRegBits (Reg.fldPortStatus + p) 31 31 0 |> setRegBits (Reg.fldPortStatus + p) 29 28 0

/-- A write of FLD.PATSEL is a selection from NEXT (05 R205, R207); on bypass it is recorded (R200). -/
def patselWritten (s : State) : State := selectAshlar (regBits s Reg.fldPatsel 3 0) 1 s

/-- A write to the ashlar being driven is taken at the next tap-0 edge (05 R206). -/
def patWritten (off : Nat) (s : State) : State :=
  if 16 ≤ off ∧ (off - 16) / 13 = activeAshlar s then setFld { s.fld with rewriteDue := true } s else s

/-- The ISO-DEP session ends without DESELECT (07 R303). -/
def loseSession (s : State) : State :=
  if regBit s Reg.proSession 31 then s |> setReg Reg.proSession 0#32 |> raiseEvent 0x14 1 else s

/-- A member's ports ramp down and it enters QUIET (05 R236 to R238, 16 R601); a switch announced before it no longer brings
it out (R236). THERMAL_OFF stays. -/
def enterQuiet (s : State) : State :=
  if domainOn s 3 && fieldState s != Fs.thermalOff then
    s |> setRegBits Reg.fldCascStatus 31 31 0 |> setFieldState Fs.quiet else s

/-- A cascade switch that is scheduled is not made: a door command ends MEMBER_LATE, a job's step is the selection again
(notes/assumptions/55.md). -/
def dropSwitch (s : State) : State :=
  if !(regBit s Reg.fldCascStatus 31) then s
  else
    let n := regBits s Reg.fldCascStatus 27 24
    let s := setRegBits Reg.fldCascStatus 31 31 0 s
    match s.fld.switchId with
    | some id => s |> setFld { s.fld with switchId := none } |> finishCmd id 0x42
    | none => setFld { s.fld with sel := n, selSource := 4, changeDue := false } s

/-- The engine enters bypass (05 R199, R237, R238): a member goes quiet, without ashlar 0; any other device forces ashlar 0,
and a head makes no switch it had scheduled. The session is lost (07 R303), and a running job carries the mark (R292). -/
def fieldBypass (s : State) : State :=
  let s := if arrayMode s = 2 then s |> breakReply |> enterQuiet
    else s |> dropSwitch |> driveAshlar 0 3 |> raiseEvent 0x10 0
  let s := loseSession s
  match s.nfc.run with
  | none => s
  | some r => { s with nfc := { s.nfc with run := some { r with
      bypassed := true
      anti := { r.anti with broken := r.inFrame, step := .request, replied := false, collided := false, fresh := false
                            mask := (0, 0), masks := [], found := [] } } } }

/-- FLD.CYCLE (05 R198); it starts from 0 when PD3 is switched on (notes/assumptions/55.md). -/
def fldCycle (s : State) : Nat := (s.now + s.fld.cycleOff) % 2 ^ 32

/-- Schedule a cascade switch to ashlar `n` (05 R236): at FLD.CYCLE plus the lead. -/
def scheduleSwitch (n : Nat) (id : Option Nat) (s : State) : State :=
  s |> setReg Reg.fldCascAt (BitVec.ofNat 32 (fldCycle s + regBits s Reg.fldCascLead 15 0))
    |> setRegBits Reg.fldCascStatus 31 31 1 |> setRegBits Reg.fldCascStatus 27 24 n
    |> setFld { s.fld with switchId := id }

/-- The engine leaves bypass at the first tap-0 edge after lock (05 R199): it returns to the selection; a head
schedules a switch to it (R237); a member waits for a switch (R238). -/
def fieldLocked (s : State) : State :=
  let s := raiseEvent 0x10 1 s
  if arrayMode s = 2 then breakReply s
  else
    let s := s |> breakReply |> takeSelection
    if arrayMode s = 1 then scheduleSwitch (selection s).1 none s else s

/-- The attenuation in force. -/
def atten (s : State) : Nat := regBits s Reg.fldLimitStatus 20 12

/-- The field enters THERMAL_OFF (05 R218); its fall ends the ISO-DEP session (07 R303). -/
def thermalOff (hottest : Int) (s : State) : State :=
  s |> setFieldState Fs.thermalOff |> setFld { s.fld with offMinDone := false }
    |> raiseFault 0x10 1 (intField 8 hottest) |> raiseEvent 0x10 3 |> loseSession

/-! ## The survey (05 R219 to R225) -/

/-- A signed 16-bit half of a word. -/
def signed16 (n : Nat) : Int := if n < 32768 then (n : Int) else (n : Int) - 65536

/-- The squared magnitude of the difference of two I/Q words, in units of (1/16,384)^2. -/
def iqDiff2 (a b : Word) : Nat :=
  let di := signed16 (bitsOf a 31 16) - signed16 (bitsOf b 31 16)
  let dq := signed16 (bitsOf a 15 0) - signed16 (bitsOf b 15 0)
  (di * di + dq * dq).toNat

/-- The largest m up to `n` with m^2 x unit2 at most x. -/
def rootIn (n unit2 x : Nat) : Nat :=
  match n with
  | 0 => 0
  | k + 1 => if (k + 1) * (k + 1) * unit2 ≤ x then k + 1 else rootIn k unit2 x

/-- One response against that of the port driven, as I and Q in Q1.14, rounded to nearest (05 R222); `free` where it lies
outside that format, and where the port driven has none. -/
def couplingWord (free : Word) (self other : Int × Int) : Word :=
  let k := Cx.scale 16384 (Cx.mul (Cx.ofPair other) (Cx.ofPair self).inv)
  let i := (k.re + 1 / 2).floor
  let q := (k.im + 1 / 2).floor
  if self = (0, 0) ∨ i < -32768 ∨ 32767 < i ∨ q < -32768 ∨ 32767 < q then free
  else fieldWord 31 16 (intField 16 i) ||| fieldWord 15 0 (intField 16 q)

/-- MOVE: the largest change of an off-diagonal entry in 1/1,024, saturating at 255 (05 R223). -/
def surveyMove (ref cur : List Word) : Nat :=
  ((List.range 64).filter (fun e => e % 9 != 0)).foldl
    (fun m e => max m (rootIn 255 256 (iqDiff2 (ref.getD e 0#32) (cur.getD e 0#32)))) 0

/-- The 64 entries K[i][j] of a completed survey: K[i][i] is 1, other entries of a port that was not surveyed are 0
(05 R222). -/
def surveyEntries (rows : List (Nat × List Word)) : List Word :=
  (List.range 64).map (fun e =>
    if e / 8 = e % 8 then 0x40000000#32
    else match keyFind rows (e / 8) with
    | none => 0#32
    | some r => r.getD (e % 8) 0#32)

/-- The ports of a survey as a mask. -/
def surveyMask (rows : List (Nat × List Word)) : Nat := rows.foldl (fun n r => n + 2 ^ r.1) 0

/-- The survey record (05 R222). -/
def surveyRecord (seq : Nat) (hottest : Int) (rows : List (Nat × List Word)) : List Word :=
  (fieldWord 31 16 seq ||| 1#32) :: (fieldWord 31 24 (intField 8 hottest) ||| fieldWord 7 0 (surveyMask rows)) ::
    (surveyEntries rows ++ [fieldWord 31 16 seq])

/-- The words of ashlar `n` after a repair under a survey (05 R231): as they stand where it is not marked for repair, and
where mason 1 left them so under the same survey. -/
def repairedWords (survey : List Word) (s : State) (n : Nat) : List Word :=
  let ws := ashlarWords s n
  let c := ws.getD 0 0#32
  if !(bitAt c 31 && bitAt c 30 && 1 ≤ bitsOf c 29 28) then ws
  else if s.fld.repairSurvey == survey && s.fld.repaired.contains (n, ws) then ws
  else repairPattern survey ((List.range 8).filter (portCandidate s ws)) ws

/-- A repair pass (05 R231 to R233): the changed port words of every ashlar marked for repair, staged by mason 1 in a
transaction of its own that waits for TAP0. -/
def repairPass (survey : List Word) (s : State) : State :=
  let after := (List.range 16).map (fun n => (n, repairedWords survey s n))
  let writes := after.flatMap (fun a => (List.range 8).filterMap (fun p =>
    let i := Reg.patAshCtrl + 13 * a.1 + 1 + p
    let w := a.2.getD (p + 1) 0#32
    if getReg s i = w then none else some (i, w)))
  if arrayMode s ≠ 0 ∨ txnOwnerWord s 0x11 &&& 0xFF#32 ≠ 0#32 then s
  else
    let s := setFld { s.fld with repaired := after, repairSurvey := survey } s
    match writes, openTxn (.mason 1) false s with
    | _ :: _, (t, _, some k) =>
      setTxn k { txnAt t k with phase := .waiting, cond := 0x20, regs := writes, preparedAt := s.now } t
    | _, _ => s

/-- Whether a transaction is mason 1's repair (05 R231). -/
def isRepair (x : Txn) : Bool := x.requester == .mason 1 && x.cond == 0x20 && x.tag == 0 && x.phase == .waiting

/-- A full survey completes (05 R222, R223): record, SEQ, MOVE, events, the repair pass, and the field's rise where the
survey was the first. -/
def surveyComplete (hottest : Int) (s : State) : State :=
  let rows := s.fld.survey
  let seq := (regBits s Reg.fldSurveyStatus 31 16 + 1) % 65536
  let cur := surveyEntries rows
  let ref := if s.fld.reference.isEmpty then cur else s.fld.reference
  let move := surveyMove ref cur
  let s := engineWrite 0xFF000 (wordsBytes (surveyRecord seq hottest rows)) s
  let s := s |> setRegBits Reg.fldSurveyStatus 31 16 seq |> setRegBits Reg.fldSurveyStatus 7 0 move
    |> setFld { s.fld with survey := [], surveyFull := false, surveyValid := true, reference := ref, last := cur,
                           surveyAt := s.now }
    |> raiseEvent 0x10 5
  let s := if regBits s Reg.fldSurvey 15 8 ≤ move then
      s |> raiseEvent 0x10 6 |> repairPass cur |> fun t => setFld { t.fld with reference := cur } t
    else s
  if fieldState s = Fs.survey then rampField s else s

/-- The background survey is due (05 R220): it is under way, or the last survey is PERIOD old. -/
def backgroundDue (s : State) : Bool :=
  !(s.fld.survey.isEmpty) || !(s.fld.surveyValid) || s.fld.surveyAt + regBits s Reg.fldSurvey 7 0 * 1356000 ≤ s.now

/-- Whether a survey step may run (05 R220, R221, R225): the first survey, a full one that was asked for, or the
background one, at tap-0 edges while the field is ON and no contactless job is accepted; in a cascade, when the head has
announced the step for this device (R239, 16 R604). -/
def surveyMayRun (s : State) : Bool :=
  (arrayMode s == 0 || s.cascade.surveyTurn)
    && (fieldState s == Fs.survey || (s.fld.surveyFull && (fieldState s == Fs.off || fieldState s == Fs.on))
      || (fieldState s == Fs.on && regBit s Reg.fldSurvey 31 && s.nfc.table.isEmpty && !(s.clocks.bypass)
          && backgroundDue s))

/-- The survey's drive of port `p` meets the field limits (05 R219, R211). -/
def surveyAllowed (s : State) (p : Nat) : Bool :=
  ampPower (regBits s (Reg.fldPortCfg + p) 24 16) (1023 - 25 * regBits s Reg.fldSurvey 23 16) 0
    ≤ min (portLimit s) (totalLimit s)

end Sys2Proof.Machine
end

