-- ==== Sys2Proof/Machine/CardDetect.lean ====
section
/-!
DEFINITION. Sys2Proof/Machine/CardDetect.lean: card detection (07 R312 to R316): scans in Run, the probe in Stop, and
RELEARN.
-/
namespace Sys2Proof.Machine

/-- Replace the card detection state. -/
def setCard (c : CardUnit) (s : State) : State := { s with card := c }

/-- Whether a Run scan may run (07 R312); never on a cascade member (16 R604) or while HELD (16 R593). -/
def scanMayRun (s : State) : Bool :=
  regBit s Reg.lpdRunCtrl 31 && domainOn s 3 && domainOn s 4 && fieldState s == Fs.off && s.nfc.table.isEmpty
    && !(regBit s Reg.fldField 0) && arrayMode s != 2 && !(headHeld s)

/-- Whether a scan of period `ms` is due (07 R312, R314). -/
def scanDue (s : State) (last : Option Nat) (ms : Nat) : Bool :=
  match last with
  | some t => passedMs s t ms
  | none => true

/-- Squared magnitude of a complex value. -/
def mag2 (z : Int × Int) : Nat := (z.1 * z.1 + z.2 * z.2).toNat

/-- Squared magnitude of a difference. -/
def diff2 (a b : Int × Int) : Nat := mag2 (a.1 - b.1, a.2 - b.2)

/-- A change of more than `thresh` / 1,024 of the baseline (07 R313). -/
def beyond (thresh : Nat) (d b : Int × Int) : Bool := thresh * thresh * mag2 b < diff2 d b * 1048576

/-- The change in 1/1,024 of the baseline, rounded down, saturating at 1,023. -/
def changeOf (d b : Int × Int) : Nat := rootIn 1023 (mag2 b) (diff2 d b * 1048576)

/-- The ports a scan drives. -/
def scanPorts (s : State) : List Nat := (presentPorts s).filter (fun p => !(portFaulted s p))

/-- The mask of a list of ports. -/
def portMask (ps : List Nat) : Nat := ps.foldl (fun n p => n + 2 ^ p) 0

/-- A learning scan: the responses add up, and the fourth makes their mean the baseline and ends every RELEARN
(07 R313, R316; notes/assumptions/13.md). -/
def learnScan (responses : List (Int × Int)) (s : State) : State :=
  let c := s.card
  let from0 := if c.learn = 4 then List.replicate 8 ((0 : Int), (0 : Int)) else c.base
  let sum := (List.range 8).map (fun p =>
    let b := from0.getD p (0, 0)
    let d := responses.getD p (0, 0)
    (b.1 + d.1, b.2 + d.2))
  if c.learn = 1 then
    let s := setCard { c with learn := 0, base := sum.map (fun b => (b.1 / 4, b.2 / 4)), overs := 0, hold := false,
                              under := 0, above := false, relearn := [] } s
    c.relearn.foldl (fun t r => finishCmd r.1 Oc.done t) s
  else setCard { c with learn := c.learn - 1, base := sum } s

/-- The baselines after a scan: each moves a sixteenth of the difference while its change is not beyond the threshold
(07 R313). -/
def trackBase (thresh : Nat) (ports : List Nat) (responses base : List (Int × Int)) : List (Int × Int) :=
  (List.range 8).map (fun p =>
    let b := base.getD p (0, 0)
    let d := responses.getD p (0, 0)
    if ports.contains p && !(beyond thresh d b) then (b.1 + (d.1 - b.1) / 16, b.2 + (d.2 - b.2) / 16) else b)

/-- A scan after learning (07 R313): a hit needs CONFIRM consecutive scans with a change beyond the threshold, and
after a hit CONFIRM scans without one come first. -/
def detectScan (responses : List (Int × Int)) (s : State) : State :=
  let c := s.card
  let thresh := regBits s Reg.lpdRunCtrl 7 0
  let confirm := regBits s Reg.lpdRunCtrl 9 8
  let ports := scanPorts s
  let far := ports.filter (fun p => beyond thresh (responses.getD p (0, 0)) (c.base.getD p (0, 0)))
  let above := !far.isEmpty
  if c.hold then
    let under := if above then 0 else c.under + 1
    setCard { c with above := above, under := under, hold := under < confirm, overs := 0 } s
  else
    let overs := if above then c.overs + 1 else 0
    if confirm ≤ overs then
      let delta := ports.foldl (fun m p => max m (changeOf (responses.getD p (0, 0)) (c.base.getD p (0, 0)))) 0
      s |> setCard { c with above := true, overs := 0, hold := true, under := 0 }
        |> setReg Reg.lpdHit (fieldWord 31 30 1 ||| fieldWord 23 16 (portMask far) ||| fieldWord 9 0 delta)
        |> countReg Reg.lpdHits 1 |> raiseEvent 0x16 0
    else setCard { c with above := above, overs := overs, base := trackBase thresh ports responses c.base } s

/-- RUN_SCAN (07 R312, R313): every PERIOD_MS, subject to the field limits like a survey step (05 R219, R211). -/
def runScan (responses : List (Int × Int)) (s : State) : State :=
  if !(scanMayRun s) || !(scanDue s s.card.scanAt (regBits s Reg.lpdRunCtrl 25 16)) then s
  else
    let s := setCard { s.card with scanAt := some s.now } s
    if !((scanPorts s).all (surveyAllowed s)) then raiseEvent 0x10 4 s
    else if 0 < s.card.learn then learnScan responses s
    else detectScan responses s

/-- RUN_SCAN. -/
def execRunScan (responses : List (Int × Int)) (s : State) : Out := .next (runScan responses s)

/-- The probe's coils in use: those scanned less those left out in learning (07 R315). -/
def probeCoils (s : State) : List Nat :=
  (List.range 8).filter (fun p => regBit s Reg.lpdStopCtrl p && !(s.card.probeLeft.getLsbD p))

/-- A learning scan of the probe: the fourth makes the mean the baseline and leaves out coils that stayed at 0
(07 R314, R315). -/
def probeLearnScan (codes : List Nat) (s : State) : State :=
  let c := s.card
  let from0 := if c.probeLearn = 4 then List.replicate 8 0 else c.probeBase
  let sum := (List.range 8).map (fun p => from0.getD p 0 + codes.getD p 0)
  if c.probeLearn = 1 then
    let dead := (List.range 8).filter (fun p => regBit s Reg.lpdStopCtrl p && sum.getD p 0 == 0)
    setCard { c with probeLearn := 0, probeBase := sum.map (· / 4), probeLeft := BitVec.ofNat 8 (portMask dead) } s
  else setCard { c with probeLearn := c.probeLearn - 1, probeBase := sum } s

/-- The distance of two codes. -/
def codeDist (a b : Nat) : Nat := (a - b) + (b - a)

/-- A scan of the probe after learning (07 R314): a hit is a change of THRESH or more in any coil in CONFIRM
consecutive scans; other baselines move one code. -/
def probeDetectScan (codes : List Nat) (s : State) : State :=
  let c := s.card
  let thresh := regBits s Reg.lpdStopCtrl 15 8
  let confirm := regBits s Reg.lpdStopCtrl 17 16
  let coils := probeCoils s
  let far := coils.filter (fun p => thresh ≤ codeDist (codes.getD p 0) (c.probeBase.getD p 0))
  let base := (List.range 8).map (fun p =>
    let b := c.probeBase.getD p 0
    let x := codes.getD p 0
    if !(coils.contains p) || far.contains p then b else if b < x then b + 1 else if x < b then b - 1 else b)
  let overs := if far.isEmpty then 0 else c.probeOver + 1
  if confirm ≤ overs then
    let delta := far.foldl (fun m p => max m (codeDist (codes.getD p 0) (c.probeBase.getD p 0))) 0
    setCard { c with probeBase := base, probeOver := 0, probeHit := BitVec.ofNat 8 (portMask far), probeDelta := delta } s
  else setCard { c with probeBase := base, probeOver := overs } s

/-- PROBE_SCAN (07 R314): only in Stop with the probe enabled, RATE times a second; a hit is a wake source (15 R577). -/
def probeScan (codes : List Nat) (s : State) : State :=
  match s.phase with
  | .stopped =>
    if !(regBit s Reg.lpdStopCtrl 31) || !s.rtc.lfOk || !(scanDue s s.card.probeAt (1000 / 2 ^ regBits s Reg.lpdStopCtrl 25 24)) then s
    else
      let s := setCard { s.card with probeAt := some s.now } s
      if 0 < s.card.probeLearn then probeLearnScan codes s else probeDetectScan codes s
  | _ => s

/-- PROBE_SCAN. -/
def execProbeScan (codes : List Nat) (s : State) : Out := .next (probeScan codes s)

/-- LPD door command RELEARN (07 R316). -/
def doorRelearn (req : Requester) (word : Word) (s : State) : State :=
  doorWrite req 0x16 word (firstRefusal [(bitsOf word 15 0 != 0, Oc.badArg)]) none
    (fun id _ t => t |> cardRelearn |> (fun u => setCard { u.card with relearn := u.card.relearn ++ [(id, u.now)] } u)) s

/-- RELEARN. -/
def execRelearn (req : Requester) (tag : Byte) (arg : BitVec 16) (s : State) : Out :=
  .next (doorIssue 0x16 doorRelearn req (doorWord tag 0x10 arg) s)

/-- RELEARN_NOT_RUN (07 R316): no scan could run within 1 s of the command: no learning scan has been made since. -/
def execRelearnNotRun (s : State) : Out :=
  .next (match s.card.relearn with
    | [] => s
    | r :: t =>
      if s.card.learn = 4 ∧ passedMs s r.2 1000 then s |> setCard { s.card with relearn := t } |> finishCmd r.1 Oc.notRun
      else s)

end Sys2Proof.Machine
end

