-- ==== Sys2Proof/Machine/Clocks.lean ====
section
/-!
DEFINITION. Sys2Proof/Machine/Clocks.lean: island clocks, the plumb line and the real-time counter (15 R558 to R570).
-/
namespace Sys2Proof.Machine

/-- Replace the clocks. -/
def setClocks (c : Clocks) (s : State) : State := { s with clocks := c }

/-- The class of the island of a domain (01 R14, 03 R112). -/
def domainClass (d : Nat) : Nat :=
  match d with
  | 1 => 1
  | 2 => 2
  | 3 => 3
  | 4 => 3
  | 5 => 4
  | 6 => 4
  | 7 => 5
  | 8 => 7
  | 9 => 6
  | _ => 0

/-- Whether an island has a domain that is powered. -/
def islandPowered (s : State) (c : Nat) : Bool :=
  (List.range 10).any (fun d => 1 ≤ d && domainClass d == c && (s.power.on.getLsbD d || s.power.starting.getLsbD d))

/-- The bit of an island in CLK.XTAL.ISLANDS. -/
def setIsland (c : Nat) (on : Bool) (s : State) : State :=
  let bit := BitVec.ofNat 8 (2 ^ c)
  setClocks { s.clocks with islands := if on then s.clocks.islands ||| bit else s.clocks.islands &&& ~~~bit } s

/-- LF_OSC (15 R559): the 32.768 kHz oscillator is marked failed when no edge of it is seen for 1 ms, and good again
when edges are seen; the counter goes on from where it stands. -/
def execLfOsc (failed : Bool) (s : State) : Out :=
  .next (if live s && s.rtc.lfOk == failed then
      let s := rtcSet (rtcCount s) (slewLeft s) s
      let s := { s with rtc := { s.rtc with lfOk := !failed } }
      if failed then raiseFault 0x05 0 0 s else s
    else s)

/-! ## The plumb line (15 R560 to R565) -/

/-- CLK.PLUMB_STATUS.STATE. -/
def PlumbState.code (p : PlumbState) : Nat :=
  match p with
  | .off => 0
  | .acquiring => 1
  | .locked => 2
  | .noRef => 3

/-- CLK.PLUMB_STATUS. -/
def plumbWord (s : State) : Word :=
  fieldWord 31 28 (PlumbState.code s.clocks.plumb) ||| fieldWord 15 0 (capAt 0xFFFF s.clocks.lockUs)

/-- The plumb line leaves tap 0 if it is LOCKED (15 R563, R565): consumers move to the bypass clock, and TAP0 commits that
stand frozen keep so (04 R174). -/
def plumbUnlock (s : State) : State :=
  if s.clocks.plumb = .locked then
    let s := keepFrozen s
    let s := s |> setClocks { s.clocks with bypass := true } |> countReg Reg.clkLosses 1 |> raiseEvent 0x05 1
    if domainOn s 3 then fieldBypass s else s
  else s

/-- Acquisition restarts (15 R563). -/
def plumbRestart (s : State) : State :=
  if s.clocks.plumb = .off then s
  else
    let s := plumbUnlock s
    setClocks { s.clocks with plumb := .acquiring, acqNow := s.now } s

/-- PD3 is switched on: acquisition begins on the bypass clock (15 R563, R565). -/
def plumbOn (s : State) : State :=
  setClocks { s.clocks with plumb := .acquiring, bypass := true, acqNow := s.now } s

/-- PD3 is off. -/
def plumbOff (s : State) : State := setClocks { s.clocks with plumb := .off, bypass := false } s

/-- Whether the reference is CREF doubled (15 R560). -/
def plumbDouble (s : State) : Bool := regBits s Reg.clkPlumb 1 0 == 2

/-- The line locks (15 R563, R565); while PD3 is not ready yet the pattern engine does not follow. -/
def plumbLocks (s : State) : State :=
  if s.clocks.plumb = .acquiring then
    let us := cyclesUs (s.now - s.clocks.acqNow)
    let s := s |> setClocks { s.clocks with plumb := .locked, bypass := false, lockUs := us, acqNow := s.now }
      |> countReg Reg.clkLocks 1 |> raiseEvent 0x05 0
    if domainOn s 3 then fieldLocked s else s
  else s

/-- Whether PD3 can be ready (15 R572): the line is LOCKED, or its reference is missing. -/
def plumbSettled (s : State) : Bool := s.clocks.plumb == .locked || s.clocks.plumb == .noRef

/-- The plumb line has been in its state for `n` periods. -/
def plumbPeriods (s : State) (n : Nat) : Bool := s.clocks.acqNow + n ≤ s.now

/-- PLUMB_LOCKED (15 R563): after 64 periods in phase. -/
def execPlumbLocked (s : State) : Out := .next (if live s && plumbPeriods s 64 then plumbLocks s else s)

/-- PLUMB_BYPASS (15 R563): a LOCKED line loses lock, after 8 periods out of phase. -/
def execPlumbBypass (s : State) : Out :=
  .next (if live s && s.clocks.plumb == .locked && plumbPeriods s 8 then plumbRestart s else s)

/-- The CREF reference is missing or off frequency (15 R563): only in DOUBLE. -/
def refLost (s : State) : State :=
  if plumbDouble s && (s.clocks.plumb == .acquiring || s.clocks.plumb == .locked) then
    let s := plumbUnlock s
    s |> setClocks { s.clocks with plumb := .noRef, acqNow := s.now } |> raiseEvent 0x05 2
  else s

/-- REF_LOST. -/
def execRefLost (s : State) : Out := .next (if live s then refLost s else s)

/-- REF_RESTORED (15 R563): a NO_REF line enters ACQUIRING once 16 periods had every edge. -/
def execRefRestored (s : State) : Out :=
  .next (if live s && s.clocks.plumb == .noRef && plumbPeriods s 16 then plumbRestart s else s)

/-! ## The real-time counter (15 R566 to R569) -/

/-- CLK.SLEW and CLK.RTC_TRIM in two's complement. -/
def intWord (v : Int) : Word := BitVec.ofNat 32 (intField 32 v)

/-- RTC_TRIM (15 R566): the rate correction found over a window of 16 s, within 500 ppm. The oscillator must run. -/
def execRtcTrim (ppm10 : Int) (s : State) : Out :=
  .next (if live s && s.rtc.lfOk && passedMs s s.rtc.trimAt 16000 then
      let s := rtcSet (rtcCount s) (slewLeft s) s
      { s with rtc := { s.rtc with trim := max (-5000) (min 5000 ppm10), trimAt := s.now } }
    else s)

/-- CLK door command SET_TIME (15 R568). -/
def doorSetTime (req : Requester) (word : Word) (s : State) : State :=
  doorWrite req 0x05 word (firstRefusal [(bitsOf word 15 0 != 0, Oc.badArg)]) none
    (fun id _ t => t |> rtcStep (regBits t Reg.clkRtcSetSec 31 0 * 32768 + regBits t Reg.clkRtcSetSub 14 0)
      |> raiseEvent 0x05 4 |> finishCmd id Oc.done) s

/-- SET_TIME. -/
def execSetTime (req : Requester) (tag : Byte) (arg : BitVec 16) (s : State) : Out :=
  .next (doorIssue 0x05 doorSetTime req (doorWord tag 0x10 arg) s)

/-- ALARM (15 R569): the counter has reached the alarm value. It fires in Stop too, where it is a wake source. -/
def execAlarm (s : State) : Out :=
  .next (if s.phase = .inReset then s else alarmCheck s)

/-- A write to ALARM_SEC, ALARM_SUB or ALARM_EN arms the alarm again and compares at once (15 R569). -/
def alarmWritten (s : State) : State :=
  { s with rtc := { s.rtc with alarmFired := false } } |> alarmCheck

/-- CLK.XTAL. -/
def xtalWord (s : State) : Word :=
  fieldWord 31 31 1 ||| fieldWord 30 30 (bit01 s.rtc.lfOk) ||| fieldWord 29 29 (bit01 s.rtc.lost)
    ||| fieldWord 7 0 s.clocks.islands.toNat

end Sys2Proof.Machine
end

