-- ==== Sys2Proof/Machine/NfcFrames.lean ====
section
/-!
DEFINITION. Sys2Proof/Machine/NfcFrames.lean: the check values, the parity and the reader frames of the contactless
protocols (07 R281, R297, R301 to R305). The spec names the standards of R279 for them; the codings stand in
notes/assumptions/57.md.
-/
namespace Sys2Proof.Machine

/-! ## Check values and parity -/

/-- One bit of a reflected 16-bit CRC with polynomial 0x8408. -/
def crcBitLow (c : Nat) : Nat := if c % 2 = 1 then (c / 2) ^^^ 0x8408 else c / 2

/-- One byte of it. -/
def crcByteLow (c : Nat) (b : Byte) : Nat := (List.range 8).foldl (fun x _ => crcBitLow x) (c ^^^ b.toNat)

/-- One bit of a 16-bit CRC with polynomial 0x1021, from the most significant bit. -/
def crcBitHigh (c : Nat) : Nat := if c < 0x8000 then c * 2 else (c * 2) % 0x10000 ^^^ 0x1021

/-- One byte of it. -/
def crcByteHigh (c : Nat) (b : Byte) : Nat := (List.range 8).foldl (fun x _ => crcBitHigh x) (c ^^^ (b.toNat * 256))

/-- The two CRC bytes of a protocol in the order sent (07 R297): CRC_A; CRC_B and the ISO/IEC 15693 CRC; the JIS X 6319-4
CRC. -/
def nfcCrc (proto : Nat) (bytes : List Byte) : List Byte :=
  match proto with
  | 1 => leBytes 2 (bytes.foldl crcByteLow 0x6363)
  | 4 => (leBytes 2 (bytes.foldl crcByteHigh 0)).reverse
  | _ => leBytes 2 (bytes.foldl crcByteLow 0xFFFF ^^^ 0xFFFF)

/-- A frame with its CRC. -/
def withCrc (proto : Nat) (bytes : List Byte) : List Byte := bytes ++ nfcCrc proto bytes

/-- Whether a received frame ends with its CRC. -/
def crcGood (proto : Nat) (bytes : List Byte) : Bool :=
  2 ≤ bytes.length && bytes.drop (bytes.length - 2) == nfcCrc proto (bytes.take (bytes.length - 2))

/-- A frame without its CRC. -/
def stripCrc (bytes : List Byte) : List Byte := bytes.take (bytes.length - 2)

/-- The number of ones of a byte. -/
def onesOf (b : Byte) : Nat := (List.range 8).foldl (fun n i => n + bit01 (b.getLsbD i)) 0

/-- Whether every whole byte has its odd parity bit (07 R297, type A). -/
def parityGood (bytes : List Byte) (lastBits : Nat) (parity : List Bool) : Bool :=
  let whole := if lastBits = 0 then bytes else bytes.take (bytes.length - 1)
  whole.zipIdx.all (fun b => (onesOf b.1 + bit01 (parity.getD b.2 false)) % 2 == 1)

/-! ## Bits of a frame, in the order sent -/

/-- The bits of bytes, least significant first; of the last byte only `lastBits`, if not 0. -/
def frameBits (bytes : List Byte) (lastBits : Nat) : List Bool :=
  let all := bytes.flatMap (fun b => (List.range 8).map b.getLsbD)
  if lastBits = 0 then all else all.take (8 * (bytes.length - 1) + lastBits)

/-- A byte from up to eight bits. -/
def byteOfBits (bits : List Bool) : Byte := BitVec.ofNat 8 (bits.zipIdx.foldl (fun n b => n + bit01 b.1 * 2 ^ b.2) 0)

/-- Bytes from bits, the last one filled up with zeros. -/
def bytesOfBits (bits : List Bool) : List Byte :=
  (List.range ((bits.length + 7) / 8)).map (fun i => byteOfBits ((bits.drop (8 * i)).take 8))

/-! ## Type A frames -/

/-- The exclusive or of bytes: BCC. -/
def bccOf (bytes : List Byte) : Byte := bytes.foldl (· ^^^ ·) 0#8

/-- SEL of a cascade level. -/
def selByte (level : Nat) : Byte := BitVec.ofNat 8 (0x93 + 2 * level)

/-- REQA or WUPA, 7 bits. -/
def reqA (wake : Bool) : List Byte × Nat := ([if wake then 0x52#8 else 0x26#8], 7)

/-- ANTICOLLISION of a level with the bits known: SEL, NVB, and the bits. -/
def anticollA (level : Nat) (bits : List Bool) : List Byte × Nat :=
  ([selByte level, BitVec.ofNat 8 ((2 + bits.length / 8) * 16 + bits.length % 8)] ++ bytesOfBits bits, bits.length % 8)

/-- SELECT of a level with its four bytes. -/
def selectA (level : Nat) (part : List Byte) : List Byte × Nat :=
  (withCrc 1 ([selByte level, 0x70#8] ++ part ++ [bccOf part]), 0)

/-- HLTA. -/
def haltA : List Byte × Nat := (withCrc 1 [0x50#8, 0x00#8], 0)

/-- The four bytes of a cascade level of an identifier: the last level's bytes, or the cascade tag and three bytes. -/
def levelPart (uid : List Byte) (level : Nat) : List Byte :=
  let rest := uid.drop (3 * level)
  if rest.length ≤ 4 then rest else 0x88#8 :: rest.take 3

/-! ## Type B frames -/

/-- REQB or WUPB: AFI, and the slots as a power of two. -/
def reqB (wake : Bool) (afi : Byte) (slots : Nat) : List Byte × Nat :=
  (withCrc 2 [0x05#8, afi, BitVec.ofNat 8 (8 * bit01 wake + Nat.log2 slots)], 0)

/-- The marker of slot `n`, 1 to 15. -/
def slotMarker (n : Nat) : List Byte × Nat := (withCrc 2 [BitVec.ofNat 8 (16 * n + 5)], 0)

/-- HLTB. -/
def haltB (pupi : List Byte) : List Byte × Nat := (withCrc 2 (0x50#8 :: pupi), 0)

/-! ## ISO/IEC 15693 frames -/

/-- The flags of a request: two subcarriers, high rate, and others. -/
def flags15693 (rate other : Nat) : Byte := BitVec.ofNat 8 (rate / 4 % 2 + 2 * (rate % 2) + other)

/-- INVENTORY with an AFI, a mask of `len` bits, and 16 slots or 1. -/
def inventory15693 (rate : Nat) (afi : Option Byte) (sixteen : Bool) (mask : Nat × Nat) : List Byte × Nat :=
  (withCrc 3 ([flags15693 rate (4 + 16 * bit01 afi.isSome + 32 * bit01 (!sixteen)), 0x01#8]
    ++ (match afi with
        | some a => [a]
        | none => [])
    ++ [BitVec.ofNat 8 mask.1] ++ leBytes ((mask.1 + 7) / 8) mask.2), 0)

/-- STAY QUIET, and the addressed SELECT. -/
def quiet15693 (rate : Nat) (uid : List Byte) : List Byte × Nat :=
  (withCrc 3 ([flags15693 rate 32, 0x02#8] ++ uid), 0)
def select15693 (rate : Nat) (uid : List Byte) : List Byte × Nat :=
  (withCrc 3 ([flags15693 rate 32, 0x25#8] ++ uid), 0)

/-! ## JIS X 6319-4 frames -/

/-- Polling: length, command, system code (byte 18 of the descriptor first), request code, time slots less 1. -/
def polling (system : List Byte) (request : Bool) (slots : Nat) : List Byte × Nat :=
  (withCrc 4 ([0x06#8, 0x00#8] ++ system ++ [if request then 0x01#8 else 0x00#8, BitVec.ofNat 8 (slots - 1)]), 0)

/-! ## ISO-DEP frames -/

/-- RATS with FSDI and no CID. -/
def rats (fsdi : Nat) : List Byte × Nat := (withCrc 1 [0xE0#8, BitVec.ofNat 8 (16 * fsdi)], 0)

/-- PPS with PPS1: the tag-to-reader rate in bits 3..2, the reader-to-tag rate in bits 1..0. -/
def pps (rate : Nat) : List Byte × Nat := (withCrc 1 [0xD0#8, 0x11#8, BitVec.ofNat 8 (rate % 16)], 0)

/-- ATTRIB: the PUPI, the rates and FSDI, protocol type 1, no CID. -/
def attrib (pupi : List Byte) (rate fsdi : Nat) : List Byte × Nat :=
  (withCrc 2 (0x1D#8 :: pupi ++ [0x00#8, BitVec.ofNat 8 (rate / 4 % 4 * 64 + rate % 4 * 16 + fsdi), 0x01#8, 0x00#8]), 0)

/-- A block of protocol `proto` with a PCB and its information field. -/
def depBlock (proto pcb : Nat) (info : List Byte) : List Byte × Nat :=
  (withCrc proto (BitVec.ofNat 8 pcb :: info), 0)

/-- The frame sizes of FSCI and FSDI 0 to 8. -/
def frameSize (code : Nat) : Nat := [16, 24, 32, 40, 48, 64, 96, 128, 256].getD code 256

end Sys2Proof.Machine
end

