-- ==== Sys2Proof/Machine/Unmix.lean ====
section
/-!
DEFINITION. Sys2Proof/Machine/Unmix.lean: the arithmetic of the unmixing engine (06 R256 to R260, R270): the source count,
the condition of the coupling vectors, the quality and stability of a stream, the level of a coil, and a member's block of
half-bit estimates. A coil is numbered 8 times its device's position plus its port.
-/
namespace Sys2Proof.Machine

/-- The noise power of an estimate (06 R252), in the square of the unit of estimates, which the spec does not give. -/
def noisePower : Rat := ((Config.estNoise + 1 : Nat) : Rat)

/-- The entries of an estimate, or of a coupling vector, at some coils. -/
def atCoils (coils : List Nat) (row : List (Int × Int)) : List Cx := coils.map (fun c => Cx.ofPair (row.getD c (0, 0)))

/-- The covariance of estimates over `n` coils (06 R256). -/
def covariance (n : Nat) (rows : List (List Cx)) : List (List Cx) :=
  (List.range n).map (fun i => (List.range n).map (fun j =>
    Cx.scale (1 / (rows.length : Nat)) (cxSum (rows.map (fun x => Cx.mul (x.getD i Cx.zero) (x.getD j Cx.zero).conj)))))

/-- The source count k (06 R256): the eigenvalues of the covariance above the noise by more than RANK_DB, in 0.5 dB. -/
def sourceCount (rankDb : Nat) (coils : List Nat) (estimates : List (List (Int × Int))) : Nat :=
  let a := covariance coils.length (estimates.map (atCoils coils))
  positives coils.length (matSub (noisePower * tenTo (50 * rankDb)) a (diagonal (coils.map (fun _ => (1 : Rat)))))

/-- The Gram matrix of vectors. -/
def gram (vs : List (List Cx)) : List (List Cx) := vs.map (fun v => vs.map (cxDot v))

/-- Insert a vector before the first one of smaller norm. -/
def insertByNorm (v : List Cx × List (Int × Int)) (l : List (List Cx × List (Int × Int))) :
    List (List Cx × List (Int × Int)) :=
  match l with
  | [] => [v]
  | u :: t => if cxNorm2 u.1 < cxNorm2 v.1 then v :: u :: t else u :: insertByNorm v t

/-- Coupling vectors in order of decreasing norm over the coils (06 R258). -/
def orderVectors (coils : List Nat) (vs : List (List (Int × Int))) : List (List (Int × Int)) :=
  ((vs.map (fun v => (atCoils coils v, v))).foldl (fun l v => insertByNorm v l) []).map (·.2)

/-- The largest condition the model tells apart, in 1/65,536. -/
def kappaMost : Nat := 2 ^ 32

/-- The condition of vectors (06 R259) in 1/65,536, rounded down: the square root of the ratio of the extreme
eigenvalues of the Gram matrix of the unit vectors, which are those of the Gram matrix against its own diagonal. The
eigenvalues are found to one part in 2^78, and 1/1,024 of a unit is added before the rounding. -/
def kappaOf (vs : List (List Cx)) : Nat :=
  let n := vs.length
  if n ≤ 1 then 65536
  else if vs.any (fun v => cxNorm2 v == 0) then kappaMost
  else
    let g := gram vs
    let d := diagonal (vs.map cxNorm2)
    let most := bisect 80 1 g d 0 (n : Nat)
    let least := bisect 80 n g d 0 (n : Nat)
    if least * (2 ^ 32 : Nat) ≤ most then kappaMost else (ratSqrt (most / least) * 65536 + 1 / 1024).floor.toNat

/-- The unmixing matrix W = (H^H H)^-1 H^H of vectors (06 R257), where it exists: one row a stream. -/
def unmixMatrix (vs : List (List Cx)) : Option (List (List Cx)) :=
  (inverse (gram vs)).map (fun g => g.map (fun row =>
    (List.range ((vs.headD []).length)).map (fun c =>
      cxSum ((row.zip vs).map (fun p => Cx.mul p.1 (p.2.getD c Cx.zero).conj)))))

/-- 1 / (noise variance x [(H^H H)^-1]ii) of stream `i` (06 R259): the inverse of the noise that row i of W passes, as
W W^H = (H^H H)^-1; 0 where W does not exist, and without bound where no noise is left. -/
def separation (sigma2 : Rat) (vs : List (List Cx)) (i : Nat) : Rat :=
  match unmixMatrix vs with
  | none => 0
  | some w =>
    let n := sigma2 * cxNorm2 (w.getD i [])
    if n = 0 then ((10 ^ 40 : Nat) : Rat) else 1 / n

/-- SQ in 0.25 dB steps, rounded down, 0 at or below 0 dB, saturating at 255 (06 R275). -/
def sqCode (v : Rat) : Nat := logFloor 25 255 v

/-- SQ below `min` / 4 dB (06 R260). -/
def sqBelow (v : Rat) (min : Nat) : Bool := v < tenTo (25 * min)

/-- Stability below `min` / 256 (06 R259, R260): the normalised product of the vector at the start and at the end. -/
def unstable (first last : List Cx) (min : Nat) : Bool :=
  let n := cxNorm2 first * cxNorm2 last
  n = 0 || (cxDot first last).norm2 * 65536 < n * ((min * min : Nat) : Rat)

/-- LEVEL of a coil (07 R309): the magnitude of its entry in 0.5 dB below full scale, before the scaling by the noise,
which CHAIN_STATUS.NOISE gives in the same steps; 0xFE saturates. -/
def levelCode (noise : Nat) (h : Cx) : Nat :=
  let v := h.norm2 / noisePower
  if v ≤ 0 then 0xFE
  else if 1 ≤ v then noise - logNear 50 255 v
  else min 0xFE (noise + logNear 50 255 (1 / v))

/-! ## Blocks of a member's estimates (06 R270) -/

/-- The bits of a list of words, each from its most significant bit down, as one number. -/
def wordsNumber (ws : List Word) : Nat := ws.foldl (fun n w => n * 2 ^ 32 + w.toNat) 0

/-- Entry `e` of the 256 in words 2 to 97 of a block. -/
def blockEntry (packed e : Nat) : Nat := packed / 2 ^ (12 * (255 - e)) % 4096

/-- The estimate of coil `c` in symbol `sym` (0 to 15), half `h`, of a block: the mantissas times 2^exponent. -/
def blockEstimate (words : List Word) (packed sym h c : Nat) : Int × Int :=
  let e := blockEntry packed ((sym * 2 + h) * 8 + c)
  let x : Int := (2 ^ bitsOf (words.getD 1 0#32) (4 * c + 3) (4 * c) : Nat)
  (signedBits 6 (e / 64) * x, signedBits 6 (e % 64) * x)

/-- Whether a block's frame is well formed: 98 words, of which word 0 carries type 0xE5, the position, zeros, the block
and the reply. -/
def blockFrame (position block reply : Nat) (words : List Word) : Bool :=
  words.length == 98 && words.getD 0 0#32 == (fieldWord 31 24 0xE5 ||| fieldWord 23 22 position ||| fieldWord 15 8 block
    ||| fieldWord 7 0 reply)

/-- The coils a block counts as used: those whose exponent or some mantissa is not 0 (06 R270). -/
def blockCoils (words : List Word) : List Nat :=
  let packed := wordsNumber (words.drop 2)
  (List.range 8).filter (fun c => bitsOf (words.getD 1 0#32) (4 * c + 3) (4 * c) != 0
    || (List.range 32).any (fun h => blockEntry packed (h * 8 + c) != 0))

end Sys2Proof.Machine
end

