-- ==== Sys2Proof/Machine/NfcOps.lean ====
section
/-!
DEFINITION. Sys2Proof/Machine/NfcOps.lean: contactless jobs (07 R287 to R310): descriptors, the job table, records,
and the ways a job ends.
-/
namespace Sys2Proof.Machine

/-- Replace the contactless unit. -/
def setNfc (n : NfcUnit) (s : State) : State := { s with nfc := n }

/-- Replace the running job. -/
def setRun (r : NfcRun) (s : State) : State := setNfc { s.nfc with run := some r } s

/-- Byte `i` of a descriptor as a number. -/
def descByte (d : List Byte) (i : Nat) : Nat := (d.getD i 0#8).toNat

/-- A little-endian field of `n` bytes at byte `i` of a descriptor (07 R297). -/
def descField (d : List Byte) (i n : Nat) : Nat := leNat ((d.drop i).take n)

/-- Whether all bytes from `i` on, `n` of them, are 0. -/
def descZero (d : List Byte) (i n : Nat) : Bool := ((d.drop i).take n).all (fun b => b == 0#8)

/-- Whether a rate byte is assigned for a protocol (07 R280). -/
def rateOk (proto rate : Nat) : Bool :=
  match proto with
  | 1 => rate < 16
  | 2 => rate < 16
  | 3 => rate < 8
  | 4 => rate == 1 || rate == 2
  | _ => false

/-- Whether an exchange descriptor is outside the ranges of 07 R297 and R301; `room` is how many bytes lie between the
transmit data and the end of bank 0. -/
def exchangeBad (d : List Byte) (room : Nat) : Bool :=
  let proto := descByte d 0
  let layer := descByte d 2
  let flags := descByte d 3
  let lastBits := descByte d 5
  let txLen := descField d 6 2
  let rxMax := descField d 8 2
  let wait := descField d 12 4
  !(1 ≤ proto && proto ≤ 4) || !(layer ≤ 3)
    || (!(layer == 1 || layer == 3) && !(rateOk proto (descByte d 1)))
    || 32 ≤ flags
    || (flags / 4 % 2 == 1 && !(proto == 1 && txLen == 1 && lastBits == 7))
    || 16 ≤ descByte d 4
    || 8 ≤ lastBits || (!(lastBits == 0) && !(proto == 1 && layer == 0))
    || 1024 < txLen || !(1 ≤ rxMax && rxMax ≤ 1024) || !(descZero d 10 2)
    || !(wait == 0 || (1172 ≤ wait && wait ≤ 67108864))
    || (layer == 2 && (proto == 4 || (proto == 1 && !(txLen == 4 || txLen == 7 || txLen == 10))
          || (proto == 2 && !(txLen == 4)) || (proto == 3 && !(txLen == 8))))
    || room < txLen

/-- Entry `i` of an inventory's ashlar sequence (07 R304). -/
def seqEntry (d : List Byte) (i : Nat) : Nat := descByte d (4 + i / 2) / (if i % 2 = 0 then 1 else 16) % 16

/-- Whether an inventory descriptor is outside the ranges of 07 R304. -/
def inventoryBad (s : State) (d : List Byte) : Bool :=
  let proto := descByte d 0
  let flags := descByte d 2
  let nash := descByte d 3
  let slots := descField d 12 2
  let tags := descField d 14 2
  let budget := descField d 16 2
  let sel := descField d 18 2
  !(1 ≤ proto && proto ≤ 4)
    || (if proto ≤ 2 then !(descByte d 1 == 0) else !(rateOk proto (descByte d 1)))
    || 128 ≤ flags
    || (flags / 4 % 2 == 1 && !(proto == 3))
    || (flags / 8 % 2 == 1 && !(proto == 2 || proto == 3))
    || (flags / 16 % 2 == 1 && !(proto == 4))
    || !(1 ≤ nash && nash ≤ 16)
    || (List.range 16).any (fun i => nash ≤ i && !(seqEntry d i == 0))
    || (match proto with
        | 1 => !(slots == 0)
        | 3 => !(slots == 1 || slots == 16)
        | _ => !([1, 2, 4, 8, 16].contains slots))
    || !(1 ≤ tags && tags ≤ 1000) || !(1 ≤ budget && budget ≤ 60000)
    || (proto == 1 && !(sel == 0)) || ((proto == 2 || proto == 3) && 256 ≤ sel)
    || !(descZero d 21 11)
    || (List.range 16).any (fun i => i < nash && !(regBit s (Reg.patAshCtrl + 13 * seqEntry d i) 31))

/-- The refusals of EXCHANGE and INVENTORY that depend on the device alone (07 R295). -/
def nfcStateRefusals (s : State) : List (Bool × Nat) :=
  [(!(domainOn s 3), 0x40), (arrayMode s == 2, 0x41)]

/-- Length of the period of a reply bit in carrier cycles, and whether its coding can be unmixed (06 R251). -/
def replyBit (proto rate : Nat) : Nat × Bool :=
  match proto with
  | 3 => (if rate % 2 = 1 then 512 else 2048, rate / 4 % 2 == 0)
  | 4 => (if rate % 4 = 1 then 64 else 32, true)
  | _ => (128 / 2 ^ (rate / 4 % 4), true)

/-- The RATE byte in force for a job: an inventory at 106 kbit/s and an activation start at 0, a session's own rates serve
LAYER 1 and 3 (06 R269, 07 R297, R301). -/
def jobRate (s : State) (inventory : Bool) (d : List Byte) : Nat :=
  let proto := descByte d 0
  let layer := if inventory then 0 else descByte d 2
  if layer = 1 ∨ layer = 3 then regBits s Reg.proSession 23 22 + 4 * regBits s Reg.proSession 21 20
  else if layer = 2 ∧ proto ≤ 2 then 0
  else descByte d 1

/-- UMX.STATUS.CASC for a job (06 R269): 0 not a head, 1 forwarding, 2 head only by rate or coding, 3 head only by
port clock or CASC_EN. -/
def cascMode (s : State) (proto rate : Nat) : Nat :=
  let (n, unmix) := replyBit proto rate
  let members := regBits s Reg.fldArray 27 26
  let m := regBits s Reg.cscPortCtrl 13 8
  let d := regBits s Reg.cscPortCtrl 3 0
  if arrayMode s ≠ 1 then 0
  else if !unmix || n < 64 then 2
  else if !(regBit s Reg.umxCtrl 30) || 16 * 32 * 27120000 * m < members * (433920000 / n) * 1975 * d then 3
  else 1

/-- The descriptor's protocol. -/
def NfcJob.proto (j : NfcJob) : Nat := descByte j.desc 0

/-- LAYER of an exchange. -/
def NfcJob.layer (j : NfcJob) : Nat := if j.inventory then 0 else descByte j.desc 2

/-- Streams an exchange may deliver (06 R251, R260). -/
def streamLimit (s : State) (j : NfcJob) : Nat :=
  if regBit s Reg.umxCtrl 31 && (replyBit j.proto (jobRate s j.inventory j.desc)).2 then regBits s Reg.umxCtrl 2 0 else 1

/-- The POP register a job delivers to. -/
def NfcJob.pop (j : NfcJob) : Nat := if j.inventory then Reg.invQPop else Reg.proQPop

/-- The run of a job as it starts: its timing set is copied (07 R286), its anticollision and its block exchange stand at
their first step (R301, R305). -/
def startRun (s : State) (j : NfcJob) : NfcRun :=
  { job := j, tset := (List.range 4).map (fun k => getReg s (Reg.proGuardOn + 4 * (j.proto - 1) + k)), framed := false
    sent := ([], 0), frameEnd := s.now, gapFrom := s.now, slot := 0
    anti := { broken := false, idx := 0, pass := 0, passNew := 0, woken := false, step := .request, replied := false, collided := false
              fresh := false, mask := (0, 0), masks := [], found := [], atqa := [] }
    dep := { step := if j.layer = 3 then .deselect else if j.layer = 1 then .info
                     else if j.proto = 3 then .select15693 else .wake
             left := j.tx, data := [], retries := 0, wtxm := 1, chaining := false, ats := [] }
    startNow := s.now, lastClose := s.now, guardDue := false, inFrame := false, records := 0, reserved := 0
    bypassed := false, skipped := 0, tags := [], slots := 0, collided := 0, separated := 0, repeats := 0
    endWith := none, resetField := false }

/-- A record of the PRO or INV queue stands in it; those that had found no space follow (07 R290). -/
def flushLate (s : State) : State :=
  match s.nfc.late with
  | [] => s
  | (pop, words) :: t =>
    if queueFree s pop = 0 then s else s |> setNfc { s.nfc with late := t } |> queuePush pop words

/-- Result records a job reserves (07 R290). -/
def jobSpace (s : State) (j : NfcJob) : Nat :=
  if j.inventory then descField j.desc 14 2 + 1 else streamLimit s j

/-- Deliver a record of the running job, out of its reservation, with the events of 07 R318. -/
def pushRecord (bytes : List Byte) (s : State) : State :=
  match s.nfc.run with
  | none => s
  | some r =>
    let pop := r.job.pop
    let s := s |> (if 0 < r.reserved then queueUnreserve pop 1 else id) |> queuePush pop (packWords bytes)
      |> setRun { r with records := r.records + 1, reserved := r.reserved - 1 }
    if r.job.inventory then mirrorRecord pop (packWords bytes) <|
      (if queueCount s Reg.invQPop = regBits s Reg.invWatermark 11 0 then raiseEvent 0x15 0 s else s)
    else raiseEvent 0x14 0 s

/-- An exchange record (07 R298). -/
def exchangeRecord (r : NfcRun) (status lastBits : Nat) (more : Bool) (collPos quality cycle : Nat)
    (data : List Byte) : List Byte :=
  [0x10#8, BitVec.ofNat 8 status, BitVec.ofNat 8 lastBits, BitVec.ofNat 8 (bit01 r.bypassed + 2 * bit01 more)]
    ++ leBytes 2 data.length ++ leBytes 2 collPos ++ leBytes 4 quality ++ leBytes 4 cycle
    ++ leBytes 2 r.job.ticket ++ leBytes 2 0 ++ data

/-- An identifier record (07 R309): `wide` on a cascade head; SLOT counts response windows from 0. -/
def identRecord (r : NfcRun) (ashlar flags : Nat) (quality cycle : Word) (wide : Bool) (ident info levels : List Byte) :
    List Byte :=
  let pad := fun (n : Nat) (l : List Byte) => (l ++ List.replicate n 0#8).take n
  [0x01#8, BitVec.ofNat 8 r.job.proto, BitVec.ofNat 8 (ashlar + 16 * flags), BitVec.ofNat 8 ident.length]
    ++ leBytes 4 quality.toNat ++ pad 12 ident ++ pad 4 info ++ (levels ++ List.replicate 8 0xFF#8).take 8
    ++ leBytes 4 cycle.toNat ++ leBytes 2 (r.slots - 1) ++ leBytes 2 r.job.ticket
    ++ (if wide then (levels.drop 8 ++ List.replicate 24 0xFF#8).take 24 else [])

/-- An end record (07 R310). -/
def endRecord (r : NfcRun) (code : Nat) : List Byte :=
  [0x0F#8, BitVec.ofNat 8 r.job.proto, BitVec.ofNat 8 code, BitVec.ofNat 8 (capAt 255 r.skipped)]
    ++ leBytes 2 r.tags.length ++ leBytes 2 r.slots ++ leBytes 2 r.collided ++ leBytes 2 r.separated
    ++ leBytes 2 r.job.ticket ++ leBytes 2 (capAt 65535 r.repeats) ++ leBytes 4 (cyclesUs (r.lastClose - r.startNow))

/-- Take the job with command `id` out of the table; JOB_SPACE fires when the free entries rise to the watermark (07
R318, 01 R34). -/
def removeJob (id : Nat) (s : State) : State :=
  let before := nfcFree s
  let s := setNfc { s.nfc with table := s.nfc.table.filter (fun j => j.id != id) } s
  let level := regBits s Reg.invWatermark 20 16
  if before < level ∧ level ≤ nfcFree s then raiseEvent 0x15 8 s else s

/-- Whether a job keeps the field after its end (07 R291). -/
def NfcJob.keeps (j : NfcJob) : Bool :=
  if j.inventory then descByte j.desc 2 / 32 % 2 == 1 else descByte j.desc 3 / 8 % 2 == 1

/-- Add the end-record counts of an inventory to the INV counters (07 R318). -/
def countInventory (r : NfcRun) (s : State) : State :=
  s |> countReg Reg.invJobsDone 1 |> countReg Reg.invTags r.tags.length |> countReg Reg.invSlots r.slots
    |> countReg Reg.invSeparated r.separated |> countReg Reg.invCollided r.collided
    |> countReg Reg.invRepeats (capAt 65535 r.repeats)

/-- The running job ends with an outcome: what it reserved is given back, the field released or kept, the selection
returns to NEXT (05 R207), the Run baseline is learned again (07 R313). -/
def closeRun (outcome : Nat) (s : State) : State :=
  match s.nfc.run with
  | none => s
  | some r =>
    let holds := r.job.keeps && s.fld.jobHold
    s |> queueUnreserve r.job.pop r.reserved |> removeJob r.job.id
      |> (fun t => setNfc { t.nfc with run := none, keep := holds, keepAt := t.now } t)
      |> finishCmd r.job.id outcome
      |> (fun t => setFld { t.fld with jobHold := holds, surveyFull := false, pauses := [], stepDue := none } t)
      |> (fun t => selectAshlar (regBits t Reg.fldPatsel 3 0) 1 t)
      |> setRegBits Reg.umxStatus 31 24 0
      |> cardRelearn
      |> (fun t => { t with frx := { t.frx with windowOpen := false, reply := none } })
      |> gainSteps
      |> fieldUpdate

/-- The running inventory ends with an end code and outcome (07 R310). -/
def endInventory (code outcome : Nat) (s : State) : State :=
  match s.nfc.run with
  | none => s
  | some r => s |> pushRecord (endRecord r code) |> countInventory r |> raiseEvent 0x15 1 |> closeRun outcome

/-- The running job ends early (07 R293, R294): an inventory delivers its end record, an exchange its record, DONE for
a refused field or THERMAL_OFF (R318). -/
def endEarly (e : NfcEnd) (s : State) : State :=
  match s.nfc.run with
  | none => s
  | some r =>
    if r.job.inventory then endInventory e.code e.outcome s
    else s |> pushRecord (exchangeRecord r e.status 0 false 0xFFFF 0 0 [])
           |> closeRun (if e.code = 3 ∨ e.code = 4 then Oc.done else e.outcome)

/-- The running job is to end at the next frame boundary, at once if no frame or window is in progress (03 R657, 07
R294). -/
def endAtBoundary (e : NfcEnd) (s : State) : State :=
  match s.nfc.run with
  | none => s
  | some r => if r.inFrame then setRun { r with endWith := some (r.endWith.getD e) } s else endEarly e s

/-- A record that nothing has reserved: it waits where the queue has no space (07 R290). -/
def pushUnreserved (pop : Nat) (words : List Word) (s : State) : State :=
  if queueFree s pop = 0 || !(s.nfc.late.isEmpty) then setNfc { s.nfc with late := s.nfc.late ++ [(pop, words)] } s
  else queuePush pop words s

/-- A queued job that has not started ends (07 R294): with its record when `deliver` is set. -/
def endQueued (j : NfcJob) (e : NfcEnd) (deliver : Bool) (s : State) : State :=
  let blank := startRun s j
  let s := if deliver then
      (if j.inventory then
        s |> pushUnreserved Reg.invQPop (packWords (endRecord blank e.code)) |> countInventory blank |> raiseEvent 0x15 1
      else s |> pushUnreserved Reg.proQPop (packWords (exchangeRecord blank e.status 0 false 0xFFFF 0 0 []))
             |> raiseEvent 0x14 0)
    else s
  s |> removeJob j.id |> finishCmd j.id e.outcome

/-- Jobs of the table that satisfy `f` end: the running one now, the queued ones with it (07 R294). -/
def endJobs (f : NfcJob → Bool) (e : NfcEnd) (deliver : Bool) (s : State) : State :=
  let running := match s.nfc.run with
    | some r => f r.job
    | none => false
  let runId := match s.nfc.run with
    | some r => r.job.id
    | none => 0
  let queued := s.nfc.table.filter (fun j => f j && j.id != runId)
  let s := if running then endEarly e s else s
  queued.foldl (fun t j => endQueued j e deliver t) s

/-- THERMAL_OFF ends the running job at once (07 R293). -/
def thermalEndsJob (s : State) : State := endEarly { code := 4, status := 0x0B, outcome := Oc.failed } s

/-- A refused field-on ends the job (07 R293). -/
def fieldOnRefusedEndsJob (s : State) : State := endEarly { code := 3, status := 0x0A, outcome := Oc.failed } s

/-- The field follows its request; on a cascade head it waits for the announced cycle. -/
def fieldFollow (s : State) : State :=
  if riseRefused s && s.nfc.run.isSome && arrayMode s ≠ 1 then s |> fieldUpdate |> fieldOnRefusedEndsJob else fieldUpdate s

/-- The field follows its request at the cycle announced (16 R604). -/
def fieldFollowNow (s : State) : State :=
  if riseRefused s && s.nfc.run.isSome then s |> fieldMove |> fieldOnRefusedEndsJob else fieldMove s

/-! ## Frame timing (07 R282 to R286) -/

/-- CYCLES of GUARD_ON and RECOVERY, EARLY and LATE of WIN, and WAIT, of a job's timing set. -/
def NfcRun.guardOn (r : NfcRun) : Nat := bitsOf (r.tset.getD 0 0#32) 31 0
def NfcRun.recovery (r : NfcRun) : Nat := bitsOf (r.tset.getD 1 0#32) 15 0
def NfcRun.early (r : NfcRun) : Nat := bitsOf (r.tset.getD 2 0#32) 31 16
def NfcRun.lateBy (r : NfcRun) : Nat := bitsOf (r.tset.getD 2 0#32) 15 0

/-- "Wait" of 07 R284: WAIT of an exchange descriptor, the frame waiting time of the session (R302), or WAIT[c]. -/
def waitCycles (s : State) (r : NfcRun) : Nat :=
  let w := if r.job.inventory then 0 else descField r.job.desc 12 4
  if r.job.layer = 1 ∨ r.job.layer = 3 then min 67108864 (4096 * 2 ^ regBits s Reg.proSession 15 12 * r.dep.wtxm)
  else if w = 0 then bitsOf (r.tset.getD 3 0#32) 31 0 else w

/-- The last bit of the last reader frame. -/
def NfcRun.lastBit (r : NfcRun) : Bool :=
  ((r.sent.1.getLastD 0#8).getLsbD (if r.sent.2 = 0 then 7 else r.sent.2 - 1))

/-- REQA, WUPA, ANTICOLLISION or SELECT, told by its code. -/
def NfcRun.selects (r : NfcRun) : Bool :=
  (r.sent.2 == 7 && (r.sent.1 == [0x26#8] || r.sent.1 == [0x52#8])) || [0x93#8, 0x95#8, 0x97#8].contains (r.sent.1.headD 0#8)

/-- The earliest and the latest start of a reply, from the end of the reader frame (07 R284). -/
def replyStart (s : State) (r : NfcRun) : Nat × Nat :=
  match r.job.proto with
  | 1 => if r.selects then (let t := if r.lastBit then 1236 else 1172; (t, t)) else (1172, waitCycles s r)
  | 2 => (1024, waitCycles s r)
  | 3 => if !r.job.inventory && 0 < descField r.job.desc 12 4 then (4192, descField r.job.desc 12 4) else (4192, 4384)
  | _ => if r.job.inventory then (let t := 32768 + 16384 * r.slot; (t, t)) else (0, waitCycles s r)

/-- Whether the running job may start a reader frame: the field is ON, its guard time or recovery interval has passed, no
survey is due and the ashlar selected is driven, or bypass forces ashlar 0; on a cascade head the frame has been announced
(07 R283, R291, R292, R305; 16 R604). -/
def frameAllowed (s : State) (r : NfcRun) : Bool :=
  domainOn s 3 && domainOn s 4 && fieldState s == Fs.on && !r.guardDue && !r.inFrame && !(s.fld.surveyFull)
    && (!r.framed || (r.frameEnd ≤ s.now && r.gapFrom + r.recovery ≤ s.now)) && r.endWith.isNone
    && (s.clocks.bypass || !(s.fld.changeDue || s.fld.rewriteDue)) && !(regBit s Reg.fldCascStatus 31)
    && (arrayMode s != 1 || s.cascade.frameTurn)

/-! ## What a response window delivers to the protocol engine -/

/-- A frame delivered (06 R261 to R263): its bytes with the CRC, the bits in the last one, its parity bits, the quality
word, and the level of each coil (07 R309), those of members after this device's. -/
structure RxFrame where
  bytes : List Byte
  lastBits : Nat
  parity : List Bool
  quality : Word
  levels : List Byte
  deriving DecidableEq, Repr

/-- What a window delivers: the frames, the source count, whether a collision was reported, at which bit, with the data up
to it, the cycle of the first half-bit, and whether nothing was detected. -/
structure SlotResult where
  frames : List RxFrame
  k : Nat
  collided : Bool
  collision : Nat
  data : List Byte
  cycle : Word
  empty : Bool
  deriving DecidableEq, Repr

/-- Whether the reply now awaited carries a CRC that the device checks (07 R297, R305). -/
def NfcRun.checksCrc (r : NfcRun) : Bool :=
  if r.job.inventory then
    (match r.job.proto, r.anti.step with
    | 1, .request => false
    | 1, .anticoll _ _ _ => false
    | _, _ => true)
  else match r.job.layer with
  | 0 => descByte r.job.desc 3 / 2 % 2 == 1
  | 2 => !(r.job.proto == 1 && r.dep.step == .wake)
  | _ => true

/-- Whether a frame passes the protocol's own checks (07 R297): parity of type A, and the CRC where one is checked. -/
def NfcRun.passes (r : NfcRun) (f : RxFrame) : Bool :=
  (r.job.proto != 1 || parityGood f.bytes f.lastBits f.parity) && (!r.checksCrc || (f.lastBits == 0 && crcGood r.job.proto f.bytes))

/-- The data of a frame, without the CRC where one is checked. -/
def NfcRun.dataOf (r : NfcRun) (f : RxFrame) : List Byte := if r.checksCrc then stripCrc f.bytes else f.bytes

end Sys2Proof.Machine
end

