-- ==== Sys2Proof/Machine/Anticollision.lean ====
section
/-!
DEFINITION. Sys2Proof/Machine/Anticollision.lean: what an inventory sends and makes of the replies (07 R305 to R309): the
sequence of ashlars, the anticollision of each protocol, and the identifiers it records.
-/
namespace Sys2Proof.Machine

/-- SLOTS of an inventory; 1 for type A, which has none. -/
def NfcJob.slotCount (j : NfcJob) : Nat := if j.proto = 1 then 1 else descField j.desc 12 2

/-- The flags of an inventory (07 R304). -/
def NfcJob.flag (j : NfcJob) (n : Nat) : Bool := (descByte j.desc 2).testBit n

/-- The AFI that an inventory names, if AFI_EN is set. -/
def NfcJob.afi (j : NfcJob) : Option Byte := if j.flag 3 then some (BitVec.ofNat 8 (descByte j.desc 18)) else none

/-- The last ashlar of the last pass; with PASSES 0 no ashlar is last (07 R305). -/
def NfcRun.lastAshlar (r : NfcRun) : Bool :=
  let passes := descByte r.job.desc 20
  passes != 0 && r.anti.pass + 1 == passes && r.anti.idx + 1 == descByte r.job.desc 3

/-- The frame an inventory sends next, and whether a reply is expected (07 R305); `none` where nothing is sent: between
rounds, and for the later time slots of a Polling request, which need no frame (R284). -/
def antiFrame (j : NfcJob) (a : AntiRun) : Option ((List Byte × Nat) × Bool) :=
  let wake := j.flag 1 && !a.woken
  match j.proto, a.step with
  | _, .roundDone => none
  | _, .silence [] => none
  | 1, .request => some (reqA wake, true)
  | 1, .anticoll l _ bits => some (anticollA l bits, true)
  | 1, .select l _ part => some (selectA l part, true)
  | 1, .silence (_ :: _) => some (haltA, false)
  | 2, .request => some (reqB wake (j.afi.getD 0#8) j.slotCount, true)
  | 2, .slot n => some (slotMarker n, true)
  | 2, .silence (t :: _) => some (haltB t, true)
  | 3, .request => some (inventory15693 (descByte j.desc 1) j.afi (j.slotCount == 16) a.mask, true)
  | 3, .slot _ => some (([], 0), true)
  | 3, .silence (t :: _) => some (quiet15693 (descByte j.desc 1) t, false)
  | 4, .request => some (polling ((j.desc.drop 18).take 2) (j.flag 4) j.slotCount, true)
  | _, _ => none

/-- A job's step to ashlar `n` (07 R305): a selection at the next tap-0 edge, or on a cascade head a scheduled switch with
the lead of CASC_LEAD, after one that is pending (05 R239). -/
def jobStep (n : Nat) (s : State) : State :=
  if arrayMode s = 1 then
    (if regBit s Reg.fldCascStatus 31 then setFld { s.fld with stepDue := some n } s else scheduleSwitch n none s)
  else selectAshlar n 2 s

/-- A new round begins on the ashlar in hand (07 R305). -/
def AntiRun.restart (a : AntiRun) : AntiRun :=
  { a with step := .request, replied := false, collided := false, fresh := false, mask := (0, 0), masks := [], found := [] }

/-- The round on an ashlar is over: the next ashlar of the sequence is selected, the next pass begins, or the job is
complete (07 R304, R305, R308). -/
def nextRound (s : State) : State :=
  match s.nfc.run with
  | none => s
  | some r =>
    let passes := descByte r.job.desc 20
    let go := fun (a : AntiRun) (t : State) => jobStep (seqEntry r.job.desc a.idx) (setRun { r with anti := a.restart } t)
    if r.anti.idx + 1 < descByte r.job.desc 3 then go { r.anti with idx := r.anti.idx + 1 } s
    else if (if passes = 0 then r.anti.passNew = 0 else r.anti.pass + 1 = passes) then endInventory 0 Oc.done s
    else go { r.anti with idx := 0, pass := r.anti.pass + 1, passNew := 0 } s

/-- One identified tag (07 R306 to R309): recorded once, repeats counted. -/
def identify (res : SlotResult) (f : RxFrame) (ident info : List Byte) (s : State) : State :=
  match s.nfc.run with
  | none => s
  | some r =>
    if r.tags.contains ident then setRun { r with repeats := r.repeats + 1 } s
    else if descField r.job.desc 14 2 ≤ r.tags.length then s
    else
      let flags := bit01 (2 ≤ res.k) + 2 * bit01 res.collided + 4 * bit01 (bitAt f.quality 10)
      let record := identRecord r (activeAshlar s) flags f.quality res.cycle (arrayMode s == 1) ident info f.levels
      let s := pushRecord record s
      match s.nfc.run with
      | none => s
      | some r =>
        setRun { r with tags := r.tags ++ [ident]
                        anti := { r.anti with passNew := r.anti.passNew + 1, fresh := true } } s

/-- The identifier and INFO that a good frame's data carry (07 R306, R309): ATQB, an ISO/IEC 15693 answer, or a Polling
answer. -/
def frameIdent (j : NfcJob) (data : List Byte) : Option (List Byte × List Byte) :=
  match j.proto with
  | 2 => if data.headD 0#8 = 0x50#8 ∧ 12 ≤ data.length then some ((data.drop 1).take 4, (data.drop 9).take 3) else none
  | 3 => if data.length = 10 then some (data.drop 2, (data.drop 1).take 1) else none
  | 4 => if data.getD 1 0#8 = 0x01#8 ∧ 18 ≤ data.length then
      some ((data.drop 2).take 8, if j.flag 4 then (data.drop 18).take 2 else []) else none
  | _ => none

/-- Change the anticollision of the running job. -/
def setAnti (f : AntiRun → AntiRun) (s : State) : State :=
  match s.nfc.run with
  | none => s
  | some r => setRun { r with anti := f r.anti } s

/-- The masks that a collided slot is repeated with (07 R305): 4 bits longer with 16 slots, 1 bit with 1 slot; none beyond
the 64 bits of an identifier. -/
def subMasks (slots n : Nat) (mask : Nat × Nat) : List (Nat × Nat) :=
  if slots = 16 then (if mask.1 + 4 ≤ 64 then [(mask.1 + 4, mask.2 + n * 2 ^ mask.1)] else [])
  else if mask.1 + 1 ≤ 64 then [(mask.1 + 1, mask.2), (mask.1 + 1, mask.2 + 2 ^ mask.1)] else []

/-- The tags to silence after a round: those found, where the protocol halts them or QUIET_FOUND is set (07 R305). -/
def roundOver (r : NfcRun) (a : AntiRun) : AntiStep :=
  if r.job.proto = 3 ∧ !(a.found.isEmpty) ∧ r.job.flag 2 ∧ !r.lastAshlar then .silence a.found else .roundDone

/-- The request and its slots are over (07 R305): what the anticollision does next. -/
def afterSlots (r : NfcRun) (a : AntiRun) : AntiRun :=
  match r.job.proto with
  | 2 =>
    if !(a.found.isEmpty) then { a with step := .silence a.found }
    else if a.replied || a.collided then { a with step := .request, replied := false, collided := false }
    else { a with step := .roundDone }
  | 3 =>
    match a.masks with
    | m :: t => { a with step := .request, mask := m, masks := t }
    | [] => { a with step := roundOver r a }
  | _ =>
    if a.fresh || a.collided then { a with step := .request, fresh := false, collided := false }
    else { a with step := .roundDone }

/-- The window of slot `n` of a request is over, for the protocols with slots: its frames identify tags, and the next slot
follows (07 R305, R306). -/
def slotDone (n : Nat) (res : SlotResult) (s : State) : State :=
  match s.nfc.run with
  | none => s
  | some r =>
    let good := res.frames.filter r.passes
    let found := good.filterMap (fun f => (frameIdent r.job (r.dataOf f)).map (fun x => (f, x)))
    let s := found.foldl (fun t x => identify res x.1 x.2.1 x.2.2 t) s
    setAnti (fun a =>
      let a := { a with
        replied := a.replied || !(res.frames.isEmpty), collided := a.collided || res.collided
        found := a.found ++ (if r.job.proto = 4 then [] else found.map (fun x => x.2.1))
        masks := a.masks ++ (if r.job.proto = 3 ∧ res.collided then subMasks r.job.slotCount n a.mask else []) }
      if n + 1 < r.job.slotCount then { a with step := .slot (n + 1) } else afterSlots r a) s

/-- The whole four bytes of a cascade level that a frame completes, where its BCC is right (07 R306). -/
def levelDone (bits : List Bool) (f : RxFrame) : Option (List Byte) :=
  let all := bits ++ frameBits f.bytes f.lastBits
  let bytes := bytesOfBits all
  if all.length = 40 ∧ bccOf bytes = 0#8 then some (bytes.take 4) else none

/-- A type A window is over (07 R305, R306). A tag whose four bytes are known is selected; others found beside it are
selected after later requests; of a collision the branch with a 1 is followed. -/
def typeAResult (res : SlotResult) (s : State) : State :=
  match s.nfc.run with
  | none => s
  | some r =>
    let good := res.frames.filter r.passes
    match r.anti.step with
    | .request =>
      if res.empty then setAnti (fun a => { a with step := .roundDone }) s
      else setAnti (fun a =>
        let a := { a with atqa := ((good.head?.map RxFrame.bytes).getD res.data).take 2 }
        match a.found with
        | [] => { a with step := .anticoll 0 [] [] }
        | x :: t =>
          { a with step := .select ((x.length - 4) / 3) (x.take (x.length - 4)) (x.drop (x.length - 4)), found := t }) s
    | .anticoll l done bits =>
      let parts := good.filterMap (levelDone bits)
      match parts with
      | p :: t => setAnti (fun a => { a with step := .select l done p, found := a.found ++ t.map (done ++ ·) }) s
      | [] =>
        let known := bits ++ (frameBits res.data 0).take res.collision ++ [true]
        if res.collided ∧ known.length < 40 then setAnti (fun a => { a with step := .anticoll l done known }) s
        else setAnti (fun a => { a with step := .request }) s
    | .select l done part =>
      (match good with
      | [f] =>
        let sak := (r.dataOf f).headD 0#8
        if sak.getLsbD 2 && l < 2 then setAnti (fun a => { a with step := .anticoll (l + 1) (done ++ part.drop 1) [] }) s
        else s |> identify res f (done ++ part) (sak :: r.anti.atqa) |> setAnti (fun a => { a with step := .silence [done ++ part] })
      | _ => setAnti (fun a => { a with step := .request }) s)
    | _ => s

/-- One tag has been sent what silences it (07 R305). -/
def silenced (s : State) : State :=
  match s.nfc.run with
  | none => s
  | some r => setAnti (fun a =>
      match a.step with
      | .silence (_ :: t :: u) => { a with step := .silence (t :: u) }
      | .silence _ => if r.job.proto = 3 then { a with step := .roundDone }
          else { a with step := .request, replied := false, collided := false, found := if r.job.proto = 1 then a.found else [] }
      | _ => a) s

/-- A round that is done gives way to the next one. -/
def roundCheck (s : State) : State :=
  match s.nfc.run with
  | none => s
  | some r => if r.job.inventory && r.anti.step == .roundDone then nextRound s else s

/-- What an inventory makes of a finished window (07 R305 to R308). -/
def inventoryResult (res : SlotResult) (s : State) : State :=
  match s.nfc.run with
  | none => s
  | some r =>
    let s := match r.anti.step with
      | .silence _ => silenced s
      | .slot n => slotDone n res s
      | _ => if r.job.proto = 1 then typeAResult res s else slotDone 0 res s
    match s.nfc.run with
    | none => s
    | some r => if descField r.job.desc 14 2 ≤ r.tags.length then endInventory 1 Oc.done s else s

end Sys2Proof.Machine
end

