-- ==== Sys2Proof/Machine/Field.lean ====
section
/-!
DEFINITION. Sys2Proof/Machine/Field.lean: the commands of field synthesis (05): selection, ramps, faults, the limiter,
the survey, SOLVE, and cascade-wide switches. A register write they involve is judged in Machine/Access.lean.
-/
namespace Sys2Proof.Machine

/-- A step of the running job that R211 refuses (07 R293): an inventory skips it, an exchange ends. -/
def stepRefused (s : State) : State :=
  match s.nfc.run with
  | none => s
  | some r =>
    if r.job.inventory then nextRound (setRun { r with skipped := r.skipped + 1 } s)
    else endEarly { code := 3, status := 0x0A, outcome := Oc.done } s

/-- The trims that the drivers of ports `ps` use (05 R195, R196): never changed during a reader frame or an open response
window; one beyond 64 codes stops its port. -/
def trimDrivers (ps : List Nat) (trims : List Int) (s : State) : State :=
  if readerFrameOn s || s.frx.windowOpen then s
  else ps.foldl (fun t p =>
    let v := trims.getD p 0
    if v < -64 ∨ 64 < v then faultPort p 3 t else setRegBits (Reg.fldPortStatus + p) 9 0 (intField 10 v) t) s

/-- The trims of the ports driven now. -/
def trimPorts (trims : List Int) (s : State) : State := trimDrivers (drivenPorts s (activeAshlar s) s.fld.driven) trims s

/-- ASHLAR_CHANGE (05 R205 to R211): at a tap-0 edge the engine takes the selection that is due, with the phase trims
it then uses (R196); a job's refused step is skipped by an inventory and ends an exchange (07 R293). -/
def ashlarChange (trims : List Int) (s : State) : State :=
  if !(domainOn s 3) || !(s.fld.changeDue || s.fld.rewriteDue) || s.clocks.bypass then s
  else
    let jobStep := s.fld.changeDue && s.fld.selSource == 2
    let refused := s.fld.changeDue && changeRefused s
    let s := s |> tapEdge |> trimPorts trims
    if refused && jobStep then stepRefused s else s

/-- ASHLAR_CHANGE. -/
def execAshlarChange (trims : List Int) (s : State) : Out := .next (ashlarChange trims s)

/-- Whether port `p` is being driven: by the field, or by a survey (05 R195). -/
def portInUse (s : State) (p : Nat) : Bool :=
  let st := fieldState s
  ((st == Fs.rampUp || st == Fs.on || st == Fs.rampDown) && (drivenPorts s (activeAshlar s) s.fld.driven).contains p)
    || (surveyMayRun s && nextSurveyPort s == some p)

/-- PORT_FAULT (05 R195): a port being driven is stopped and marked; kinds 1 open, 2 current limit, 3 trim out of range. -/
def execPortFault (port : Fin 8) (kind : Fin 4) (s : State) : Out :=
  .next (if domainOn s 3 && 0 < kind.val && portInUse s port.val then s |> faultPort port.val kind.val |> updateClips else s)

/-- A job takes or releases the field (05 R212). -/
def jobHoldsField (holds : Bool) (s : State) : State :=
  if domainOn s 3 then s |> setFld { s.fld with jobHold := holds } |> fieldFollow else s

/-- RAMP_UP_END (05 R213, R214): after UP cycles the state becomes ON. -/
def rampUpEnd (s : State) : State :=
  if fieldState s = Fs.rampUp ∧ domainOn s 3 ∧ s.fld.since + regBits s Reg.fldRamp 5 0 + 1 ≤ s.now then s |> setFieldState Fs.on |> updateClips else s

/-- RAMP_UP_END. -/
def execRampUpEnd (s : State) : Out := .next (rampUpEnd s)

/-- RAMP_DOWN_END (05 R213, R214): after DOWN cycles the state becomes OFF, OFF_MIN starts, and the ISO-DEP session is lost
(07 R303). -/
def rampDownEnd (s : State) : State :=
  if fieldState s = Fs.rampDown ∧ domainOn s 3 ∧ s.fld.since + regBits s Reg.fldRamp 13 8 + 1 ≤ s.now then
    let s := s |> setFieldState Fs.off |> setFld { s.fld with offMinDone := false } |> updateClips |> loseSession
    match s.nfc.run with
    | none => s
    | some r => setRun { r with resetField := false, guardDue := true } s
  else s

/-- RAMP_DOWN_END. -/
def execRampDownEnd (s : State) : Out := .next (rampDownEnd s)

/-- OFF_MIN_EXPIRY (05 R213): OFF_MIN after the fall a pending request may raise the field. -/
def execOffMinExpiry (s : State) : Out :=
  .next (if domainOn s 3 && fieldState s == Fs.off && passedUs s s.fld.since (100 * regBits s Reg.fldRamp 23 16) then s |> setFld { s.fld with offMinDone := true } |> fieldFollow else s)

/-- The limiter's new attenuation, or none for THERMAL_OFF (05 R217, R218). -/
def limiterNext (s : State) (average : Nat) (hottest : Int) : Option Nat :=
  let limit := regBits s Reg.fldLimit 27 16
  let temp : Int := (regBits s Reg.fldLimit 7 0 : Nat)
  if limit < average ∨ temp ≤ hottest then (if atten s < 500 then some (atten s + 1) else none)
  else if average * 100 ≤ limit * 95 ∧ hottest ≤ temp - 5 then some (atten s - 1)
  else some (atten s)

/-- A step of the limiter (05 R217, R218): beyond 500 steps the field goes THERMAL_OFF. -/
def limiterTake (average : Nat) (hottest : Int) (s : State) : State :=
  if fieldState s == Fs.thermalOff then s
  else match limiterNext s average hottest with
  | none => s |> thermalOff hottest |> thermalEndsJob |> updateClips
  | some a =>
    let was := atten s
    let s := setRegBits Reg.fldLimitStatus 20 12 a s |> updateClips
    if was = 0 ∧ 0 < a then raiseEvent 0x10 2 s else s

/-- LIMITER_STEP (05 R217, R218): every 256 carrier cycles the measured outputs and their average are shown and the
attenuation takes one step, held over to the end of a reader-to-tag frame. -/
def limiterStep (outMw : List Nat) (average : Nat) (hottest : Int) (s : State) : State :=
  if !(domainOn s 3) || s.now < s.fld.limitAt + 256 then s
  else
    let s := (List.range 8).foldl (fun t p => setRegBits (Reg.fldPortStatus + p) 24 16 (capAt 511 (outMw.getD p 0)) t) s
    let s := s |> setRegBits Reg.fldLimitStatus 11 0 (capAt 4095 average) |> setFld { s.fld with limitAt := s.now }
    if readerFrameOn s then setFld { s.fld with limitDue := some (average, hottest) } s
    else limiterTake average hottest (setFld { s.fld with limitDue := none } s)

/-- LIMITER_STEP. -/
def execLimiterStep (outMw : List Nat) (average : Nat) (hottest : Int) (s : State) : Out :=
  .next (limiterStep outMw average hottest s)

/-- The limiter's step that was held over is taken once the reader frame has ended (05 R217). -/
def limiterTick (s : State) : State :=
  match s.fld.limitDue with
  | none => s
  | some (a, h) => if readerFrameOn s then s else limiterTake a h (setFld { s.fld with limitDue := none } s)

/-- THERMAL_RECOVERY (05 R218): 15 °C below TEMP_C the state becomes OFF with ATTEN at 250. -/
def execThermalRecovery (hottest : Int) (s : State) : Out :=
  .next (if domainOn s 3 && fieldState s == Fs.thermalOff && hottest ≤ (regBits s Reg.fldLimit 7 0 : Nat) - 15 then
    s |> setFieldState Fs.off |> setRegBits Reg.fldLimitStatus 20 12 250 |> fieldFollow else s)

/-- A survey drive that a field limit refuses (05 R219, R211): a first field-on is refused with it, which ends the job
that asked for it (07 R293). -/
def surveyRefused (p : Nat) (s : State) : State :=
  let s := refuseAshlar (selection s).1 (setFld { s.fld with survey := s.fld.survey ++ [(p, [])] } s)
  if fieldState s = Fs.survey then
    s |> setFld { s.fld with survey := [] } |> setFieldState Fs.off |> (if s.nfc.run.isSome then fieldOnRefusedEndsJob else id)
  else setFld { s.fld with survey := [], surveyFull := false } s

/-- A survey that is complete; a first field-on that R211 then refuses ends the job that asked for it. -/
def surveyDone (hottest : Int) (s : State) : State :=
  let first := fieldState s == Fs.survey
  let s := surveyComplete hottest s
  if first && fieldState s == Fs.off && s.nfc.run.isSome then fieldOnRefusedEndsJob s else s

/-- SURVEY_STEP (05 R219 to R225, R231): one port's responses join the survey; a port 20 dB short is faulted as open
and left out; the last port completes it. -/
def surveyStep (r : SurveyReport) (s : State) : State :=
  if !(domainOn s 3) || !(domainOn s 4) || !(surveyMayRun s) || nextSurveyPort s != some r.port.val then s
  else
    let s := { s with cascade := { s.cascade with surveyTurn := false } }
    if !(surveyAllowed s r.port.val) then surveyRefused r.port.val s
    else
      let self := r.responses.getD r.port.val (0, 0)
      let row := (List.range 8).map (fun j => couplingWord (freeWordOf s) self (r.responses.getD j (0, 0)))
      let s := useFree s
      let s := if r.selfOk then setFld { s.fld with survey := s.fld.survey ++ [(r.port.val, row)] } s
        else faultPort r.port.val 1 s
      match nextSurveyPort s with
      | some _ => s
      | none => surveyDone r.hottest s

/-- SURVEY_STEP. -/
def execSurveyStep (report : SurveyReport) (s : State) : Out := .next (surveyStep report s)

/-- FLD door command SOLVE (05 R227, R228, R230): SOLVE_IN is read as it stands; the survey becomes the reference
(R223). -/
def doorSolve (req : Requester) (word : Word) (s : State) : State :=
  doorWrite req 0x10 word
    (firstRefusal [(!(s.fld.surveyValid), 0x40), (bitsOf word 15 0 != 0, Oc.badArg),
      (resultFull s 0x10 [0x10], Oc.resultFull)])
    (some 0x10)
    (fun id ticket t =>
      let inputs := (List.range 13).map (fun k => getReg t (Reg.fldSolveIn0 + k))
      let used := (List.range 8).filter (fun p => bitAt (inputs.getD (p + 1) 0#32) 31 && portPresent t p
        && !(portFaulted t p))
      let job : SolveJob := { id := id, ticket := ticket, inputs := inputs, used := used, survey := t.fld.last }
      setFld { t.fld with solves := t.fld.solves ++ [job], reference := t.fld.last } t) s

/-- SOLVE. -/
def execSolve (req : Requester) (tag : Byte) (arg : BitVec 16) (s : State) : Out :=
  .next (doorIssue 0x10 doorSolve req (doorWord tag 0x10 arg) s)

/-- The output word of port `p`: unused ports and a singular solution have EN 0; MOD is copied (05 R227, R228). A code that
the spec does not state is free. -/
def solveWord (j : SolveJob) (sol : Solution) (free : Nat → Word) (p : Nat) : Word :=
  let w := j.inputs.getD (p + 1) 0#32
  if sol.singular || !(j.used.contains p) then withBits w 31 31 0
  else
    let codes := (sol.words.getD (j.used.idxOf p) none).getD (free p)
    (w &&& maskOf 30 26) ||| oneBit 31 ||| (codes &&& (maskOf 25 16 ||| maskOf 9 0))

/-- The quality word (05 R228); a depth or SCALE that the spec does not state is free. -/
def solveQuality (j : SolveJob) (sol : Solution) (free : Word) : Word :=
  let depth := fun (k msb lsb : Nat) => match sol.depths[k]? with
    | none => 0
    | some d => d.getD (bitsOf free msb lsb)
  let nulls := bitsOf (j.inputs.getD 0 0#32) 29 28
  fieldWord 31 24 (if nulls = 0 then 255 else depth 0 31 24)
    ||| fieldWord 23 16 (if nulls < 2 then 0 else depth 1 23 16)
    ||| fieldWord 15 14 (bit01 sol.singular)
    ||| fieldWord 9 0 (match sol.scale with
      | some n => intField 10 n
      | none => bitsOf free 9 0)

/-- The words of a SOLVE result: the 13 words of an ashlar and the quality word (05 R227 to R229). -/
def solveWords (j : SolveJob) (s : State) : List Word :=
  let sol := solvePattern j.survey j.used j.inputs
  [j.inputs.getD 0 0#32] ++ (List.range 8).map (solveWord j sol (fun p => Config.freeWord (s.freeIndex + p)))
    ++ ((j.inputs.drop 9).take 4 ++ [solveQuality j sol (Config.freeWord (s.freeIndex + 8))])

/-- SOLVE_RESULT (05 R227 to R229): mason 1's computation over what the door read. -/
def solveResult (s : State) : State :=
  match s.fld.solves with
  | [] => s
  | j :: t =>
    let words := solveWords j s
    s |> useFreeN 9 |> setFld { s.fld with solves := t }
      |> deliverResult { page := 0x10, ticket := j.ticket, poison := false, words := words }
      |> finishCmd j.id Oc.done

/-- SOLVE_RESULT. -/
def execSolveResult (s : State) : Out := .next (solveResult s)

/-- Members present, 1 to 3, from CSC.STATUS (16 R601). -/
def membersPresent (s : State) : List Nat := [1, 2, 3].filter (fun m => regBit s Reg.cscStatus (23 + m))

/-- FLD door command CASC_LOAD (05 R235). -/
def doorCascLoad (req : Requester) (word : Word) (s : State) : State :=
  let mask := BitVec.ofNat 16 (bitsOf word 15 0)
  doorWrite req 0x10 word
    (firstRefusal [(arrayMode s != 1, 0x41), (mask.getLsbD (activeAshlar s), 0x44), (s.fld.load.isSome, Oc.queueFull)])
    none
    (fun id _ t =>
      let left := (List.range 16).flatMap (fun n =>
        if mask.getLsbD n then (membersPresent t).map (fun m => (n, m)) else [])
      if left.isEmpty then finishCmd id Oc.done t
      else setFld { t.fld with load := some { id := id, left := left } } t) s

/-- CASC_LOAD. -/
def execCascLoad (req : Requester) (tag : Byte) (arg : BitVec 16) (s : State) : Out :=
  .next (doorIssue 0x10 doorCascLoad req (doorWord tag 0x20 arg) s)

/-- FLD door command CASC_SWITCH (05 R236). -/
def doorCascSwitch (req : Requester) (word : Word) (s : State) : State :=
  doorWrite req 0x10 word
    (firstRefusal [(arrayMode s != 1, 0x41), (s.clocks.bypass, 0x43), (bitsOf word 15 4 != 0, Oc.badArg),
      (regBit s Reg.fldCascStatus 31, Oc.queueFull)])
    none (fun id _ t => scheduleSwitch (bitsOf word 3 0) (some id) t) s

/-- CASC_SWITCH. -/
def execCascSwitch (req : Requester) (tag : Byte) (arg : BitVec 16) (s : State) : Out :=
  .next (doorIssue 0x10 doorCascSwitch req (doorWord tag 0x21 arg) s)

/-- Whether FLD.CYCLE has reached cycle `n` (05 R236). -/
def cycleReached (s : State) (n : Word) : Bool := (fldCycle s + 2 ^ 32 - n.toNat) % 2 ^ 32 < 2 ^ 31

/-- A member makes a switch (05 R209, R236): it is the selection; a member in QUIET leaves it, as a field-on where its
field is requested. -/
def memberSwitch (n : Nat) (s : State) : State :=
  let s := setFld { s.fld with switched := n } s
  let s := { s with cascade := { s.cascade with late := false } }
  if s.clocks.bypass then s
  else if fieldState s = Fs.quiet then s |> setFieldState Fs.off |> (if fieldRequested s then rampField else id)
  else takeSelection s

/-- A head makes a switch (05 R236, R239); one that was a job's step, when it is refused, is skipped or ends the exchange
(07 R293); the next step of a job follows. -/
def headSwitch (n : Nat) (s : State) : State :=
  let job := s.fld.switchId.isNone && s.nfc.run.isSome
  let s := selectAshlar n 4 s
  let refused := changeRefused s
  let s := takeSelection s
  let s := if refused && job then stepRefused s else s
  match s.fld.stepDue with
  | none => fieldUpdate s
  | some m => s |> setFld { s.fld with stepDue := none } |> scheduleSwitch m none

/-- SWITCH_CYCLE_REACHED (05 R236): at cycle N every device switches under R208 and R211; late members are marked. -/
def switchCycleReached (lateMembers : BitVec 3) (s : State) : State :=
  if !(domainOn s 3) || !(regBit s Reg.fldCascStatus 31) || !(cycleReached s (getReg s Reg.fldCascAt)) then s
  else
    let n := regBits s Reg.fldCascStatus 27 24
    let id := s.fld.switchId
    let s := setRegBits Reg.fldCascStatus 31 31 0 s
    if arrayMode s ≠ 1 then memberSwitch n s
    else
      let s := setRegBits Reg.fldCascStatus 10 8 lateMembers.toNat s
      let s := if lateMembers = 0#3 then s else raiseEvent 0x10 9 s
      let s := headSwitch n s
      match id with
      | none => s
      | some id => s |> setFld { s.fld with switchId := none } |> finishCmd id (if lateMembers = 0#3 then Oc.done else 0x42)

/-- SWITCH_CYCLE_REACHED. -/
def execSwitchCycleReached (lateMembers : BitVec 3) (s : State) : Out := .next (switchCycleReached lateMembers s)

end Sys2Proof.Machine
end

