-- ==== Sys2Proof/Machine/IsoDep.lean ====
section
/-!
DEFINITION. Sys2Proof/Machine/IsoDep.lean: what an exchange of LAYER 1 to 3 sends and makes of the replies (07 R301 to
R303): activation, the block exchange with its retries, and the end of a session.
-/
namespace Sys2Proof.Machine

/-- Change the block exchange of the running job. -/
def setDep (f : DepRun → DepRun) (s : State) : State :=
  match s.nfc.run with
  | none => s
  | some r => setRun { r with dep := f r.dep } s

/-- FSDI and RETRY of PRO.CTRL. -/
def fsdi (s : State) : Nat := regBits s Reg.proCtrl 11 8
def retryLimit (s : State) : Nat := regBits s Reg.proCtrl 1 0

/-- The information bytes of a block that the tag's frame size takes (07 R302): less the PCB and the CRC. -/
def blockRoom (s : State) : Nat := frameSize (regBits s Reg.proSession 19 16) - 3

/-- The rates to be used (07 R301): each of those asked for that the tag allows; both the same where it asks for that.
`ask` is as RATE, `caps` as TA(1) and the first byte of the protocol info. -/
def ratesUsed (ask caps : Nat) : Nat :=
  let out := ask % 4
  let back := ask / 4 % 4
  let out := if out = 0 ∨ caps.testBit (out - 1) then out else 0
  let back := if back = 0 ∨ caps.testBit (back + 3) then back else 0
  if caps.testBit 7 ∧ out ≠ back then 0 else out + 4 * back

/-- TA(1), TB(1) and FSCI of an ATS (07 R301), with the values that hold where a byte is absent. -/
def atsCaps (ats : List Byte) : Nat :=
  if 2 ≤ ats.length && (ats.getD 1 0#8).getLsbD 4 then (ats.getD 2 0#8).toNat else 0
def atsFwi (ats : List Byte) : Nat :=
  let t0 := ats.getD 1 0#8
  if 2 ≤ ats.length && t0.getLsbD 5 then (ats.getD (2 + bit01 (t0.getLsbD 4)) 0#8).toNat / 16 else 4
def atsFsci (ats : List Byte) : Nat := if 2 ≤ ats.length then (ats.getD 1 0#8).toNat % 16 else 2

/-- The information field of the next information block, and whether the block chains. -/
def infoPart (s : State) (d : DepRun) : List Byte × Bool := (d.left.take (blockRoom s), blockRoom s < d.left.length)

/-- The frame an ISO-DEP exchange sends next (07 R301, R302). -/
def depFrame (s : State) (j : NfcJob) (d : DepRun) : List Byte × Nat :=
  let bn := bit01 s.nfc.block
  match d.step with
  | .wake => if j.proto = 2 then reqB true 0#8 1 else reqA true
  | .select l => selectA l (levelPart j.tx l)
  | .rats => rats (fsdi s)
  | .pps rate => pps rate
  | .attrib atqb => attrib j.tx (ratesUsed (descByte j.desc 1) (atqb.getD 9 0#8).toNat) (fsdi s)
  | .select15693 => select15693 (descByte j.desc 1) j.tx
  | .info => depBlock j.proto (0x02 + bn + 16 * bit01 (infoPart s d).2) (infoPart s d).1
  | .ack => depBlock j.proto (0xA2 + bn) []
  | .nak => depBlock j.proto (0xB2 + bn) []
  | .wtx m => depBlock j.proto 0xF2 [m]
  | .deselect => depBlock j.proto 0xC2 []

/-- The exchange ends with one record (07 R298, R299). -/
def depEnd (status quality : Nat) (cycle : Word) (data : List Byte) (s : State) : State :=
  match s.nfc.run with
  | none => s
  | some r =>
    let max := descField r.job.desc 8 2
    let status := if max < data.length then 5 else status
    s |> pushRecord (exchangeRecord r status 0 false 0xFFFF quality cycle.toNat (data.take max)) |> closeRun Oc.done

/-- A session is opened (07 R301): protocol, rates, FSCI, FWI; the first block has number 0. -/
def openSession (proto rate fsci fwi : Nat) (s : State) : State :=
  s |> setNfc { s.nfc with block := false }
    |> setReg Reg.proSession (fieldWord 31 31 1 ||| fieldWord 25 24 proto ||| fieldWord 23 22 (rate % 4)
        ||| fieldWord 21 20 (rate / 4) ||| fieldWord 19 16 (min fsci 8) ||| fieldWord 15 12 fwi)

/-- The status of an activation frame that brought no single good reply (07 R299). -/
def badStatus (r : NfcRun) (res : SlotResult) : Nat :=
  if res.empty then 1 else if res.collided then 4
  else match res.frames with
  | [f] => if r.job.proto = 1 ∧ !(parityGood f.bytes f.lastBits f.parity) then 3 else 2
  | _ => 4

/-- The activation of a type A tag goes on with SELECT at level `l` answered by a SAK (07 R301). -/
def afterSak (j : NfcJob) (l : Nat) (sak : Byte) (quality : Nat) (cycle : Word) (s : State) : State :=
  if 3 * (l + 1) + 1 < j.tx.length then setDep (fun d => { d with step := .select (l + 1) }) s
  else if sak.getLsbD 5 then setDep (fun d => { d with step := .rats }) s
  else depEnd 9 quality cycle [sak] s

/-- ACTIVATE makes of a good reply (07 R301). -/
def activated (r : NfcRun) (data : List Byte) (quality : Nat) (cycle : Word) (s : State) : State :=
  match r.dep.step with
  | .select l => afterSak r.job l (data.headD 0#8) quality cycle s
  | .rats =>
    let rate := ratesUsed (descByte r.job.desc 1) (atsCaps data)
    if rate = 0 then s |> openSession 1 0 (atsFsci data) (atsFwi data) |> depEnd 0 quality cycle data
    else setDep (fun d => { d with step := .pps rate, ats := data }) s
  | .pps rate =>
    s |> openSession 1 rate (atsFsci r.dep.ats) (atsFwi r.dep.ats) |> depEnd 0 quality cycle r.dep.ats
  | .attrib atqb =>
    s |> openSession 2 (ratesUsed (descByte r.job.desc 1) (atqb.getD 9 0#8).toNat) ((atqb.getD 10 0#8).toNat / 16)
          ((atqb.getD 11 0#8).toNat / 16)
      |> depEnd 0 quality cycle data
  | _ => depEnd 0 quality cycle data s

/-- A window of ACTIVATE is over (07 R301): WUPA needs any answer, WUPB the ATQB of the PUPI. -/
def activateResult (res : SlotResult) (s : State) : State :=
  match s.nfc.run with
  | none => s
  | some r =>
    let good := res.frames.filter r.passes
    let fail := depEnd (badStatus r res) 0 res.cycle [] s
    match r.dep.step with
    | .wake =>
      if r.job.proto = 1 then
        (if res.empty then fail else setDep (fun d => { d with step := .select 0 }) s)
      else match good.find? (fun f => (r.dataOf f).headD 0#8 == 0x50#8 && ((r.dataOf f).drop 1).take 4 == r.job.tx) with
        | some f => setDep (fun d => { d with step := .attrib (r.dataOf f) }) s
        | none => if !good.isEmpty && !res.collided then depEnd 1 0 res.cycle [] s else fail
    | _ =>
      match good with
      | [f] => if res.collided then fail else activated r (r.dataOf f) f.quality.toNat res.cycle s
      | _ => fail

/-- A block that could not be used (07 R302, R303): R(NAK), or R(ACK) while the tag chains, up to RETRY times; then the
exchange ends and the session is lost. S(DESELECT) is sent again. -/
def depRetry (r : NfcRun) (res : SlotResult) (s : State) : State :=
  if r.dep.retries < retryLimit s then
    setDep (fun d => { d with retries := d.retries + 1, wtxm := 1
                              step := if d.step == .deselect then .deselect else if d.chaining then .ack else .nak }) s
  else s |> loseSession |> depEnd (if res.empty then 1 else 7) 0 res.cycle []

/-- A block of the tag (07 R302): `pcb` and its information field. -/
def depBlockReceived (r : NfcRun) (pcb : Nat) (info : List Byte) (quality : Nat) (res : SlotResult) (s : State) : State :=
  let bn := bit01 s.nfc.block
  let toggle := fun (t : State) => setNfc { t.nfc with block := !t.nfc.block } t
  if r.dep.step == .deselect then
    (if pcb = 0xC2 then s |> setReg Reg.proSession 0#32 |> depEnd 0 quality res.cycle [] else depRetry r res s)
  else if pcb / 32 = 0 ∧ pcb / 2 % 2 = 1 then
    -- an information block
    (if pcb % 2 ≠ bn then depRetry r res s
     else if pcb.testBit 4 then
      s |> toggle |> setDep (fun d => { d with data := d.data ++ info, left := [], chaining := true, step := .ack
                                               retries := 0, wtxm := 1 })
     else s |> toggle |> depEnd 0 quality res.cycle (r.dep.data ++ info))
  else if pcb / 2 = 0x51 then
    -- R(ACK)
    (if pcb % 2 = bn ∧ (infoPart s r.dep).2 then
      s |> toggle |> setDep (fun d => { d with left := d.left.drop (blockRoom s), step := .info, retries := 0, wtxm := 1 })
     else if pcb % 2 ≠ bn ∧ !r.dep.chaining ∧ r.dep.retries < retryLimit s then
      setDep (fun d => { d with step := .info, retries := d.retries + 1, wtxm := 1 }) s
     else depRetry r res s)
  else if pcb = 0xF2 then
    -- S(WTX)
    (let m := (info.headD 0#8).toNat % 64
     if 1 ≤ m ∧ m ≤ 59 then setDep (fun d => { d with step := .wtx (BitVec.ofNat 8 m), wtxm := m }) s
     else depRetry r res s)
  else depRetry r res s

/-- A window of an exchange of LAYER 1 to 3 is over (07 R301 to R303). -/
def depResult (res : SlotResult) (s : State) : State :=
  match s.nfc.run with
  | none => s
  | some r =>
    if r.job.layer = 2 then activateResult res s
    else match res.frames.filter r.passes with
    | [f] =>
      if res.collided then depRetry r res s
      else match r.dataOf f with
      | [] => depRetry r res s
      | pcb :: info => depBlockReceived r pcb.toNat info f.quality.toNat res s
    | _ => depRetry r res s

end Sys2Proof.Machine
end

