-- ==== Sys2Proof/Machine/Receive.lean ====
section
/-!
DEFINITION. Sys2Proof/Machine/Receive.lean: the receive chains and the unmixing engine (06), and what the end of a
reply or of an empty window delivers to the job (07 R298 to R310).
-/
namespace Sys2Proof.Machine

/-! ## The chains -/

/-- The overload of chain `p` in a reply (06 R249, R264): it raises its event, and the first one of the chain in the reply
is counted. -/
def clipInReply (p : Nat) (s : State) : State :=
  match s.frx.reply with
  | none => s
  | some r =>
    if r.clippedAny.contains p then raiseEvent 0x12 0 s
    else s |> setFrx { s.frx with reply := some { r with
                clippedAny := p :: r.clippedAny, clipped := if r.window.isSome || r.formed then r.clipped else p :: r.clipped } }
           |> countReg (Reg.frxClipCnt + p) 1 |> raiseEvent 0x12 0

/-- REPLY_DETECTED (06 R253, R266 step 1, R267): inside an open window the reply begins, with the UMX values now in force;
an overload that lasts from before falls into it. A self-test of UMX that is running does not keep a reply back
(notes/assumptions/56.md). -/
def replyDetected (s : State) : State :=
  if !(domainOn s 4) || !(s.frx.windowOpen) || s.frx.reply.isSome then s
  else
    let r : ReplyRun :=
      { ctrl := getReg s Reg.umxCtrl, limits := getReg s Reg.umxLimits, est := getReg s Reg.umxEst
        wait := getReg s Reg.umxCascWait, cycle := BitVec.ofNat 32 (fldCycle s), number := s.frx.replies % 256
        used := usedChains s, clipped := [], clippedAny := [], broken := false, window := none, formed := false
        vectors := [], coils := [], k := 0, kappa := 0, chains := 0, fails := [], members := 0#3 }
    let s := setFrx { s.frx with reply := some r, replies := s.frx.replies + 1 } s
    (r.used.filter (fun p => regBit s (Reg.frxChainStatus + p) 30)).foldl (fun t p => clipInReply p t) s

/-- REPLY_DETECTED. -/
def execReplyDetected (s : State) : Out := .next (replyDetected s)

/-- CHAIN_CLIP (06 R249, R264): the overload is shown while it lasts. -/
def chainClip (p : Nat) (overloaded : Bool) (s : State) : State :=
  if !(domainOn s 4) then s
  else
    let s := setRegBits (Reg.frxChainStatus + p) 30 30 (bit01 overloaded) s
    if overloaded then clipInReply p s else s

/-- CHAIN_CLIP. -/
def execChainClip (chain : Fin 8) (overloaded : Bool) (s : State) : Out := .next (chainClip chain.val overloaded s)

/-- Mark chain `p` faulted (06 R254). -/
def faultChain (p : Nat) (s : State) : State :=
  s |> setRegBits (Reg.frxChainStatus + p) 29 29 1 |> raiseFault 0x12 0 p

/-- A full trim of chain `p` restarts its TRIM_AGE (06 R249, R250). -/
def trimmed (p : Nat) (s : State) : State := setFrx { s.frx with trimAt := s.frx.trimAt.set p (some s.now) } s

/-- CHAIN_TRIM_STEP (06 R245, R250, R254): only outside response windows, on a used chain with trims enabled, and not while
PD3 is off; a full trim restarts TRIM_AGE; a trim out of range marks the chain faulted. -/
def chainTrimStep (p : Nat) (full inRange : Bool) (s : State) : State :=
  if !(domainOn s 3) || !(domainOn s 4) || s.frx.windowOpen || !(chainUsed s p) || !(regBit s Reg.frxCtrl 31) then s
  else if !inRange then faultChain p s
  else if full then trimmed p s else s

/-- CHAIN_STATUS.TRIM_AGE of chain `p`, in 10 ms (06 R249). -/
def trimAge (s : State) (p : Nat) : Nat :=
  match s.frx.trimAt.getD p none with
  | none => 255
  | some at_ => capAt 255 ((s.now - at_) / 135600)

/-- FLD.SURVEY_STATUS.AGE in 100 ms (05 R223). -/
def surveyAge (s : State) : Nat := if s.fld.surveyValid then capAt 255 ((s.now - s.fld.surveyAt) / 1356000) else 255

/-- CHAIN_TRIM_STEP. -/
def execChainTrimStep (chain : Fin 8) (full : Bool) (inRange : Bool) (s : State) : Out :=
  .next (chainTrimStep chain.val full inRange s)

/-! ## The estimation window (06 R255 to R260, R269 to R271) -/

/-- LEN symbols of a reply's estimation window. -/
def ReplyRun.len (r : ReplyRun) : Nat := bitsOf r.est 5 0

/-- Members 1 to 3 that a mask names. -/
def membersOf (m : BitVec 3) : List Nat := [1, 2, 3].filter (fun k => m.getLsbD (k - 1))

/-- The members that forward for the job in hand (06 R269). -/
def forwarding (s : State) : BitVec 3 :=
  if regBits s Reg.umxStatus 31 30 = 1 then BitVec.ofNat 3 (regBits s Reg.umxStatus 26 24) else 0#3

/-- The words of block `b` of member `m` in a reply, if the head holds it. -/
def heldBlock (s : State) (reply m b : Nat) : Option (List Word) :=
  (s.cascade.blocks.find? (fun x => x.1 == m && x.2.1 == reply && x.2.2.1 == b)).map (·.2.2.2)

/-- The blocks of member `m` that are missing of the first `symbols` symbols of a reply: one block holds 16 (06 R270). -/
def missingBlocks (s : State) (reply symbols m : Nat) : Nat :=
  ((List.range ((symbols + 15) / 16)).filter (fun b => (heldBlock s reply m (b % 256)).isNone)).length

/-- The members of a mask with a block missing. -/
def lateMembers (s : State) (reply symbols : Nat) (m : BitVec 3) : List Nat :=
  (membersOf m).filter (fun k => 0 < missingBlocks s reply symbols k)

/-- The coils of member `m` that take part in a reply: those its blocks count as used. -/
def memberCoils (s : State) (reply m : Nat) : List Nat :=
  match heldBlock s reply m 0 with
  | none => []
  | some ws => (blockCoils ws).map (8 * m + ·)

/-- The estimates of member `m` in half-bit `t` of a reply. -/
def memberEstimate (s : State) (reply m t : Nat) : List (Int × Int) :=
  match heldBlock s reply m (t / 32 % 256) with
  | none => List.replicate 8 (0, 0)
  | some ws => (List.range 8).map (blockEstimate ws (wordsNumber (ws.drop 2)) (t / 2 % 16) (t % 2))

/-- The estimates of the window over all coils: this device's own, and those of the members that contribute. -/
def windowRows (s : State) (r : ReplyRun) (own : List (List (Int × Int))) (members : BitVec 3) : List (List (Int × Int)) :=
  (own.take (2 * r.len)).zipIdx.map (fun x =>
    (List.range 8).map (fun c => x.1.getD c (0, 0)) ++ [1, 2, 3].flatMap (fun m =>
      if members.getLsbD (m - 1) then memberEstimate s r.number m x.2 else List.replicate 8 (0, 0)))

/-- The slot checks that fail once k, kappa and the chains are known (06 R260): RANK 1, KAPPA 2, CHAINS 7, DISABLED 8.
`kappa` is in 1/65,536, `all` the chains before exclusion, `left` those after it. -/
def slotFails (r : ReplyRun) (k kappa all left : Nat) : List Nat :=
  (if bitsOf r.ctrl 2 0 < k ∨ all < k then [1] else [])
    ++ (if bitsOf r.limits 7 0 * 4096 < kappa then [2] else [])
    ++ (if left < k then [7] else [])
    ++ (if !(bitAt r.ctrl 31) ∧ 2 ≤ k then [8] else [])

/-- Whether the coding of the job in hand can be unmixed (06 R251). -/
def unmixable (s : State) : Bool :=
  match s.nfc.run with
  | none => true
  | some r => (replyBit r.job.proto (jobRate s r.job.inventory r.job.desc)).2

/-- Step 3 of 06 R266: with k = 0 the detection is withdrawn; else the vectors are ordered and the slot checks made. `out`
names the members left out, whose chains count as excluded (R271); chains that clipped in the window are left out (R264).
A reply whose coding cannot be unmixed has one combined stream (R251). For more than four sources no vectors are found,
and kappa is free. -/
def formReply (r : ReplyRun) (own vectors : List (List (Int × Int))) (out : List Nat) (s : State) : State :=
  let fwd := membersOf (forwarding s)
  let members := BitVec.ofNat 3 ((fwd.filter (fun m => !(out.contains m))).foldl (fun n m => n + 2 ^ (m - 1)) 0)
  let outChains := (out.map (fun m => (onesOf (BitVec.ofNat 8 (regBits s (Reg.cscMemberInfo + (m - 1)) 7 0))))).sum
  let all := r.used ++ (membersOf members).flatMap (memberCoils s r.number)
  let k := sourceCount (bitsOf r.est 15 8) all (windowRows s r own members)
  let k := if unmixable s then k else min k 1
  if k = 0 then setFrx { s.frx with reply := none } s
  else
    let left := all.filter (fun c => !(r.clipped.contains c))
    let vs := orderVectors left ((vectors ++ List.replicate k []).take (if k ≤ 4 then k else 0))
    let kappa := if k ≤ 4 then kappaOf (vs.map (atCoils left)) else Config.freeNat s.freeIndex
    useFree (setFrx { s.frx with reply := some { r with
      window := none, formed := true, vectors := vs, coils := left, k := k, kappa := kappa, chains := left.length
      fails := slotFails r k kappa (all.length + outChains) left.length, members := members } } s)

/-- ESTIMATION_WINDOW_END (06 R255 to R257, R260, R264, R271): the half-bit estimates of this device and the coupling vectors
that the engine has identified, over the 32 coils of an array, whose way of identification the spec does not give. Step 3
follows at once, or when the blocks of every forwarding member are there. -/
def estimationWindowEnd (estimates vectors : List (List (Int × Int))) (s : State) : State :=
  match s.frx.reply with
  | none => s
  | some r =>
    if r.formed || r.window.isSome then s
    else if (lateMembers s r.number r.len (forwarding s)).isEmpty then formReply r estimates vectors [] s
    else setFrx { s.frx with reply := some { r with window := some (estimates, vectors, s.now) } } s

/-- ESTIMATION_WINDOW_END. -/
def execEstimationWindowEnd (estimates vectors : List (List (Int × Int))) (s : State) : Out :=
  .next (estimationWindowEnd estimates vectors s)

/-- A block has arrived: the head goes on with step 3 when it holds all it waits for (06 R271). -/
def blockArrived (s : State) : State :=
  match s.frx.reply with
  | none => s
  | some r =>
    match r.window with
    | none => s
    | some (own, vectors, _) =>
      if (lateMembers s r.number r.len (forwarding s)).isEmpty then formReply r own vectors [] s else s

/-- Members whose blocks are missing are counted, and no longer arrive in time (06 R271). -/
def countLate (r : ReplyRun) (symbols : Nat) (late : List Nat) (s : State) : State :=
  if late.isEmpty then s
  else
    let n := (late.map (missingBlocks s r.number symbols)).sum
    let s := late.foldl (fun t m => clearRegBit Reg.umxStatus (23 + m) t) s
    s |> countReg Reg.umxCascLate n |> raiseEvent 0x13 2

/-- CASC_WAIT_EXPIRY (06 R271): CASC_WAIT after the window's end, step 3 starts without the members whose blocks are
missing; each missing block is counted. -/
def cascWaitExpiry (s : State) : State :=
  match s.frx.reply with
  | none => s
  | some r =>
    match r.window with
    | none => s
    | some (own, vectors, since) =>
      if !(domainOn s 4) || !(passedUs s since (bitsOf r.wait 8 0)) then s
      else
        let late := lateMembers s r.number r.len (forwarding s)
        s |> countLate r r.len late |> formReply r own vectors late

/-- CASC_WAIT_EXPIRY. -/
def execCascWaitExpiry (s : State) : Out := .next (cascWaitExpiry s)

/-! ## The end of a reply (06 R258 to R266) -/

/-- The vectors of a reply over the coils in use. -/
def ReplyRun.rows (r : ReplyRun) : List (List Cx) := r.vectors.map (atCoils r.coils)

/-- The separation of stream `i`, given the noise variance of the residual in 1/65,536 of the square of the unit of
estimates (06 R259). -/
def ReplyRun.sq (r : ReplyRun) (residual i : Nat) : Rat := separation ((residual : Rat) / 65536) r.rows i

/-- A stream of which nothing was demodulated. -/
def StreamReport.blank : StreamReport := { codingOk := false, last := [], bytes := [], lastBits := 0, parity := [] }

/-- The k streams of a reply (06 R258). -/
def ReplyRun.streams (r : ReplyRun) (l : List StreamReport) : List StreamReport :=
  (l ++ List.replicate r.k StreamReport.blank).take r.k

/-- What fails in stream `i` of a reply of `symbols` symbols (06 R260): 3 SQ, 4 CODING, 5 STABILITY, which needs twice
EST.LEN symbols; 0 nothing. -/
def streamFail (r : ReplyRun) (symbols residual i : Nat) (x : StreamReport) : Nat :=
  if sqBelow (r.sq residual i) (bitsOf r.limits 23 16) then 3
  else if !x.codingOk then 4
  else if 2 * r.len ≤ symbols ∧ unstable (r.rows.getD i []) (atCoils r.coils x.last) (bitsOf r.limits 15 8) then 5
  else 0

/-- What fails in each stream. -/
def streamFails (r : ReplyRun) (symbols residual : Nat) (streams : List StreamReport) : List Nat :=
  streams.zipIdx.map (fun x => streamFail r symbols residual x.2 x.1)

/-- The first failing check of a reply, in the order of the table of 06 R260; 0 if none. -/
def firstFail (r : ReplyRun) (fails : List Nat) : Nat :=
  let all := r.fails ++ fails.filter (· != 0) ++ (if r.broken then [6] else [])
  ([1, 2, 3, 4, 5, 6, 7, 8].find? (fun n => all.contains n)).getD 0

/-- Whether a slot check fails: RANK, KAPPA, BREAK, CHAINS or DISABLED (06 R262). -/
def slotFailed (r : ReplyRun) : Bool := r.broken || !r.fails.isEmpty

/-- The quality word of stream `i` (06 R275). -/
def qualityWord (r : ReplyRun) (symbols residual i : Nat) (fallback : Bool) : Word :=
  fieldWord 31 24 (sqCode (r.sq residual i)) ||| fieldWord 23 16 (capAt 255 (r.kappa / 4096)) ||| fieldWord 15 13 r.k
    ||| fieldWord 12 11 i ||| fieldWord 10 10 (bit01 (r.members != 0#3)) ||| fieldWord 9 9 (bit01 (symbols < 2 * r.len))
    ||| fieldWord 8 8 (bit01 fallback) ||| fieldWord 7 0 r.chains

/-- The level of each of the 32 coils in stream `i` (07 R309): 0xFF for a coil not used; the noise of a member's chain is
not told to the head, so its level is free. -/
def coilLevels (s : State) (r : ReplyRun) (i : Nat) : List Byte :=
  (List.range 32).map (fun c =>
    if !(r.coils.contains c) then 0xFF#8
    else if 8 ≤ c then Config.freeByte (s.freeIndex + c)
    else BitVec.ofNat 8 (levelCode (regBits s (Reg.frxChainStatus + c) 15 8)
      (Cx.ofPair ((r.vectors.getD i []).getD c (0, 0)))))

/-- The streams delivered as frames, with their quality words (06 R261 to R263). -/
def deliveredFrames (s : State) (r : ReplyRun) (symbols residual : Nat) (streams : List StreamReport) : List RxFrame :=
  if slotFailed r then []
  else
    let fails := streamFails r symbols residual streams
    let fallback := !(fails.all (· == 0))
    (streams.zipIdx.filter (fun p => fails.getD p.2 0 == 0)).map (fun p =>
      { bytes := p.1.bytes, lastBits := p.1.lastBits, parity := p.1.parity
        quality := qualityWord r symbols residual p.2 fallback, levels := coilLevels s r p.2 })

/-- The figures of the last reply and the UMX counters (06 R266 step 5, R276). A reply that fails a slot check delivers no
stream, and LAST_Q reads 0 (notes/assumptions/56.md). -/
def recordReply (r : ReplyRun) (symbols residual : Nat) (fails : List Nat) (frames : Nat) (s : State) : State :=
  let fail := firstFail r fails
  let fallback := !(fails.all (· == 0))
  let s := setReg Reg.umxLastSlot (fieldWord 31 28 (capAt 15 r.k) ||| fieldWord 27 24 fail
    ||| fieldWord 23 16 (capAt 255 (r.kappa / 4096)) ||| fieldWord 15 8 r.chains) s
  let s := (List.range 4).foldl (fun t i =>
    setReg (Reg.umxLastQ + i)
      (if i < r.k ∧ !(slotFailed r) then qualityWord r symbols residual i fallback else 0#32) t) s
  let s := countReg Reg.umxSlots 1 s
  let s := if frames = 0 then s
    else if r.k = 1 then countReg Reg.umxSingle 1 s
    else s |> countReg Reg.umxSeparated 1 |> raiseEvent 0x13 0
  let s := countReg Reg.umxStreams frames s
  if fail = 0 then s else s |> countReg (Reg.umxFallback + fail - 1) 1 |> raiseEvent 0x13 1

/-- The status of a raw exchange frame (07 R285, R297, R299): longer than RX_MAX; parts of bytes, or too short, where a CRC
is checked; parity; CRC. -/
def frameStatus (r : NfcRun) (x : RxFrame) : Nat :=
  if descField r.job.desc 8 2 < (r.dataOf x).length then 5
  else if r.checksCrc ∧ (x.lastBits ≠ 0 ∨ x.bytes.length < 2) then 6
  else if r.job.proto = 1 ∧ !(parityGood x.bytes x.lastBits x.parity) then 3
  else if !(r.passes x) then 2 else 0

/-- The data of a raw exchange's record (07 R297, R299): without the CRC if it was checked, as received if it failed. -/
def rawData (r : NfcRun) (x : RxFrame) : List Byte :=
  (if frameStatus r x = 2 ∨ frameStatus r x = 3 then x.bytes else r.dataOf x).take (descField r.job.desc 8 2)

/-- Deliver the frames of a raw exchange (07 R298, R300): one record a frame, the collision record last, with the data up
to COLL_POS (R299) and quality word `q`. -/
def deliverRaw (r : NfcRun) (res : SlotResult) (q : Word) (frames : List RxFrame) (s : State) : State :=
  match frames with
  | [] =>
    if res.collided then
      pushRecord (exchangeRecord r 4 (res.collision % 8) false res.collision q.toNat res.cycle.toNat
        (res.data.take ((res.collision + 7) / 8))) s
    else s
  | x :: t =>
    let more := !t.isEmpty || res.collided
    deliverRaw r res q t
      (pushRecord (exchangeRecord r (frameStatus r x) x.lastBits more 0xFFFF x.quality.toNat res.cycle.toNat
        (rawData r x)) s)

/-- The frame boundary of a job: an end that waits for it happens now (07 R294, R308). -/
def jobBoundary (s : State) : State :=
  match s.nfc.run with
  | none => s
  | some r =>
    match r.endWith with
    | none => s
    | some e => if e.code = 2 then endInventory 2 Oc.done s else endEarly e s

/-- The window of the running job is over: RECOVERY counts from here, and a Polling request goes on to its next time slot
without a frame (07 R283, R284). -/
def windowOver (s : State) : State :=
  match s.nfc.run with
  | none => s
  | some r =>
    match r.job.proto, r.anti.step with
    | 4, .slot n => if r.job.inventory then setRun { r with inFrame := true, slot := n } s else s
    | _, _ => s

/-- What the running job makes of a finished window (07 R298 to R310); `q` is the quality word of the combined stream. -/
def jobWindowDone (res : SlotResult) (q : Word) (s : State) : State :=
  match s.nfc.run with
  | none => s
  | some r =>
    let s := setRun { r with inFrame := false, slot := 0, lastClose := s.now, gapFrom := s.now } s
    if r.job.inventory then
      let s := match s.nfc.run with
        | none => s
        | some r => setRun { r with collided := r.collided + bit01 res.collided
                                    separated := r.separated + bit01 (2 ≤ res.k && !res.frames.isEmpty) } s
      if r.anti.broken then s |> setAnti (fun a => { a with broken := false }) |> jobBoundary
      else s |> inventoryResult res |> jobBoundary |> roundCheck |> windowOver
    else match r.endWith with
    | some e => endEarly e s
    | none =>
      if r.job.layer ≠ 0 then depResult res s
      else if res.empty then s |> pushRecord (exchangeRecord r 1 0 false 0xFFFF 0 0 []) |> closeRun Oc.done
      else s |> deliverRaw r res q res.frames |> closeRun Oc.done

/-- REPLY_END (06 R261 to R266 step 5; 07 R298 to R310): the streams as demodulated, the reply's length in symbols, the
residual noise, and the place of a collision with the combined stream up to it. A member whose later blocks are missing is
left out with its chains (06 R271). -/
def replyEnd (reports : List StreamReport) (symbols residual collision : Nat) (data : List Byte) (s : State) : State :=
  match s.frx.reply with
  | none => s
  | some r =>
    if !r.formed || !(domainOn s 4) then s
    else
      let late := lateMembers s r.number symbols r.members
      let s := countLate r symbols late s
      let coils := r.coils.filter (fun c => !(late.contains (c / 8)))
      let members := BitVec.ofNat 3 (((membersOf r.members).filter (fun m => !(late.contains m))).foldl (fun n m => n + 2 ^ (m - 1)) 0)
      let r := { r with coils := coils, chains := coils.length, members := members,
                        fails := r.fails ++ (if coils.length < r.k then [7] else []) }
      let streams := r.streams reports
      let fails := streamFails r symbols residual streams
      let frames := deliveredFrames s r symbols residual streams
      let bad := match s.nfc.run with
        | none => 0
        | some run => (frames.filter (fun f => !(run.passes f))).length
      let s := s |> useFreeN 32 |> recordReply r symbols residual fails frames.length
        |> (fun t => setFrx { t.frx with reply := none, windowOpen := false } t) |> gainSteps
        |> countReg Reg.proFramesRx frames.length |> countReg Reg.proCrcErrors bad
      jobWindowDone { frames := frames, k := r.k, collided := firstFail r fails != 0, collision := collision, data := data
                      cycle := r.cycle, empty := false } (qualityWord r symbols residual 0 true) s

/-- REPLY_END. -/
def execReplyEnd (streams : List StreamReport) (symbols residual collision : Nat) (data : List Byte) (s : State) : Out :=
  .next (replyEnd streams symbols residual collision data s)

/-! ## Response windows (07 R284, R285) -/

/-- WINDOW_OPEN (07 R284, 06 R247, R252): EARLY cycles before the earliest reply start the window opens for a frame that
expects a reply; the carrier and noise of each used chain were measured in the 32 cycles before; a capture that waits for a
window starts (06 R273). -/
def windowOpened (carriers noises : List Nat) (s : State) : State :=
  match s.nfc.run with
  | none => s
  | some r =>
    if !(domainOn s 4) || !r.inFrame || s.frx.windowOpen || s.now + r.early < r.frameEnd + (replyStart s r).1 then s
    else
      let s := s |> setRun { r with slots := r.slots + 1 }
        |> (fun t => setFrx { t.frx with
              windowOpen := true
              capture := t.frx.capture.map (fun c => if c.waiting then { c with waiting := false, since := t.now } else c) } t)
      (usedChains s).foldl (fun t p => t |> setRegBits (Reg.frxChainStatus + p) 23 16 (carriers.getD p 0xFF)
        |> setRegBits (Reg.frxChainStatus + p) 15 8 (noises.getD p 0xFF)) s

/-- WINDOW_OPEN. -/
def execWindowOpen (carriers noises : List Nat) (s : State) : Out := .next (windowOpened carriers noises s)

/-- WINDOW_CLOSE (07 R284, R285): LATE cycles after the latest reply start a window in which nothing was detected closes. -/
def windowClosed (s : State) : State :=
  match s.nfc.run with
  | none => s
  | some r =>
    if !(domainOn s 4) || !(s.frx.windowOpen) || s.frx.reply.isSome || s.now < r.frameEnd + (replyStart s r).2 + r.lateBy then s
    else
      s |> setFrx { s.frx with windowOpen := false } |> gainSteps |> countReg Reg.proTimeouts 1
        |> jobWindowDone { frames := [], k := 0, collided := false, collision := 0xFFFF, data := [], cycle := 0#32
                           empty := true } 0#32

/-- WINDOW_CLOSE. -/
def execWindowClose (s : State) : Out := .next (windowClosed s)

/-! ## Captures (06 R273) -/

/-- FRX door command CAPTURE (06 R273, R274). -/
def doorCapture (req : Requester) (word : Word) (s : State) : State :=
  let mask := BitVec.ofNat 16 (bitsOf word 15 0)
  let chains := (List.range 8).filter (fun p => mask.getLsbD p && regBit s (Reg.frxChainCfg + p) 31)
  let named := (List.range 8).filter (fun p => mask.getLsbD p)
  let pairs := regBits s Reg.frxCapCtrl 12 0
  let base := regBits s Reg.frxCapBase 20 0
  doorWrite req 0x12 word
    (firstRefusal [(bitsOf word 15 8 != 0, Oc.badArg), (0xFE000 < base + 8 * named.length * pairs, Oc.badArg),
      (chains.isEmpty, 0x40), (s.frx.capture.isSome, Oc.queueFull)])
    none
    (fun id _ t =>
      let job : CaptureJob :=
        { id := id, chains := named, base := base, pairs := pairs, cycles := 2 ^ regBits t Reg.frxCapCtrl 30 28
          waiting := regBit t Reg.frxCapCtrl 31, since := t.now }
      setFrx { t.frx with capture := some job } t) s

/-- CAPTURE. -/
def execCapture (req : Requester) (tag : Byte) (arg : BitVec 16) (s : State) : Out :=
  .next (doorIssue 0x12 doorCapture req (doorWord tag 0x10 arg) s)

/-- The mean of integers, rounded to nearest. -/
def meanOf (l : List Int) : Int := let n : Int := (l.length : Nat); (2 * l.foldl (· + ·) 0 + n) / (2 * n)

/-- The word of a stored pair (06 R273): chain rank `c` of `n`, pair `i`, even or odd samples, from raw samples that come
cycle by cycle, in each cycle chain by chain, of each chain the even one first. -/
def captureWord (job : CaptureJob) (samples : List (Int × Int)) (i c odd : Nat) : Word :=
  let n := job.chains.length
  let xs := (List.range job.cycles).map (fun t => samples.getD (((i * job.cycles + t) * n + c) * 2 + odd) (0, 0))
  fieldWord 31 16 (intField 16 (meanOf (xs.map (·.1)))) ||| fieldWord 15 0 (intField 16 (meanOf (xs.map (·.2))))

/-- The words of `pairs` pairs of a capture, in the order of Mortar (06 R273). -/
def captureWords (job : CaptureJob) (pairs : Nat) (samples : List (Int × Int)) : List Word :=
  (List.range pairs).flatMap (fun i => (List.range job.chains.length).flatMap (fun c =>
    [captureWord job samples i c 0, captureWord job samples i c 1]))

/-- CAPTURE_DONE (06 R273): the samples stand in Mortar from BASE, and CAPTURE ends DONE. -/
def captureDone (samples : List (Int × Int)) (s : State) : State :=
  match s.frx.capture with
  | none => s
  | some c =>
    if c.waiting || s.now < c.since + c.pairs * c.cycles then s
    else s |> engineWrite c.base (wordsBytes (captureWords c c.pairs samples)) |> setFrx { s.frx with capture := none }
           |> finishCmd c.id Oc.done

/-- CAPTURE_DONE. -/
def execCaptureDone (samples : List (Int × Int)) (s : State) : Out := .next (captureDone samples s)

/-- A capture that is cut off by the switch-off of PD4 leaves the words stored so far in place (06 R273): the samples, which
no command brings, are free. -/
def captureCut (s : State) : State :=
  match s.frx.capture with
  | none => s
  | some c =>
    let n := 8 * c.chains.length * (if c.waiting then 0 else min c.pairs ((s.now - c.since) / c.cycles))
    s |> engineWrite c.base (freeBytesOf s n) |> useFreeN n |> (fun t => setFrx { t.frx with capture := none } t)

/-- NO_WINDOW (06 R273): a capture that waits sees no window within 1 s. -/
def noWindow (s : State) : State :=
  match s.frx.capture with
  | none => s
  | some c =>
    if c.waiting && passedMs s c.since 1000 then s |> setFrx { s.frx with capture := none } |> finishCmd c.id 0x41 else s

/-- NO_WINDOW. -/
def execNoWindow (s : State) : Out := .next (noWindow s)

end Sys2Proof.Machine
end

