-- ==== Sys2Proof/Machine/Cascade.lean ====
section
/-!
DEFINITION. Sys2Proof/Machine/Cascade.lean: the cascade (16 R600 to R606, 05 R234 to R239, 06 R270).
-/
namespace Sys2Proof.Machine

/-- Replace the cascade unit. -/
def setCascade (c : CascadeUnit) (s : State) : State := { s with cascade := c }

/-- CSC.STATUS.STATE (16). -/
abbrev Cc.off : Nat := 0
abbrev Cc.configErr : Nat := 1
abbrev Cc.enumerating : Nat := 2
abbrev Cc.running : Nat := 3
abbrev Cc.orphan : Nat := 4
abbrev Cc.held : Nat := 5

/-- CSC.STATUS.STATE. -/
def cascState (s : State) : Nat := regBits s Reg.cscStatus 31 28

/-- CSC.CTRL.EN and POSITION. -/
def cascEn (s : State) : Bool := regBit s Reg.cscCtrl 31
def cascPosition (s : State) : Nat := regBits s Reg.cscCtrl 29 28

/-- Whether the device matches the column of 16 R600 for its position. -/
def cascConfigOk (s : State) : Bool :=
  let ref := regBits s Reg.clkPlumb 1 0
  let out := regBit s Reg.clkPlumb 8
  let role := regBits s Reg.cscPortCtrl 30 29
  if cascPosition s = 0 then role == 1 && ref ≤ 1 && out else role == 2 && ref == 2 && !out

/-- Set FLD.ARRAY, which PD3 holds (05). -/
def setArray (mode position members : Nat) (s : State) : State :=
  if domainOn s 3 then
    setReg Reg.fldArray (fieldWord 31 30 mode ||| fieldWord 29 28 position ||| fieldWord 27 26 members) s
  else s

/-- FLD.ARRAY of a head follows the members present, after PD3 is switched on too. -/
def headArray (s : State) : State :=
  let n := bitsOf (getReg s Reg.cscStatus) 24 24 + bitsOf (getReg s Reg.cscStatus) 25 25
    + bitsOf (getReg s Reg.cscStatus) 26 26
  if n = 0 then setRegBits Reg.fldArray 27 26 0 s else setArray 1 0 n s

/-- The device is in no cascade any more: STANDALONE, no member, and a quiet field follows its own request. -/
def leaveCascade (s : State) : State :=
  let quiet := fieldState s = Fs.quiet && !(s.clocks.bypass)
  let member := arrayMode s = 2
  let load := s.fld.load
  let s := s |> setCascade { CascadeUnit.reset with line := s.cascade.line, heardNow := s.now } |> setRegBits Reg.cscStatus 26 24 0
    |> setArray 0 0 0
  let s := match load with
    | none => s
    | some l => s |> setFld { s.fld with load := none } |> finishCmd l.id Oc.failed
  let s := if member then setFld { s.fld with jobHold := false } s else s
  if quiet then setFieldState Fs.off s else s

/-- CSC.STATUS.STATE follows the configuration (16 R593, R600, R606): `fresh` when EN or POSITION has changed. -/
def cascCheck (fresh : Bool) (s : State) : State :=
  let st := cascState s
  let next :=
    if !(domainOn s 9) || !(cascEn s) then Cc.off
    else if !(cascConfigOk s) then Cc.configErr
    else if twinRole s == 2 && cascPosition s == 0 then Cc.held
    else if !fresh && Cc.enumerating ≤ st && st ≤ Cc.orphan then st
    else Cc.enumerating
  if next = st && !fresh then s
  else
    let s := if (Cc.enumerating ≤ st && st ≤ Cc.orphan) || fresh then leaveCascade s else s
    let s := s |> setRegBits Reg.cscStatus 31 28 next |> (fun t => if domainOn t 3 then fieldUpdate t else t)
    if next = Cc.configErr ∧ st ≠ Cc.configErr then raiseEvent 0x0F 3 s else s

/-- A write of CSC.CTRL. -/
def cscCtrlWritten (old : Word) (s : State) : State :=
  cascCheck (bitAt old 31 != cascEn s || bitsOf old 29 28 != cascPosition s) s

/-- A write of CLK.PLUMB restarts acquisition (15 R563) and is part of the cascade's configuration (16 R600). -/
def plumbWritten (s : State) : State := s |> plumbRestart |> cascCheck false

/-- Whether the cascade port carries messages of this device. -/
def cascLive (s : State) : Bool :=
  domainOn s 9 && regBit s Reg.cscPortCtrl 31 && Cc.enumerating ≤ cascState s && cascState s ≤ Cc.orphan

/-- Whether the device is a head, or a member, in a cascade that runs or forms. -/
def isHead (s : State) : Bool := cascLive s && cascPosition s == 0
def isMember (s : State) : Bool := cascLive s && cascPosition s != 0

/-- A frame with the position its message names, if it names one, and the header for its direction (02 R98, 16 R603). -/
def cascFits (down : Bool) (named : Option Nat) (wire : LinkFrame) : Bool :=
  let p := wire.header.toNat / 16 % 8
  1 ≤ p && p ≤ 3 && wire.header == linkHeader (!down) p && (named.getD p == p)

/-- A member hears a frame of the head (02 R98, R101): the one addressed drives the ready line and takes the frame, others leave the
lanes alone. -/
def memberHears (wire : LinkFrame) (f : State → State) (s : State) : State :=
  let mine := wire.header == linkHeader false (cascPosition s)
  let s := setCascade { s.cascade with line := { s.cascade.line with addressed := mine } } s
  if !mine then s
  else
    let s := s |> setCascade { s.cascade with heardNow := s.now } |> frameReceived 3 wire
    if frameWhole wire then f s else s

/-- A cascade message passes: `down` from head to member. A head starts no frame while the ready line of the member is low (02
R100); one delivered INCOMPLETE is discarded (R102). -/
def cascFrame (down : Bool) (named : Option Nat) (wire : LinkFrame) (f : State → State) (s : State) : Out :=
  .next (if !(cascLive s) then s
    else if cascPosition s = 0 then
      if !(cascFits down named wire) then s
      else if down then (if wire.ready && frameWhole wire then f (frameSent 3 wire s) else s)
      else
        let s := frameReceived 3 wire s
        if frameWhole wire then f s else s
    else if down then memberHears wire (fun t => if cascFits down named wire then f t else t) s
    else if cascFits down named wire && wire.header == linkHeader true (cascPosition s) && frameWhole wire then f (frameSent 3 wire s)
    else s)

/-- Milliseconds have passed since an instant, if there was one. -/
def sinceMs (s : State) (at_ : Option Nat) (ms : Nat) : Bool :=
  match at_ with
  | some t => passedMs s t ms
  | none => true

/-- PROBE (16 R601): a head with a locked line probes an absent position, every 100 ms; a member with a locked line answers the probe
of its own. -/
def execProbe (wire : LinkFrame) (position : Fin 4) (s : State) : Out :=
  cascFrame true (some position.val) wire (fun s =>
    if s.clocks.plumb ≠ .locked then s
    else if isHead s then
      if position = 0 ∨ regBit s Reg.cscStatus (23 + position.val) = true
          ∨ sinceMs s (s.cascade.probedAt.getD position.val none) 100 = false then s
      else setCascade { s.cascade with probed := position.val :: s.cascade.probed.filter (· != position.val)
                                       probedAt := s.cascade.probedAt.set position.val (some s.now) } s
    else if position.val = cascPosition s then
      s |> setCascade { s.cascade with answered := true } |> sendFree 3 (linkHeader true (cascPosition s)) 20
    else s) s

/-- A member joins (16 R601). -/
def memberJoins (m : Nat) (serial : BitVec 64) (present chains : Byte) (s : State) : State :=
  s |> setReg (Reg.cscMemberLo + (m - 1)) (serial.setWidth 32)
    |> setReg (Reg.cscMemberHi + (m - 1)) ((serial >>> 32).setWidth 32)
    |> setReg (Reg.cscMemberInfo + (m - 1)) (fieldWord 15 8 present.toNat ||| fieldWord 7 0 chains.toNat)
    |> setRegBit Reg.cscStatus (23 + m)
    |> (fun t => setCascade { t.cascade with probed := t.cascade.probed.filter (· != m),
                                             missed := t.cascade.missed.set (m - 1) 0, aligning := true } t)
    |> setRegBits Reg.cscStatus 31 28 Cc.running |> headArray |> countReg Reg.cscJoins 1 |> raiseEvent 0x0F 0

/-- ANSWER (16 R601): a member's answer to a probe, aligned and counted by the head; another silicon revision is ignored
and counted. -/
def execAnswer (wire : LinkFrame) (position : Fin 4) (serial : BitVec 64) (silicon : Word) (present chains : Byte)
    (s : State) : Out :=
  cascFrame false (some position.val) wire (fun s =>
    if !(isHead s) || !(s.cascade.probed.contains position.val) then s
    else if silicon ≠ getReg s Reg.devSiliconRev then
      s |> setCascade { s.cascade with probed := s.cascade.probed.filter (· != position.val) }
        |> countReg Reg.cscRefusedJoins 1
    else memberJoins position.val serial present chains s) s

/-- ALIGNMENT (16 R602): every second the head aligns its members, SYNC first. -/
def execAlignment (s : State) : Out :=
  .next (if isHead s && s.clocks.plumb == .locked && sinceMs s s.cascade.alignedAt 1000 then
      setCascade { s.cascade with aligning := true, alignedAt := some s.now } s
    else s)

/-- SYNC (16 R602): each device, the head included, latches FLD.CYCLE at its next tap-0 edge. -/
def execSync (wire : LinkFrame) (s : State) : Out :=
  cascFrame true none wire (fun s =>
    if (isMember s || s.cascade.aligning) && s.clocks.plumb == .locked then
      setCascade { s.cascade with latched := some (BitVec.ofNat 32 (fldCycle s)) } s
    else s) s

/-- A member's count is corrected (16 R602) by the difference of the latched values; a member that has answered a probe,
or is an ORPHAN, joins with its field in QUIET (R601), one whose count was wrong enters QUIET. -/
def memberAligned (latched mine : Word) (s : State) : State :=
  let diff := (latched - mine).toNat
  let s := setCascade { s.cascade with latched := none } s
  let s := setFld { s.fld with cycleOff := (s.fld.cycleOff + diff) % 2 ^ 32 } s
  if s.cascade.answered || cascState s == Cc.orphan then
    s |> setCascade { s.cascade with answered := false } |> setRegBits Reg.cscStatus 31 28 Cc.running
      |> setArray 2 (cascPosition s) 0 |> enterQuiet
  else if diff ≠ 0 ∧ arrayMode s = 2 then s |> enterQuiet |> countReg Reg.cscResyncs 1
  else s

/-- SYNC2 (16 R602). -/
def execSync2 (wire : LinkFrame) (latched : Word) (s : State) : Out :=
  cascFrame true none wire (fun s =>
    if isHead s then setCascade { s.cascade with aligning := false, latched := none } s
    else match s.cascade.latched with
    | none => s
    | some mine => if domainOn s 3 then memberAligned latched mine s else s) s

/-- A load has been applied at a member (05 R235): CASC_LOAD ends when none is left. -/
def loadApplied (left : List (Nat × Nat)) (l : CascLoad) (s : State) : State :=
  if left.isEmpty then s |> setFld { s.fld with load := none } |> finishCmd l.id Oc.done
  else setFld { s.fld with load := some { l with left := left } } s

/-- The 13 words of ashlar `n` of member `m` in the member image (05 R235). -/
def cascadeImage (s : State) (n m : Nat) : List Word :=
  (List.range 13).map (fun k =>
    BitVec.ofNat 32 (leNat (mortarBytes s (regBits s Reg.fldCascImage 20 0 + 4 * ((3 * n + m - 1) * 13 + k)) 4)))

/-- LOAD (05 R235): the head sends the words of the member image that CASC_LOAD names, and counts the load as applied; a
member applies the 13 words of an ashlar at one edge. -/
def execLoad (wire : LinkFrame) (ashlar : Fin 16) (member : Fin 4) (words : List Word) (s : State) : Out :=
  cascFrame true (some member.val) wire (fun s =>
    if isHead s then
      match s.fld.load with
      | none => s
      | some l =>
        if l.left.contains (ashlar.val, member.val) && words == cascadeImage s ashlar.val member.val then
          loadApplied (l.left.filter (· != (ashlar.val, member.val))) l s
        else s
    else if member.val = cascPosition s ∧ domainOn s 3 ∧ words.length = 13 then
      (List.range 13).foldl (fun t k =>
        let i := Reg.patAshCtrl + 13 * ashlar.val + k
        t |> setReg i (words.getD k 0#32) |> conflict i none |> patWritten (i % 256)) s
    else s) s

/-- Whether cycle N comes too soon, or is past, at a member (05 R236): the message came later than cycle N - 8. -/
def cycleLate (s : State) (cycle : Word) : Bool :=
  let d := (cycle.toNat + 2 ^ 32 - fldCycle s) % 2 ^ 32
  d < 8 || 2 ^ 31 ≤ d

/-- A message that came late at a member (05 R236, 16 R604): it ramps down, enters QUIET, and reports it. -/
def lateAtMember (s : State) : State := enterQuiet (setCascade { s.cascade with late := true } s)

/-- SWITCH (05 R236, R238): a member schedules the switch, or is late; on bypass it does not. The head sends the switch it
has scheduled. -/
def execSwitch (wire : LinkFrame) (cycle : Word) (ashlar : Fin 16) (s : State) : Out :=
  cascFrame true none wire (fun s =>
    if isHead s || arrayMode s != 2 || !(domainOn s 3) || s.clocks.bypass then s
    else if cycleLate s cycle then lateAtMember s
    else s |> setReg Reg.fldCascAt cycle |> setRegBits Reg.fldCascStatus 31 31 1
      |> setRegBits Reg.fldCascStatus 27 24 ashlar.val) s

/-- ESTIMATE (06 R270, R271): the head keeps a forwarding member's blocks of the reply in hand, and goes on with it when
all are there. -/
def execEstimate (wire : LinkFrame) (position : Fin 4) (reply block : Byte) (words : List Word) (s : State) : Out :=
  cascFrame false (some position.val) wire (fun s =>
    let forwards := position ≠ 0 && domainOn s 4 && regBit s Reg.umxStatus (23 + position.val)
      && blockFrame position.val block.toNat reply.toNat words
    if isHead s && forwards then
      let keep := s.cascade.blocks.filter (fun b => b.2.1 == reply.toNat && !(b.1 == position.val && b.2.2.1 == block.toNat))
      blockArrived (setCascade { s.cascade with blocks := keep ++ [(position.val, reply.toNat, block.toNat, words)] } s)
    else s) s

/-- What a device does at the cycle of an announced action (16 R604): a ramp of the field, a reader frame, or a survey step
of the device at position `who` (05 R239). -/
def fieldAction (action : FieldAction) (who : Nat) (s : State) : State :=
  let member := arrayMode s == 2
  match action with
  | .rampUp => fieldFollowNow (if member then setFld { s.fld with jobHold := true } s else s)
  | .rampDown => fieldFollowNow (if member then setFld { s.fld with jobHold := false } s else s)
  | .readerFrame => if member then s else setCascade { s.cascade with frameTurn := true } s
  | .surveyStep => if who = cascPosition s then setCascade { s.cascade with surveyTurn := true } s else s

/-- Announced actions whose cycle has come are taken (16 R604). -/
def fieldActions (s : State) : State :=
  let ready := s.cascade.due.filter (fun d => cycleReached s d.1)
  if ready.isEmpty then s
  else
    let s := setCascade { s.cascade with due := s.cascade.due.filter (fun d => !(cycleReached s d.1)) } s
    ready.foldl (fun t d => fieldAction d.2.1 d.2.2 t) s

/-- FIELD (16 R604): the head announces an action at a cycle at least CASC_LEAD ahead, and every device acts at that cycle;
a member that receives it late is handled as a late switch. -/
def execField (wire : LinkFrame) (position : Fin 4) (cycle : Word) (action : FieldAction) (s : State) : Out :=
  cascFrame true none wire (fun s =>
    let ahead := (cycle.toNat + 2 ^ 32 - fldCycle s) % 2 ^ 32
    let announce := setCascade { s.cascade with due := s.cascade.due ++ [(cycle, action, position.val)] } s
    if !(domainOn s 3) then s
    else if isHead s then (if regBits s Reg.fldCascLead 15 0 ≤ ahead ∧ ahead < 2 ^ 31 then announce else s)
    else if arrayMode s != 2 then s
    else if cycleLate s cycle then lateAtMember s else announce) s

/-- QUIET (05 R237): a member ramps down and enters QUIET. -/
def execQuiet (wire : LinkFrame) (s : State) : Out :=
  cascFrame true none wire (fun s => if isMember s && arrayMode s == 2 then enterQuiet s else s) s

/-- MEMBER_STATUS (16 R602, R603, 05 R236): the head keeps what the member reports; a late arrival sets its LATE bit, and one whose
plumb line has locked again is aligned again. -/
def execMemberStatus (wire : LinkFrame) (position : Fin 4) (plumb : Fin 16) (quiet late : Bool) (faulted : Byte)
    (s : State) : Out :=
  cascFrame false (some position.val) wire (fun s =>
    if !(isHead s) || position = 0 || !(regBit s Reg.cscStatus (23 + position.val)) then s
    else
      let was := (s.cascade.reports.getD (position.val - 1) (0, false, false, 0#8)).1
      let s := setCascade { s.cascade with
        reports := s.cascade.reports.set (position.val - 1) (plumb.val, quiet, late, faulted)
        alignedAt := if was ≠ 2 ∧ plumb.val = 2 then none else s.cascade.alignedAt } s
      if !(domainOn s 3) then s
      else if late then s |> setRegBit Reg.fldCascStatus (7 + position.val) |> raiseEvent 0x10 9
      else if quiet then s
      else clearRegBit Reg.fldCascStatus (7 + position.val) s) s

/-- MEMBER_POLL (16 R601): consecutive polls a member has missed. -/
def execMemberPoll (position : Fin 4) (answered : Bool) (s : State) : Out :=
  .next (if isHead s && position != 0 && regBit s Reg.cscStatus (23 + position.val) then
      let n := s.cascade.missed.getD (position.val - 1) 0
      setCascade { s.cascade with missed := s.cascade.missed.set (position.val - 1) (if answered then 0 else n + 1) } s
    else s)

/-- A member is removed (16 R601): MEMBERS falls, forwarding goes on without it (06 R271), and a load no longer waits for
it. -/
def removeMember (m : Nat) (s : State) : State :=
  let s := s |> clearRegBit Reg.cscStatus (23 + m) |> headArray |> countReg Reg.cscLeaves 1 |> raiseEvent 0x0F 1
  let s := setCascade { s.cascade with missed := s.cascade.missed.set (m - 1) 0,
                                       blocks := s.cascade.blocks.filter (fun b => b.1 != m) } s
  let s := if membersAbsent s then setRegBits Reg.cscStatus 31 28 Cc.enumerating s else s
  let s := if domainOn s 4 && regBit s Reg.umxStatus (23 + m) then
      s |> clearRegBit Reg.umxStatus (23 + m) |> raiseEvent 0x13 2
    else s
  match s.fld.load with
  | none => s
  | some l => loadApplied (l.left.filter (fun x => x.2 != m)) l s
where
  /-- No member is present. -/
  membersAbsent (s : State) : Bool := regBits s Reg.cscStatus 26 24 == 0

/-- MEMBER_LEFT (16 R601): a member that has missed 10 consecutive polls is removed. -/
def execMemberLeft (position : Fin 4) (s : State) : Out :=
  .next (if isHead s && position != 0 && regBit s Reg.cscStatus (23 + position.val)
      && 10 ≤ s.cascade.missed.getD (position.val - 1) 0 then removeMember position.val s else s)

/-- ORPHANED (16 R601): a member that has heard no frame for 10 ms enters QUIET; its MODE stays MEMBER. -/
def execOrphaned (s : State) : Out :=
  .next (if isMember s && arrayMode s == 2 && cascState s != Cc.orphan && passedMs s s.cascade.heardNow 10 then
      s |> enterQuiet |> setRegBits Reg.cscStatus 31 28 Cc.orphan |> raiseEvent 0x0F 2
        |> (fun t => setCascade { t.cascade with answered := false, latched := none } t)
    else s)

end Sys2Proof.Machine
end

