-- ==== Sys2Proof/Machine/Contactless.lean ====
section
/-!
DEFINITION. Sys2Proof/Machine/Contactless.lean: the commands of contactless jobs (07 R287 to R310): submission,
cancelling, the start of a job, reader frames, and the job timers.
-/
namespace Sys2Proof.Machine

/-- The door argument times 16: the byte address of a descriptor in bank 0 (07 R287). -/
def descAddr (word : Word) : Nat := 16 * bitsOf word 15 0

/-- A job as copied when its door write is applied (07 R287, R289). -/
def submitJob (inventory : Bool) (page : Nat) (desc tx : List Byte) (id ticket : Nat) (s : State) : State :=
  let job : NfcJob := { id := id, ticket := ticket, inventory := inventory, page := page, desc := desc, tx := tx }
  setNfc { s.nfc with table := s.nfc.table ++ [job] } s

/-- PRO door command EXCHANGE (07 R287, R295, R297). -/
def doorExchange (req : Requester) (word : Word) (s : State) : State :=
  let a := descAddr word
  let s := settleRange a 16 s
  let d := mortarBytes s a 16
  let n := descField d 6 2
  let bad := exchangeBad d (0x100000 - (a + 16))
  let s := if bad then s else settleRange (a + 16) n s
  doorWrite req 0x14 word
    (firstRefusal (nfcStateRefusals s ++ [(bad, Oc.badArg), (nfcFree s == 0, Oc.queueFull)]))
    (some 0x14) (submitJob false 0x14 d (mortarBytes s (a + 16) n)) s

/-- EXCHANGE. -/
def execExchange (req : Requester) (tag : Byte) (arg : BitVec 16) (s : State) : Out :=
  .next (doorIssue 0x14 doorExchange req (doorWord tag 0x10 arg) s)

/-- INV door command INVENTORY (07 R287, R295, R304). -/
def doorInventory (req : Requester) (word : Word) (s : State) : State :=
  let a := descAddr word
  let s := settleRange a 32 s
  let d := mortarBytes s a 32
  doorWrite req 0x15 word
    (firstRefusal (nfcStateRefusals s ++
      [(0x100000 < a + 32 || inventoryBad s d, Oc.badArg), (nfcFree s == 0, Oc.queueFull)]))
    (some 0x14) (submitJob true 0x15 d []) s

/-- INVENTORY. -/
def execInventory (req : Requester) (tag : Byte) (arg : BitVec 16) (s : State) : Out :=
  .next (doorIssue 0x15 doorInventory req (doorWord tag 0x10 arg) s)

/-- What a cancelled job ends with (07 R294). -/
def cancelEnd : NfcEnd := { code := 8, status := 0x0B, outcome := 0x42 }

/-- The job with a ticket ends cancelled: the running one at the next frame boundary (07 R294, R296). -/
def cancelJob (ticket : Nat) (s : State) : State :=
  let running := match s.nfc.run with
    | some r => r.job.ticket == ticket
    | none => false
  if running then endAtBoundary cancelEnd s
  else match s.nfc.table.find? (fun j => j.ticket == ticket) with
  | none => s
  | some j => endQueued j cancelEnd true s

/-- INV door command CANCEL (07 R296). -/
def doorCancel (req : Requester) (word : Word) (s : State) : State :=
  let ticket := bitsOf word 15 0
  doorWrite req 0x15 word (firstRefusal [(!(s.nfc.table.any (fun j => j.ticket == ticket)), 0x43)]) none
    (fun id _ t => t |> cancelJob ticket |> finishCmd id Oc.done) s

/-- CANCEL. -/
def execCancel (req : Requester) (tag : Byte) (arg : BitVec 16) (s : State) : Out :=
  .next (doorIssue 0x15 doorCancel req (doorWord tag 0x11 arg) s)

/-- The ashlar a job drives first (07 R291, R297, R305). -/
def NfcJob.firstAshlar (j : NfcJob) : Nat := if j.inventory then seqEntry j.desc 0 else descByte j.desc 4 % 16

/-- Sessions and the start of a job (07 R301, R303): ACTIVATE drops an open session; a job on protocol 1 or 2 that is
not ISO-DEP loses it. -/
def startSession (j : NfcJob) (s : State) : State :=
  if j.layer = 2 then setReg Reg.proSession 0#32 s
  else if j.layer = 0 ∧ j.proto ≤ 2 then loseSession s
  else s

/-- What UMX shows of the cascade for a job (06 R269): the state, the members that forward, CASC_DEGRADED. -/
def startCascade (j : NfcJob) (s : State) : State :=
  let m := cascMode s j.proto (jobRate s j.inventory j.desc)
  let fwd := if m = 1 then (membersPresent s).foldl (fun n k => n + 2 ^ (k - 1)) 0 else 0
  let s := s |> setRegBits Reg.umxStatus 31 30 m |> setRegBits Reg.umxStatus 26 24 fwd
  if m = 2 ∨ m = 3 then raiseEvent 0x13 2 s else s

/-- The head of the table starts (07 R290, R291): it reserves its records, holds the field, selects its first ashlar,
and ramps the field down first for RESET_FIELD. LAYER 1 or 3 without a session ends NOT_ACTIVE. -/
def startJob (j : NfcJob) (s : State) : State :=
  let n := jobSpace s j
  let flags := if j.inventory then descByte j.desc 2 else 0
  let on := fieldState s == Fs.on
  let reset := flags / 64 % 2 == 1 && (on || fieldState s == Fs.rampUp)
  let run := { startRun s j with
    guardDue := !on || reset, reserved := n, bypassed := s.clocks.bypass, resetField := reset }
  let s := s |> queueReserve j.pop n |> startSession j
    |> (fun t => setNfc { t.nfc with run := some run, keep := false } t) |> startCascade j
  if (j.layer = 1 ∨ j.layer = 3) ∧ !(regBit s Reg.proSession 31) then
    s |> (fun t => setFld { t.fld with jobHold := t.fld.jobHold && on } t)
      |> pushRecord (exchangeRecord run 8 0 false 0xFFFF 0 0 []) |> closeRun Oc.done
  else
    s |> (fun t => setFld { t.fld with jobHold := true, surveyFull := flags % 2 == 1 && (presentPorts t).any (fun p => !(portFaulted t p))
                                       survey := if flags % 2 = 1 then [] else t.fld.survey } t)
      |> jobStep j.firstAshlar
      |> (if reset then setFieldState Fs.rampDown else fieldFollow)

/-- The secondary of a cascade head lets its jobs wait until it takes over (16 R593). -/
def jobsHeld (s : State) : Bool :=
  activeSecondary s && regBit s Reg.cscCtrl 31 && regBits s Reg.cscCtrl 29 28 == 0

/-- A test of FLD, FRX or PRO runs, or an URGENT one waits: no contactless job starts (03 R140, R657). -/
def fieldTested (s : State) : Bool := [0x10, 0x12, 0x14].any (fun p => testRuns s p || urgentWaits s p)

/-- JOB_START (07 R290): the job at the head starts once nothing runs and its queue has the space; not while the field
is THERMAL_OFF (R293). -/
def jobStart (s : State) : State :=
  match s.nfc.table, s.nfc.run with
  | j :: _, none =>
    if domainOn s 3 && domainOn s 4 && fieldState s != Fs.thermalOff && !(jobsHeld s) && !(fieldTested s) && jobSpace s j ≤ queueFree s j.pop
    then startJob j s else s
  | _, _ => s

/-- JOB_START. -/
def execJobStart (s : State) : Out := .next (jobStart s)

/-- GUARD_ON_EXPIRY (07 R283): GUARD_ON after the end of the rise, and of a survey that was asked for, the first reader
frame may start. -/
def execGuardOnExpiry (s : State) : Out :=
  .next (match s.nfc.run with
    | none => s
    | some r =>
      let since := if r.job.inventory && r.job.flag 0 then max s.fld.since s.fld.surveyAt else s.fld.since
      if fieldState s = Fs.on ∧ domainOn s 3 ∧ !(s.fld.surveyFull) ∧ since + r.guardOn ≤ s.now then setRun { r with guardDue := false } s else s)

/-- The frame the running job sends next, and whether a reply is expected (07 R297, R301, R305). -/
def jobFrame (s : State) (r : NfcRun) : Option ((List Byte × Nat) × Bool) :=
  if r.job.inventory then antiFrame r.job r.anti
  else if r.job.layer = 0 then
    let flags := descByte r.job.desc 3
    let bytes := if flags % 2 = 1 then withCrc r.job.proto r.job.tx else r.job.tx
    some ((bytes, descByte r.job.desc 5), flags / 16 % 2 == 0)
  else some (depFrame s r.job r.dep, true)

/-- The depth of the pauses that a job calls for, in percent (07 R279, 05 R215). -/
def jobDepth (s : State) (j : NfcJob) : Nat :=
  if j.proto = 2 ∨ j.proto = 4 then regBits s Reg.fldMod 20 16 else 100

/-- A frame that expects no reply has been sent: with NO_REPLY the exchange is over (07 R297, R299); an inventory goes on
with what it silences (R305), or ends if it was to (R294). -/
def frameWithoutReply (r : NfcRun) (s : State) : State :=
  if !r.job.inventory then
    s |> pushRecord (exchangeRecord r 0 0 false 0xFFFF 0 0 []) |> closeRun Oc.done
  else s |> silenced |> jobBoundary |> roundCheck

/-- READER_FRAME (07 R283, R292, R305): the job's next frame is sent and counted, `cycles` long on the air with its pauses,
as offsets of start and end (05 R215). An inventory sends none on bypass; a round with nothing more to send gives way to the
next. -/
def readerFrame (cycles : Nat) (pauses : List (Nat × Nat)) (s : State) : State :=
  match s.nfc.run with
  | none => s
  | some r =>
    if !(frameAllowed s r) || (r.job.inventory && s.clocks.bypass) then s
    else match jobFrame s r with
    | none => roundCheck s
    | some (sent, reply) =>
      let depth := jobDepth s r.job
      let r := { r with framed := true, sent := sent, frameEnd := s.now + cycles, gapFrom := s.now + cycles, inFrame := reply
                        anti := { r.anti with woken := true } }
      let s := s |> countReg Reg.proFramesTx 1 |> setRun r
        |> (fun t => setFld { t.fld with pauses := pauses.map (fun p => (t.now + p.1, t.now + p.2, depth)) } t)
        |> (fun t => { t with cascade := { t.cascade with frameTurn := false } })
      if reply then s else frameWithoutReply r s

/-- READER_FRAME. -/
def execReaderFrame (cycles : Nat) (pauses : List (Nat × Nat)) (s : State) : Out := .next (readerFrame cycles pauses s)

/-- BUDGET (07 R308): BUDGET_MS after its start the inventory ends after the slot in progress. -/
def execBudget (s : State) : Out :=
  .next (match s.nfc.run with
    | none => s
    | some r =>
      if r.job.inventory && passedMs s r.startNow (descField r.job.desc 16 2) then
        endAtBoundary { code := 2, status := 0, outcome := Oc.done } s else s)

/-- KEEP_FIELD_EXPIRY (07 R291): KEEP_MS after a job the field kept is released. -/
def execKeepFieldExpiry (s : State) : Out :=
  .next (if s.nfc.keep && s.nfc.run.isNone && passedMs s s.nfc.keepAt (regBits s Reg.proCtrl 21 12) then
    s |> setNfc { s.nfc with keep := false } |> jobHoldsField false else s)

end Sys2Proof.Machine
end

