-- ==== Sys2Proof/Machine/Aes.lean ====
section
/-!
DEFINITION. Sys2Proof/Machine/Aes.lean: AES and the modes of the cipher engine (12 R458: SP 800-38A to 38F), over byte
lists. Blocks are 16 bytes; a key is 16, 24 or 32 bytes.
-/
namespace Sys2Proof.Machine

/-! ## The field of AES -/

/-- Multiplication by x in GF(2^8). -/
def xtime (b : Byte) : Byte := if b.getLsbD 7 then (b <<< 1) ^^^ 0x1B#8 else b <<< 1

/-- Product in GF(2^8), over the low `n` bits of `b`. -/
def gmulN (n : Nat) (a b : Byte) : Byte :=
  match n with
  | 0 => 0#8
  | k + 1 => (if b.getLsbD 0 then a else 0#8) ^^^ gmulN k (xtime a) (b >>> 1)

/-- Product in GF(2^8). -/
def gmul (a b : Byte) : Byte := gmulN 8 a b

/-- `a` squared `n` times. -/
def gsquares (n : Nat) (a : Byte) : Byte :=
  match n with
  | 0 => a
  | k + 1 => gsquares k (gmul a a)

/-- Inverse in GF(2^8): the 254th power, 0 for 0. -/
def ginv (a : Byte) : Byte :=
  (List.range 7).foldl (fun p i => gmul p (gsquares (i + 1) a)) 1#8

/-- Rotate a byte left. -/
def rotByte (b : Byte) (n : Nat) : Byte := (b <<< n) ||| (b >>> (8 - n))

/-- The S-box. -/
def sbox (b : Byte) : Byte :=
  let v := ginv b
  v ^^^ rotByte v 1 ^^^ rotByte v 2 ^^^ rotByte v 3 ^^^ rotByte v 4 ^^^ 0x63#8

/-- The inverse S-box. -/
def sboxInv (b : Byte) : Byte := ginv (rotByte b 1 ^^^ rotByte b 3 ^^^ rotByte b 6 ^^^ 0x05#8)

/-! ## The cipher -/

/-- Bytewise XOR, to the shorter length. -/
def xorBytes (a b : List Byte) : List Byte := (a.zip b).map (fun p => p.1 ^^^ p.2)

/-- Add one word to a key schedule held newest first: `i` its index, `nk` the key's words, `rcon` the round constant. -/
def keyStep (nk i : Nat) (rcon : Byte) (ws : List (List Byte)) : List (List Byte) :=
  let prev := ws.headD []
  let t := if i % nk = 0 then
      match (prev.drop 1 ++ prev.take 1).map sbox with
      | [] => []
      | a :: r => (a ^^^ rcon) :: r
    else if 6 < nk ∧ i % nk = 4 then prev.map sbox
    else prev
  xorBytes (ws.getD (nk - 1) []) t :: ws

/-- Expand `n` more words. -/
def expandFrom (n nk i : Nat) (rcon : Byte) (ws : List (List Byte)) : List (List Byte) :=
  match n with
  | 0 => ws
  | k + 1 => expandFrom k nk (i + 1) (if i % nk = 0 then xtime rcon else rcon) (keyStep nk i rcon ws)

/-- Split a byte list into pieces of `n` bytes, `m` of them. -/
def pieces (m n : Nat) (bs : List Byte) : List (List Byte) :=
  match m with
  | 0 => []
  | k + 1 => bs.take n :: pieces k n (bs.drop n)

/-- Number of rounds for a key. -/
def aesRounds (key : List Byte) : Nat := key.length / 4 + 6

/-- The round keys, 16 bytes each, in order. -/
def roundKeys (key : List Byte) : List (List Byte) :=
  let nk := key.length / 4
  let words := expandFrom (4 * (aesRounds key + 1) - nk) nk nk 1#8 (pieces nk 4 key).reverse
  pieces (aesRounds key + 1) 16 words.reverse.flatten

/-- ShiftRows on a block held column by column. -/
def shiftRows (b : List Byte) : List Byte := (List.range 16).map (fun i => b.getD ((i + 4 * (i % 4)) % 16) 0#8)

/-- Inverse ShiftRows. -/
def shiftRowsInv (b : List Byte) : List Byte := (List.range 16).map (fun i => b.getD ((i + 12 * (i % 4)) % 16) 0#8)

/-- One column times the circulant matrix with first row `m`. -/
def mixColumn (m c : List Byte) : List Byte :=
  (List.range 4).map (fun i =>
    (List.range 4).foldl (fun a j => a ^^^ gmul (m.getD ((j + 4 - i) % 4) 0#8) (c.getD j 0#8)) 0#8)

/-- MixColumns with a matrix. -/
def mixColumns (m b : List Byte) : List Byte := ((pieces 4 4 b).map (mixColumn m)).flatten

/-- AES encryption of one block under round keys. -/
def aesEncKeys (ks : List (List Byte)) (b : List Byte) : List Byte :=
  match ks with
  | [] => b
  | k0 :: rest =>
    let n := rest.length
    rest.zipIdx.foldl (fun st k =>
      let st := shiftRows (st.map sbox)
      let st := if k.2 + 1 = n then st else mixColumns [2#8, 3#8, 1#8, 1#8] st
      xorBytes st k.1) (xorBytes b k0)

/-- AES decryption of one block under round keys. -/
def aesDecKeys (ks : List (List Byte)) (b : List Byte) : List Byte :=
  match ks.reverse with
  | [] => b
  | kn :: rest =>
    let n := rest.length
    rest.zipIdx.foldl (fun st k =>
      let st := xorBytes ((shiftRowsInv st).map sboxInv) k.1
      if k.2 + 1 = n then st else mixColumns [14#8, 11#8, 13#8, 9#8] st) (xorBytes b kn)

/-- AES encryption of one block. -/
def aesEnc (key b : List Byte) : List Byte := aesEncKeys (roundKeys key) b

/-- AES decryption of one block. -/
def aesDec (key b : List Byte) : List Byte := aesDecKeys (roundKeys key) b

/-! ## Modes (12 R458, R459, R462) -/

/-- Pad with zeros to `n` bytes, or cut to them. -/
def padTo (n : Nat) (bs : List Byte) : List Byte := (bs ++ List.replicate n 0#8).take n

/-- Blocks of a byte list, the last one padded with zeros. -/
def blocksOf (bs : List Byte) : List (List Byte) := (pieces ((bs.length + 15) / 16) 16 bs).map (padTo 16)

/-- The keystream of `n` blocks from a counter block whose last `w` bytes count. -/
def ctrStream (ks : List (List Byte)) (fixed : List Byte) (w : Nat) (start n : Nat) : List Byte :=
  ((List.range n).map (fun i => aesEncKeys ks (fixed ++ beBytes w (start + i)))).flatten

/-- ECB over whole blocks. -/
def ecbEnc (key data : List Byte) : List Byte :=
  let ks := roundKeys key
  ((blocksOf data).map (aesEncKeys ks)).flatten

/-- ECB decryption over whole blocks. -/
def ecbDec (key data : List Byte) : List Byte :=
  let ks := roundKeys key
  ((blocksOf data).map (aesDecKeys ks)).flatten

/-- CBC over whole blocks. -/
def cbcEncFrom (ks : List (List Byte)) (iv : List Byte) (bs : List (List Byte)) : List Byte :=
  match bs with
  | [] => []
  | b :: t =>
    let c := aesEncKeys ks (xorBytes b iv)
    c ++ cbcEncFrom ks c t

/-- CBC decryption over whole blocks. -/
def cbcDecFrom (ks : List (List Byte)) (iv : List Byte) (bs : List (List Byte)) : List Byte :=
  match bs with
  | [] => []
  | b :: t => xorBytes (aesDecKeys ks b) iv ++ cbcDecFrom ks b t

/-- The CBC-MAC chain from `x`. -/
def macChain (ks : List (List Byte)) (x : List Byte) (bs : List (List Byte)) : List Byte :=
  bs.foldl (fun x b => aesEncKeys ks (xorBytes x b)) x

/-- Doubling in GF(2^128) for CMAC subkeys. -/
def cmacDouble (b : List Byte) : List Byte :=
  let n := beNat b
  let d := (2 * n) % 2 ^ 128
  beBytes 16 (if 2 ^ 127 ≤ n then d ^^^ 0x87 else d)

/-- AES-CMAC (SP 800-38B). -/
def cmac (key data : List Byte) : List Byte :=
  let ks := roundKeys key
  let k1 := cmacDouble (aesEncKeys ks (List.replicate 16 0#8))
  let n := data.length
  let full := n ≠ 0 ∧ n % 16 = 0
  let body := if full then n - 16 else n / 16 * 16
  let tail := data.drop body
  let last := if full then xorBytes tail k1 else xorBytes (padTo 16 (tail ++ [0x80#8])) (cmacDouble k1)
  aesEncKeys ks (xorBytes (macChain ks (List.replicate 16 0#8) (blocksOf (data.take body))) last)

/-- AES-CCM with a 13-byte nonce and a 2-byte length (12 R462): the tag over `aad` and plaintext, before encryption of
the tag. -/
def ccmMac (ks : List (List Byte)) (nonce : List Byte) (tagLen : Nat) (aad plain : List Byte) : List Byte :=
  let flags := (if aad.isEmpty then 0 else 64) + (tagLen - 2) / 2 * 8 + 1
  let b0 := BitVec.ofNat 8 flags :: nonce ++ beBytes 2 plain.length
  let a := if aad.isEmpty then []
    else if aad.length < 0xFF00 then blocksOf (beBytes 2 aad.length ++ aad)
    else blocksOf (beBytes 2 0xFFFE ++ beBytes 4 aad.length ++ aad)
  macChain ks (List.replicate 16 0#8) (b0 :: a ++ blocksOf plain)

/-- AES-CCM: output and tag. `decrypt` turns ciphertext into plaintext; the tag is over the plaintext. -/
def ccm (decrypt : Bool) (key nonce : List Byte) (tagLen : Nat) (aad data : List Byte) : List Byte × List Byte :=
  let ks := roundKeys key
  let s := ctrStream ks (1#8 :: nonce) 2 0 ((data.length + 15) / 16 + 1)
  let out := xorBytes data (s.drop 16)
  let mac := ccmMac ks nonce tagLen aad (if decrypt then out else data)
  (out, (xorBytes mac s).take tagLen)

/-- One bit of a GHASH product: the accumulated product and the shifted operand. -/
def ghashBits (n : Nat) (x : BitVec 128) (z v : BitVec 128) : BitVec 128 :=
  match n with
  | 0 => z
  | k + 1 =>
    ghashBits k x (if x.getLsbD k then z ^^^ v else z)
      (if v.getLsbD 0 then (v >>> 1) ^^^ 0xE1000000000000000000000000000000#128 else v >>> 1)

/-- GHASH of blocks under `h`. -/
def ghash (h : BitVec 128) (bs : List (List Byte)) : BitVec 128 :=
  bs.foldl (fun y b => ghashBits 128 (y ^^^ BitVec.ofNat 128 (beNat b)) 0#128 h) 0#128

/-- AES-GCM with a 12-byte IV (12 R462): output and full tag. -/
def gcm (decrypt : Bool) (key iv : List Byte) (aad data : List Byte) : List Byte × List Byte :=
  let ks := roundKeys key
  let h := BitVec.ofNat 128 (beNat (aesEncKeys ks (List.replicate 16 0#8)))
  let out := xorBytes data (ctrStream ks iv 4 2 ((data.length + 15) / 16))
  let cipher := if decrypt then data else out
  let lens := beBytes 8 (8 * aad.length) ++ beBytes 8 (8 * cipher.length)
  let y := ghash h (blocksOf aad ++ blocksOf cipher ++ [lens])
  (out, xorBytes (aesEncKeys ks (iv ++ beBytes 4 1)) (beBytes 16 y.toNat))

/-! ## AES key wrap (12 R473: SP 800-38F, KW) -/

/-- One step of the wrap: the register and the list of semiblocks. -/
def kwStep (ks : List (List Byte)) (t i : Nat) (st : List Byte × List (List Byte)) : List Byte × List (List Byte) :=
  let b := aesEncKeys ks (st.1 ++ st.2.getD i [])
  (xorBytes (b.take 8) (beBytes 8 t), st.2.set i (b.drop 8))

/-- One step of the unwrap. -/
def kwStepInv (ks : List (List Byte)) (t i : Nat) (st : List Byte × List (List Byte)) : List Byte × List (List Byte) :=
  let b := aesDecKeys ks (xorBytes st.1 (beBytes 8 t) ++ st.2.getD i [])
  (b.take 8, st.2.set i (b.drop 8))

/-- Wrap a key of a whole number of semiblocks. -/
def keyWrap (kek key : List Byte) : List Byte :=
  let ks := roundKeys kek
  let n := key.length / 8
  let r := (List.range (6 * n)).foldl (fun st t => kwStep ks (t + 1) (t % n) st)
    (List.replicate 8 0xA6#8, pieces n 8 key)
  r.1 ++ r.2.flatten

/-- Unwrap; none if the integrity value is wrong. -/
def keyUnwrap (kek wrapped : List Byte) : Option (List Byte) :=
  let ks := roundKeys kek
  let n := wrapped.length / 8 - 1
  let r := (List.range (6 * n)).foldl (fun st t => kwStepInv ks (6 * n - t) ((6 * n - 1 - t) % n) st)
    (wrapped.take 8, pieces n 8 (wrapped.drop 8))
  if r.1 = List.replicate 8 0xA6#8 then some r.2.flatten else none

end Sys2Proof.Machine
end

