-- ==== Sys2Proof/Machine/KeyStore.lean ====
section
/-!
DEFINITION. Sys2Proof/Machine/KeyStore.lean: key slots, guarded counters and their marks, the key history and the node
key store in MRAM (12 R465 to R475, 17 R613).
-/
namespace Sys2Proof.Machine

/-- Replace the cipher unit. -/
def setCipher (c : CipherUnit) (s : State) : State := { s with cipher := c }

/-- The identity anchor (12 R480). -/
def anchor : List Byte := (List.range 32).map Config.anchorByte

/-- A key derived from the anchor by its label, with the counter-mode KDF of SP 800-108 over AES-CMAC (12 R481): 1 storage
KEK, 2 storage MAC key, 3 fingerprint key. The form of the fixed input is that of R482 (notes/assumptions/15.md). -/
def derivedKey (label : Nat) : List Byte :=
  let k := fun (i : Nat) => cmac anchor ([BitVec.ofNat 8 i, BitVec.ofNat 8 label, 0#8] ++ beBytes 2 256)
  k 1 ++ k 2

/-- The fingerprint of a key (12 R472). -/
def fingerprint (key : List Byte) : List Byte := (cmac (derivedKey 3) key).take 8

/-- The counter value that is never issued (12 R466). -/
abbrev ctrEnd : Nat := 0xFFFFFFFF

/-- A persistent structure met an uncorrectable word (17 R613). -/
def persistFault (a : Nat) (s : State) : State := raiseFault 0x0D 1 a s

/-- A device write that rewrites every MRAM word it touches whole, the rest of the word kept (17 R610, R613). -/
def mramRewrite (a : Nat) (bs : List Byte) (s : State) : State :=
  setMem { s.mem with mram := memPut s.mem.mram a bs,
                      mramPoison := s.mem.mramPoison.filter (fun w => !(a / 8 ≤ w && 8 * w < a + bs.length)) } s

/-- A little-endian word of MRAM. -/
def mramWord (s : State) (a : Nat) : Nat := leNat (mramBytes s a 4)

/-! ## Slots -/

/-- Slot `i`. -/
def slotAt (s : State) (i : Nat) : Option KeySlot := s.cipher.slots.getD i none

/-- Replace slot `i`. -/
def setSlot (i : Nat) (k : Option KeySlot) (s : State) : State :=
  setCipher { s.cipher with slots := s.cipher.slots.set i k } s

/-- Empty slots (16 R587: slots 18 and 19 with the pairing). -/
def emptySlots (is : List Nat) (s : State) : State := is.foldl (fun t i => setSlot i none t) s

/-- CPH.SLOT.STATE (12 R466, R467): 0 EMPTY, 1 READY, 2 EXHAUSTED, 3 LOCKED. -/
def slotState (s : State) (i : Nat) : Nat :=
  match slotAt s i with
  | none => 0
  | some k => if i < 28 then (if k.ctr = ctrEnd then 2 else 1) else (if k.ctr = 0 then 3 else 1)

/-- CPH.SLOT[i]. -/
def slotWord (s : State) (i : Nat) : Word :=
  match slotAt s i with
  | none => 0#32
  | some k => fieldWord 31 30 (slotState s i) ||| fieldWord 29 28 k.size ||| fieldWord 27 27 (bit01 k.node.isSome)
      ||| fieldWord 22 16 k.users ||| fieldWord 14 6 (k.node.getD 0) ||| fieldWord 5 0 k.modes

/-- CPH.SLOT_CTR[i]. -/
def slotCtrWord (s : State) (i : Nat) : Word :=
  match slotAt s i with
  | none => 0#32
  | some k => BitVec.ofNat 32 k.ctr

/-! ## Marks (12 R471) -/

/-- Address of the outbound mark of a node (12 R473). -/
def nodeMarkAddr (n : Nat) : Nat := 0x0D8400 + 4 * n

/-- Address of a history entry (12 R472). -/
def histAddr (h : Nat) : Nat := 0x0D8000 + 16 * h

/-- Address of the mark of a slot. -/
def markAddr (k : KeySlot) : Nat :=
  match k.node with
  | some n => nodeMarkAddr n
  | none => histAddr k.hist + 8

/-- A counter reaches 0xFFFF_FFFF (12 R486). -/
def noteExhausted (s : State) : State := s |> raiseEvent 0x0A 2 |> countReg Reg.cphExhausted 1

/-- Write the mark before value `c` is issued, if it is due (12 R471); a node's new mark is mirrored (16 R591). -/
def advanceMark (a c : Nat) (node : Option Nat) (s : State) : State :=
  if c < mramWord s a then s
  else
    let m := min (c + 1024) ctrEnd
    let s := mramRewrite a (leBytes 4 m) s
    match node with
    | some n => mirrorValve (3#8 :: leBytes 2 n ++ leBytes 4 m) s
    | none => s

/-- Slot `i` issues its next counter value (12 R465, R466, R471); none when it is EXHAUSTED or its mark is
uncorrectable, which exhausts it (17 R613). -/
def takeCounter (i : Nat) (s : State) : State × Option Nat :=
  match slotAt s i with
  | none => (s, none)
  | some k =>
    if k.ctr = ctrEnd then (s, none)
    else if mramRangePoison s (markAddr k) 4 then
      (s |> persistFault (markAddr k / 8 * 8) |> setSlot i (some { k with ctr := ctrEnd }) |> noteExhausted, none)
    else
      let s := s |> advanceMark (markAddr k) k.ctr k.node |> setSlot i (some { k with ctr := k.ctr + 1 })
      let s := match k.node with
        | some n => setCipher { s.cipher with nodeCtr := keySet s.cipher.nodeCtr n (k.ctr + 1) } s
        | none => s
      (if k.ctr + 1 = ctrEnd then noteExhausted s else s, some k.ctr)

/-! ## The key history (12 R472) -/

/-- A history entry is BAD while a word of it is uncorrectable (17 R613). -/
def histBad (s : State) (h : Nat) : Bool := mramRangePoison s (histAddr h) 16

/-- Whether history entry `h` is valid. -/
def histValid (s : State) (h : Nat) : Bool :=
  !(histBad s h) && (memGet s.mem.mram (histAddr h + 12)).getLsbD 0

/-- LOADSEQ of a history entry. -/
def histSeq (s : State) (h : Nat) : Nat := leNat (mramBytes s (histAddr h + 13) 3)

/-- The entries. -/
def histAll : List Nat := List.range 64

/-- The valid entries. -/
def histUsed (s : State) : List Nat := histAll.filter (histValid s)

/-- Write the counts of the device-state region (01 R32): USED, and DISPLACED saturating. -/
def histCounts (displaced : Nat) (s : State) : State :=
  let d := min 0xFFFF (mramWord s 0x0DB050 / 65536 + displaced)
  mramRewrite 0x0DB050 (leBytes 4 ((histUsed s).length + 65536 * d)) s

/-- CPH.HISTORY. -/
def historyWord (s : State) : Word := BitVec.ofNat 32 (mramWord s 0x0DB050)

/-- The entry of a list with the lowest LOADSEQ. -/
def histOldest (s : State) (hs : List Nat) : Option Nat :=
  hs.foldl (fun best h =>
    match best with
    | none => some h
    | some b => if histSeq s h < histSeq s b then some h else best) none

/-- Renumber entries 0, 1, 2 and so on in their present order (12 R472). -/
def histRenumber (fuel k : Nat) (left : List Nat) (s : State) : State :=
  match fuel with
  | 0 => s
  | f + 1 =>
    match histOldest s left with
    | none => s
    | some h => histRenumber f (k + 1) (left.filter (· != h)) (mramRewrite (histAddr h + 13) (leBytes 3 k) s)

/-- The largest LOADSEQ plus one. -/
def histNext (s : State) : Nat := (histUsed s).foldl (fun n h => max n (histSeq s h + 1)) 0

/-- Write entry `h` with its mark and the next LOADSEQ. -/
def histWrite (h : Nat) (fp : List Byte) (mark : Nat) (s : State) : State :=
  let s := if 0xFFFFFF < histNext s then histRenumber 64 0 (histUsed s) s else s
  mramRewrite (histAddr h) (fp ++ leBytes 4 mark ++ [1#8] ++ leBytes 3 (histNext s)) s

/-- A load of a key into a guarded slot: its history entry and first counter value (12 R472); none while an entry is
BAD and no good entry matches (17 R613). -/
def histLoad (key : List Byte) (start : Nat) (s : State) : State × Option (Nat × Nat) :=
  let fp := fingerprint key
  let bad := histAll.filter (histBad s)
  let s := bad.foldl (fun t h => persistFault (histAddr h) t) s
  match (histUsed s).find? (fun h => mramBytes s (histAddr h) 8 == fp) with
  | some h =>
    let m := mramWord s (histAddr h + 8)
    (s |> histWrite h fp m |> histCounts 0, some (h, max start m))
  | none =>
    if !bad.isEmpty then (s, none)
    else match histAll.find? (fun h => !(histValid s h)) with
    | some h => (s |> histWrite h fp start |> histCounts 0, some (h, start))
    | none =>
      let inSlot := fun (h : Nat) => s.cipher.slots.any (fun k => match k with
        | some k => k.node.isNone && k.hist == h
        | none => false)
      match histOldest s (histAll.filter (fun h => !(inSlot h))) with
      | none => (s, none)
      | some h => (s |> histWrite h fp start |> histCounts 1, some (h, start))

/-- DROP_BAD removes the BAD entries (17 R613). -/
def histDropBad (s : State) : State :=
  ((histAll.filter (histBad s)).foldl (fun t h => mramRewrite (histAddr h) (List.replicate 16 0#8) t) s) |> histCounts 0

/-! ## The node key store (12 R473 to R475) -/

/-- A key store entry as read. -/
structure NodeEntry where
  addr : Nat
  size : Nat
  last : Nat
  fp : List Byte
  key : List Byte

/-- Address of key store entry `n`. -/
def storeAddr (n : Nat) : Nat := 0x0D0000 + 64 * n

/-- ADDR of entry `n`; 0 is empty. -/
def storeNodeAddr (s : State) (n : Nat) : Nat := leNat (mramBytes s (storeAddr n) 2)

/-- The MAC of an entry's first 56 bytes (12 R473). -/
def storeMac (n : Nat) (body : List Byte) : List Byte := (cmac (derivedKey 2) (body ++ leBytes 2 n)).take 8

/-- Entry `n`, if it is not empty and passes its MAC and holds no uncorrectable word (12 R475). -/
def nodeEntry (s : State) (n : Nat) : Option NodeEntry :=
  let raw := mramBytes s (storeAddr n) 64
  let size := (raw.getD 2 0#8).toNat
  if storeNodeAddr s n = 0 ∨ mramRangePoison s (storeAddr n) 64 ∨ raw.getD 3 0#8 ≠ 1#8 ∨ ¬(size = 0 ∨ size = 2)
      ∨ storeMac n (raw.take 56) ≠ raw.drop 56 then none
  else (keyUnwrap (derivedKey 1) ((raw.drop 16).take (24 + 8 * size))).map (fun key =>
    { addr := storeNodeAddr s n, size := size, last := leNat ((raw.drop 4).take 4), fp := (raw.drop 8).take 8, key := key })

/-- CPH.NODES.COUNT: non-empty entries; one that cannot be used is treated as empty (12 R475). -/
def nodesCount (s : State) : Nat := ((List.range 512).filter (fun n => (nodeEntry s n).isSome)).length

/-- A read of entry `n` reports one that is not empty and cannot be used (12 R475, 17 R613). -/
def nodeCheck (n : Nat) (s : State) : State :=
  if storeNodeAddr s n = 0 ∧ ¬(mramRangePoison s (storeAddr n) 64) then s
  else if (nodeEntry s n).isSome then s
  else
    let s := if mramRangePoison s (storeAddr n) 64 then persistFault (storeAddr n) s else s
    raiseFault 0x0A 0 n s

/-- Write entry `n` (12 R473). -/
def nodeWrite (n : Nat) (e : NodeEntry) (s : State) : State :=
  let body := leBytes 2 e.addr ++ [BitVec.ofNat 8 e.size, 1#8] ++ leBytes 4 e.last ++ e.fp
    ++ padTo 40 (keyWrap (derivedKey 1) e.key)
  mramRewrite (storeAddr n) (body ++ storeMac n body) s

/-- The node whose entry holds an address (12 R473); 0x0000 and 0xFFFF name none. -/
def nodeOf (s : State) (addr : Nat) : Option Nat :=
  if addr = 0 ∨ addr = 0xFFFF then none
  else (List.range 512).find? (fun n => storeNodeAddr s n == addr && (nodeEntry s n).isSome)

/-- The next outbound counter value of a node (12 R471, R475): it resumes at its mark; an uncorrectable mark makes it
EXHAUSTED (17 R613). -/
def nodeCounter (s : State) (n : Nat) : Nat :=
  if mramRangePoison s (nodeMarkAddr n) 4 then ctrEnd
  else keyGet s.cipher.nodeCtr n (mramWord s (nodeMarkAddr n))

/-- The cache slots (12 R468). -/
def cacheSlots : List Nat := [20, 21, 22, 23, 24, 25, 26, 27]

/-- Whether a job runs on slot `i`. -/
def slotRunning (s : State) (i : Nat) : Bool :=
  s.cipher.jobs.any (fun j => j.slot == i && j.kind == .cipher && j.phase != .waiting)

/-- The cache slot that holds node `n`, else the one used least recently with no job running (12 R475). -/
def cacheSlotFor (s : State) (n : Nat) : Nat :=
  match cacheSlots.find? (fun i => ((slotAt s i).bind (·.node)) == some n) with
  | some i => i
  | none =>
    let used := fun (i : Nat) => match slotAt s i with
      | some k => k.used + 1
      | none => 0
    (cacheSlots.filter (fun i => !(slotRunning s i))).foldl (fun b i => if used i < used b then i else b) 20

/-- Mark slot `i` used now. -/
def touchSlot (i : Nat) (s : State) : State :=
  match slotAt s i with
  | none => s
  | some k =>
    let n := s.cipher.useSeq + 1
    s |> setSlot i (some { k with used := n }) |> (fun t => setCipher { t.cipher with useSeq := n } t)

/-- Node `n`'s key is unwrapped into the cache (12 R475), for CCM (R464) from masons 0 and 3 (R468). -/
def cacheNode (n : Nat) (e : NodeEntry) (s : State) : State × Nat :=
  let i := cacheSlotFor s n
  let k : KeySlot :=
    { size := e.size, modes := 8, users := 0x12, key := e.key, ctr := nodeCounter s n, hist := 64, node := some n,
      used := 0 }
  (s |> setSlot i (some k) |> touchSlot i, i)

/-- Node `n` leaves the cache and its volatile counter is dropped. -/
def dropNode (n : Nat) (s : State) : State :=
  setCipher { s.cipher with
    slots := s.cipher.slots.map (fun k => if (k.bind (·.node)) == some n then none else k)
    nodeCtr := keyErase s.cipher.nodeCtr n } s

/-- Every node in the cache goes on at its volatile counter, else at its mark (12 R485, 16 R595, R597). -/
def resumeCached (s : State) : State :=
  setCipher { s.cipher with slots := s.cipher.slots.map (fun k => match k with
    | some c => some (match c.node with
      | some n => { c with ctr := nodeCounter s n }
      | none => c)
    | none => none) } s

/-- L of node `n` advances: written to MRAM (12 R473, 11 R440). -/
def nodeAdvance (n last : Nat) (s : State) : State :=
  match nodeEntry s n with
  | none => s
  | some e => nodeWrite n { e with last := last } s

end Sys2Proof.Machine
end

