-- ==== Sys2Proof/Machine/Integrity.lean ====
section
/-!
DEFINITION. Sys2Proof/Machine/Integrity.lean: scrubbing, telemetry, temperatures, and the doors of ITG (17).
-/
namespace Sys2Proof.Machine

/-! ## Device faults and power as registers show them -/

/-- ITG.FAULT_MAP0 and FAULT_MAP1 (17 R619): `hi` for pages 32 and up. -/
def faultMap (s : State) (hi : Bool) : Word :=
  let base := if hi then 32 else 0
  BitVec.ofNat 32 ((List.range 32).foldl (fun n k =>
    if inDirectory (base + k) && getReg s (pageReg (base + k) 8) != 0#32 then n + 2 ^ k else n) 0)

/-- PWR.DOMAINS (15): DEP, REQ and ON. -/
def domainsWord (s : State) : Word :=
  fieldWord 29 20 (s.power.on &&& ~~~s.power.req).toNat ||| fieldWord 19 10 s.power.req.toNat
    ||| fieldWord 9 0 s.power.on.toNat

/-! ## Scrubbing (17 R608 to R612) -/

/-- Words of a Mortar bank, and of MRAM. -/
def bankWords : Nat := 131072

/-- A word that a scrub step found uncorrectable, or corrected (17 R609, R610). -/
def scrubFound (mram : Bool) (w found : Nat) (s : State) : State :=
  match found with
  | 1 => if mram then countReg Reg.itgMramCorrected 1 s else countReg Reg.itgMortarCorrected 1 s
  | 2 => if mram then markMramPoison w s else markPoison w s
  | _ => s

/-- The next scrub position and whether the sweep is complete. -/
def scrubNext (n : Nat) : Nat × Bool := if n + 1 < bankWords then (n + 1, false) else (0, true)

/-- Replace the background work. -/
def setWork (b : Background) (s : State) : State := { s with work := b }

/-- `us` µs have passed since an instant of background work, if there was one. -/
def workDue (s : State) (last : Option Nat) (us : Nat) : Bool :=
  match last with
  | some t => passedUs s t us
  | none => true

/-- The next word of MRAM is due: 27.4 ms after the last, a sweep 3,600 s after the last began (17 R611). -/
def mramDue (s : State) : Bool :=
  workDue s s.work.scrubAtMram 27400 && (s.mem.scrubMram != 0 || workDue s s.work.sweepAt 3600000000)

/-- SCRUB (17 R611, R612): the next word of bank 0 or bank 1, one every 61 µs, or of MRAM is read, corrected and written back;
`found` says what the code met there: 0 nothing, 1 one symbol, 2 two or more. An injected error is met as it lies. -/
def execScrub (memory : Fin 3) (found : Fin 3) (s : State) : Out :=
  .next (
    if !(live s) then s
    else if memory = 2 then
      let w := s.mem.scrubMram
      if !(mramDue s) then s else
      let s := setWork { s.work with scrubAtMram := some s.now, sweepAt := if w = 0 then some s.now else s.work.sweepAt } s
      let s := if s.mem.mramPoison.contains w then s else scrubFound true w found.val s
      let s := setMem { s.mem with scrubMram := (scrubNext w).1 } s
      if (scrubNext w).2 then countReg Reg.itgMramSweeps 1 s else s
    else
      let one := memory == 1
      if (one && !(domainOn s 8)) || bankBusy s (if one then 0x100000 else 0)
          || !(workDue s (if one then s.work.scrubAt1 else s.work.scrubAt0) 61) then s
      else
        let s := setWork (if one then { s.work with scrubAt1 := some s.now } else { s.work with scrubAt0 := some s.now }) s
        let n := if one then s.mem.scrub1 else s.mem.scrub0
        let w := if one then bankWords + n else n
        let s := if isPoison s w then s
          else if keyGet s.mem.symErr w 0 ≠ 0 then settleWord w s
          else scrubFound false w found.val s
        let s := setMem (if one then { s.mem with scrub1 := (scrubNext n).1 } else { s.mem with scrub0 := (scrubNext n).1 }) s
        if (scrubNext n).2 then countReg Reg.itgMortarSweeps 1 s else s)

/-- ITG.SCRUB (17): progress in percent, Mortar by bank 0. -/
def scrubWord (s : State) : Word :=
  fieldWord 31 24 (s.mem.scrub0 * 100 / bankWords) ||| fieldWord 23 16 (s.mem.scrubMram * 100 / bankWords)

/-! ## Temperatures (17 R616, R621) -/

/-- The domain in which a sensor lies (17 R616). -/
def sensorDomain (i : Nat) : Nat := [1, 2, 3, 4, 6, 7].getD i 1

/-- A temperature as a sensor byte, saturated. -/
def tempByte (t : Int) : Nat := intField 8 (max (-127) (min 127 t))

/-- The byte of sensor `i`: 0x80 while its domain is off. -/
def sensorByte (s : State) (sensors : List Int) (i : Nat) : Nat :=
  if domainOn s (sensorDomain i) then tempByte (sensors.getD i 0) else 0x80

/-- HOTTEST of the sensors that are on. -/
def hottestOf (s : State) (sensors : List Int) : Int :=
  (List.range 6).foldl (fun h i => if domainOn s (sensorDomain i) then max h (sensors.getD i 0) else h) (-127)

/-- HOTTEST as ITG.TEMP1 shows it. -/
def hottestShown (s : State) : Int := (BitVec.ofNat 8 (regBits s Reg.itgTemp1 15 8)).toInt

/-- TEMP_HIGH is live (17 R621): -128 is a byte that stands for no sensor. -/
def tempHighLive (s : State) : Bool :=
  -127 ≤ hottestShown s && (regBits s Reg.itgCtrl 7 0 : Nat) ≤ hottestShown s

/-- Since when each sensor that is on has read 130 °C or more (17 R621). -/
def hotAfter (s : State) (sensors : List Int) : List (Option Nat) :=
  (List.range 6).map (fun i =>
    if domainOn s (sensorDomain i) && 130 ≤ sensors.getD i 0 then some ((s.work.hotAt.getD i none).getD s.now) else none)

/-- The sensors are read: ITG.TEMP0 and TEMP1; TEMP_HIGH is set when HOTTEST rises to the alarm (17 R621, R623). -/
def setTemps (sensors : List Int) (s : State) : State :=
  let was := tempHighLive s
  let s := setWork { s.work with hotAt := hotAfter s sensors } s
  let b := fun (i : Nat) => sensorByte s sensors i
  let s := s |> setReg Reg.itgTemp0 (fieldWord 31 24 (b 0) ||| fieldWord 23 16 (b 1) ||| fieldWord 15 8 (b 2) ||| fieldWord 7 0 (b 3))
    |> setReg Reg.itgTemp1 (fieldWord 31 24 (b 4) ||| fieldWord 23 16 (b 5) ||| fieldWord 15 8 (tempByte (hottestOf s sensors)))
  if tempHighLive s && !was then raiseEvent 0x0D 0 s else s

/-- TEMP_HIGH (17 R621). -/
def execTempHigh (sensors : List Int) (s : State) : Out := .next (if live s then setTemps sensors s else s)

/-- The first sensor that has read 130 °C or more for 1 ms (17 R621). -/
def overhot (s : State) : Option Nat :=
  (List.range 6).find? (fun i => match s.work.hotAt.getD i none with
    | some t => passedMs s t 1
    | none => false)

/-- OVERTEMP (17 R621): the sensors are read; one that has read 130 °C or more for 1 ms raises the fault, and the field enters
THERMAL_OFF. -/
def execOvertemp (sensors : List Int) (s : State) : Out :=
  .next (if !(live s) then s
    else
      let s := setTemps sensors s
      match overhot s with
      | none => s
      | some i =>
        let s := raiseFault 0x0D 3 i s
        if domainOn s 3 && fieldState s != Fs.thermalOff then s |> thermalOff (hottestOf s sensors) |> thermalEndsJob |> updateClips
        else s)

/-! ## Telemetry (17 R617, R618) -/

/-- The supplies are measured: PWR.SUPPLY, the ports' CLIP (05 R194), and SUPPLY_LOW when VSUP falls below 3.0 V (15
R582). -/
def setSupply (w : Word) (s : State) : State :=
  let s := setReg Reg.pwrSupply (w &&& (maskOf 31 8 ||| 1#32)) s
  let low := bitsOf w 31 24 < 120
  let was := s.power.supplyLow
  let s := { s with power := { s.power with supplyLow := low } }
  let s := if low && !was then raiseEvent 0x06 4 s else s
  if domainOn s 3 then updateClips s else s

/-- SUPPLY_LOW (15 R582): VSUP is measured, in 25 mV. -/
def execSupplyLow (vsup : Byte) (s : State) : Out :=
  .next (if live s then setSupply (withBits (getReg s Reg.pwrSupply) 31 24 vsup.toNat) s else s)

/-- The lesser headroom of two. -/
def lessRoom (a b : Nat × Nat) : Nat × Nat := if b.1 < a.1 then b else a

/-- Words 16 and 17 (17 R617): the least headroom over READY guarded slots and non-empty nodes, and whose it is. -/
def headroom (s : State) : Nat × Nat :=
  let slots := (List.range 28).foldl (fun best i =>
    match slotAt s i with
    | none => best
    | some k => if k.ctr = ctrEnd then best else lessRoom best (ctrEnd - k.ctr, i)) (ctrEnd, 0)
  (List.range 512).foldl (fun best n =>
    if (nodeEntry s n).isNone then best else lessRoom best (ctrEnd - nodeCounter s n, 2 ^ 31 + n)) slots

/-- HIGH of a queue, 0 while its domain is off. -/
def queueHigh (s : State) (pop : Nat) : Nat := if pageUp s (pop / 256) then (queueAt s pop).high else 0

/-- The queues of telemetry words 18 to 23 in order (17 R617). -/
def telemQueues : List Nat :=
  [Reg.proQPop, Reg.invQPop, 0x181C, 0x191C, 0x1A1C, 0x1B1C, Reg.bdaQPop, Reg.bdaSubQPop, Reg.ccdQPop, Reg.vlqQPop,
   Reg.cphQPop]

/-- The six counters of ITG 0x20 to 0x25. -/
def telemCounters (s : State) : List Word := (List.range 6).map (fun i => getReg s (Reg.itgMortarCorrected + i))

/-- A telemetry record (17 R617). -/
def telemRecord (s : State) (seq : Word) (vpa : Byte) : List Word :=
  let q := fun (i : Nat) => queueHigh s (telemQueues.getD i 0)
  let room := headroom s
  [seq, BitVec.ofNat 32 (mono s), BitVec.ofNat 32 (rtcCount s / 32768), BitVec.ofNat 32 (rtcCount s % 32768),
   getReg s Reg.itgTemp0, getReg s Reg.itgTemp1, getReg s Reg.pwrSupply,
   if domainOn s 7 then BitVec.ofNat 32 vpa.toNat else 0#32,
   if domainOn s 3 then getReg s Reg.fldLimitStatus else 0#32, domainsWord s]
    ++ (telemCounters s).zipWith (fun now old => now - old) s.telemPrev
    ++ [BitVec.ofNat 32 room.1, BitVec.ofNat 32 room.2]
    ++ (List.range 6).map (fun i => fieldWord 15 0 (q (2 * i)) ||| fieldWord 31 16 (if i < 5 then q (2 * i + 1) else 0))
    ++ [faultMap s false, faultMap s true, 0#32, 0#32, 0#32, 0#32, 0#32, seq]

/-- The 100 ms of CLK.MONO time that run (17 R617). -/
def telemTick (s : State) : Nat := (s.now - s.rtc.monoNow) / 1356000

/-- TELEMETRY (17 R617, R618): the sensors and supplies are read and, once every 100 ms while TELEM_EN is 1, a record is
written to the ring and mirrored in ITG.TELEM. -/
def execTelemetry (sensors : List Int) (vpa : Byte) (supply : Word) (s : State) : Out :=
  .next (if !(live s) then s
    else
      let s := s |> setTemps sensors |> setSupply supply
      if !(regBit s Reg.itgCtrl 31) || s.work.telemTick == telemTick s then s
      else
        let s := setWork { s.work with telemTick := telemTick s } s
        let seq := getReg s Reg.itgRingSeq + 1#32
        let words := telemRecord s seq vpa
        let s := s |> engineWrite (0x0E0000 + 128 * (seq.toNat % 128)) (wordsBytes words)
        let s := (List.range 32).foldl (fun t i => setReg (Reg.itgTelem + i) (words.getD i 0#32) t) s
        { s with telemPrev := telemCounters s } |> setReg Reg.itgRingSeq seq |> raiseEvent 0x0D 1)

/-! ## The doors of ITG (17 R613, R622) -/

/-- The word at ITG.TARGET. -/
def targetWord (s : State) : Nat := regBits s Reg.itgTarget 20 0 / 8

/-- ITG.TARGET lies in bank 1 while PD8 is off. -/
def targetOff (s : State) : Bool := bankOff s (8 * targetWord s)

/-- INJECT and ZERO need open programming (17 R622, 14 R546). -/
def openRefusal (s : State) : Bool × Nat := (!(openAllowed s), 0x40)

/-- ITG door command INJECT (17 R622): data symbols of the target word are inverted. -/
def doorInject (req : Requester) (word : Word) (s : State) : State :=
  let arg := bitsOf word 15 0
  doorWrite req 0x0D word (firstRefusal [openRefusal s, (!(arg == 1 || arg == 2) || targetOff s, Oc.badArg)]) none
    (fun id _ t =>
      let w := targetWord t
      let mask := if arg = 1 then 1 else 3
      let t := if isPoison t w then t
        else
          let next := Nat.xor (keyGet t.mem.symErr w 0) mask
          setMem { t.mem with
            mortar := flipSymbols t.mem.mortar w mask
            symErr := if next = 0 then keyErase t.mem.symErr w else keySet t.mem.symErr w next } t
      finishCmd id Oc.done t) s

/-- INJECT. -/
def execInject (req : Requester) (tag : Byte) (arg : BitVec 16) (s : State) : Out :=
  .next (doorIssue 0x0D doorInject req (doorWord tag 0x10 arg) s)

/-- ITG door command ZERO (17 R622). -/
def doorZero (req : Requester) (word : Word) (s : State) : State :=
  doorWrite req 0x0D word (firstRefusal [openRefusal s, (bitsOf word 15 0 != 0 || targetOff s, Oc.badArg)]) none
    (fun id _ t => t |> engineWrite (8 * targetWord t) (List.replicate 8 0#8) |> finishCmd id Oc.done) s

/-- ZERO. -/
def execZero (req : Requester) (tag : Byte) (arg : BitVec 16) (s : State) : Out :=
  .next (doorIssue 0x0D doorZero req (doorWord tag 0x11 arg) s)

/-- ITG door command DROP_BAD (17 R613, R622). -/
def doorDropBad (req : Requester) (word : Word) (s : State) : State :=
  doorWrite req 0x0D word (firstRefusal [(bitsOf word 15 0 != 0, Oc.badArg)]) none
    (fun id _ t => t |> histDropBad |> finishCmd id Oc.done) s

/-- DROP_BAD. -/
def execDropBad (req : Requester) (tag : Byte) (arg : BitVec 16) (s : State) : Out :=
  .next (doorIssue 0x0D doorDropBad req (doorWord tag 0x12 arg) s)

end Sys2Proof.Machine
end

