-- ==== Sys2Proof/Machine/Cipher.lean ====
section
/-!
DEFINITION. Sys2Proof/Machine/Cipher.lean: the cipher job table: CIPHER, KEY_LOAD and KEY_CLEAR at the door, the start of
a job with its slot checks, what a job computes, and how entries of the table end (12 R460 to R470, 01 R44 to R48).
-/
namespace Sys2Proof.Machine

/-! ## Descriptors (12 R460, R469) -/

/-- A little-endian field of a descriptor. -/
def leField (d : List Byte) (at_ n : Nat) : Nat := leNat ((d.drop at_).take n)

/-- Whether `n` bytes of a descriptor from `at_` on are 0. -/
def zeroField (d : List Byte) (at_ n : Nat) : Bool := ((d.drop at_).take n).all (· == 0#8)

/-- Record STATUS codes (12 R461). -/
abbrev Cs.ok : Nat := 0
abbrev Cs.tagFail : Nat := 1
abbrev Cs.keyExhausted : Nat := 2
abbrev Cs.slotEmpty : Nat := 3
abbrev Cs.slotLocked : Nat := 4
abbrev Cs.modeRefused : Nat := 5
abbrev Cs.notPermitted : Nat := 6
abbrev Cs.poison : Nat := 7
abbrev Cs.domainOff : Nat := 8
abbrev Cs.pageReset : Nat := 9

/-- Fields of a cipher descriptor. -/
def CipherJob.mode (j : CipherJob) : Nat := leField j.desc 0 1
def CipherJob.decrypt (j : CipherJob) : Bool := leField j.desc 1 1 % 2 == 1
def CipherJob.explicit (j : CipherJob) : Bool := leField j.desc 1 1 / 2 % 2 == 1
def CipherJob.tagLen (j : CipherJob) : Nat := leField j.desc 3 1
def CipherJob.dataBlocks (j : CipherJob) : Nat := leField j.desc 36 2
def CipherJob.aadBlocks (j : CipherJob) : Nat := leField j.desc 38 2
def CipherJob.src (j : CipherJob) : Nat := leField j.desc 24 4
def CipherJob.dst (j : CipherJob) : Nat := leField j.desc 28 4
def CipherJob.aad (j : CipherJob) : Nat := leField j.desc 20 4
def CipherJob.tagAddr (j : CipherJob) : Nat := leField j.desc 32 4

/-- Blocks a job has processed when it finishes: associated data and data. -/
def CipherJob.blocks (j : CipherJob) : Nat := j.aadBlocks + j.dataBlocks

/-- Bytes meant by a number of blocks and the valid bytes of the last (12 R459). -/
def validBytes (blocks last : Nat) : Nat :=
  if blocks = 0 then 0 else 16 * (blocks - 1) + (if last = 0 then 16 else last)

/-- Length in bytes of a job's destination: none for CMAC. -/
def CipherJob.destLen (j : CipherJob) : Nat := if j.kind = .cipher ∧ j.mode ≠ 6 then 16 * j.dataBlocks else 0

/-- Whether an address field is a multiple of 16, leaves its blocks within Mortar, and avoids bank 1 while PD8 is off
(12 R460). -/
def cipherAddrBad (s : State) (a blocks : Nat) : Bool :=
  a % 16 != 0 || mortarEnd ≤ a || mortarEnd < a + 16 * blocks ||
    (!(domainOn s 8) && (0x100000 ≤ a || 0x100000 < a + 16 * blocks))

/-- Whether a descriptor's own bytes lie in a bank that is off (12 R460). -/
def descOff (s : State) (a n : Nat) : Bool := !(domainOn s 8) && 0x100000 < a + n

/-- Number of nonce bytes of FIXED a mode uses (12 R462). -/
def fixedUsed (mode : Nat) : Nat := if mode = 4 then 9 else if mode = 2 ∨ mode = 3 ∨ mode = 5 then 8 else 0

/-- Whether TAG_LEN suits the mode (12 R460). -/
def tagLenOk (mode n : Nat) : Bool :=
  if mode = 4 then 4 ≤ n && n ≤ 16 && n % 2 == 0
  else if mode = 5 then 12 ≤ n && n ≤ 16
  else if mode = 6 then 4 ≤ n && n ≤ 16
  else n == 0

/-- Whether a CIPHER descriptor is BAD_ARG (12 R460). -/
def cipherBad (s : State) (j : CipherJob) : Bool :=
  let d := j.desc
  let sealing := j.mode == 4 || j.mode == 5
  !(1 ≤ j.mode && j.mode ≤ 6) || 4 ≤ leField d 1 1 || 32 ≤ leField d 2 1 || !(tagLenOk j.mode j.tagLen)
    || (!j.explicit && !(zeroField d 4 4))
    || !(zeroField d (8 + fixedUsed j.mode) (9 - fixedUsed j.mode))
    || 16 ≤ leField d 17 1 || 16 ≤ leField d 18 1 || (!sealing && leField d 18 1 != 0) || leField d 19 1 != 0
    || !(zeroField d 40 8)
    || 4096 < j.dataBlocks || 4096 < j.aadBlocks || (!sealing && j.aadBlocks != 0)
    || (j.mode == 4 && 65535 < validBytes j.dataBlocks (leField d 17 1))
    || (j.mode == 6 && j.dst != 0)
    || cipherAddrBad s j.aad j.aadBlocks || cipherAddrBad s j.src j.dataBlocks
    || cipherAddrBad s j.dst (if j.mode == 6 then 0 else j.dataBlocks) || cipherAddrBad s j.tagAddr (bit01 (4 ≤ j.mode))

/-- Whether two byte ranges overlap. -/
def rangesMeet (a n b m : Nat) : Bool := 0 < n && 0 < m && a < b + m && b < a + n

/-- CPH.JOBS: free entries and the ticket of the job in the engine, masons before the host (01 R45). -/
def isMason (r : Requester) : Bool :=
  match r with
  | .mason _ => true
  | _ => false

/-- The started cipher job of a class (01 R45: masons 0 to 4, or the host with the lintel link). -/
def runningJob (s : State) (host : Bool) : Option CipherJob :=
  s.cipher.jobs.find? (fun j => j.kind == .cipher && j.phase == .running && (isMason j.requester != host))

/-- CPH.JOBS. -/
def cphJobsWord (s : State) : Word :=
  let t := match runningJob s false with
    | some j => j.ticket
    | none => ((runningJob s true).map (·.ticket)).getD 0
  fieldWord 20 16 (cipherFree s) ||| fieldWord 15 0 t

/-! ## The end of entries -/

/-- Remove entry `id` from the table. -/
def cipherDrop (id : Nat) (s : State) : State :=
  let before := cipherFree s
  let s := setCipher { s.cipher with jobs := s.cipher.jobs.filter (fun j => j.id != id) } s
  jobSpaceEvent 0x0A 8 (regBits s Reg.cphWatermark 20 16) before (cipherFree s) s

/-- The record of a job (12 R461): status, counter used, provisional reads and blocks processed. -/
def cipherRecord (j : CipherJob) (status blocks : Nat) : List Word :=
  [fieldWord 31 24 0x60 ||| fieldWord 23 16 status ||| fieldWord 15 0 j.ticket, BitVec.ofNat 32 j.counter,
   fieldWord 31 16 (capAt 65535 j.provReads) ||| fieldWord 15 0 blocks]

/-- A cipher job delivers its record into its reserved entry (12 R461). -/
def cipherDeliver (j : CipherJob) (status blocks : Nat) (s : State) : State :=
  s |> queueUnreserve Reg.cphQPop 1 |> queuePush Reg.cphQPop (cipherRecord j status blocks) |> raiseEvent 0x0A 0
    |> countReg Reg.cphJobsDone 1

/-- The slot a key command loads (12 R469, R472), from the first 48 bytes of its descriptor; none when the history
refuses it (17 R613). -/
def loadSlot (j : CipherJob) (s : State) : State × Bool :=
  let size := leField j.desc 1 1
  let key := (j.desc.drop 16).take (16 + 8 * size)
  let start := leField j.desc 4 4
  let mk := fun (ctr hist : Nat) => ({ size := size, modes := leField j.desc 2 1, users := leField j.desc 3 1, key := key, ctr := ctr, hist := hist, node := none, used := 0 } : KeySlot)
  if 28 ≤ j.slot then (setSlot j.slot (some (mk start 64)) s, true)
  else match histLoad key start s with
  | (s, none) => (s, false)
  | (s, some (h, c)) =>
    let s := s |> setSlot j.slot (some (mk c h)) |> touchSlot j.slot
    (if c = ctrEnd then noteExhausted s else s, true)

/-- A key command runs and ends (12 R469, R470). An ECDH delivers its result block with it; the spec gives the words of
that block no meaning, so they are free (R482). -/
def runKeyCommand (j : CipherJob) (s : State) : State :=
  match j.kind with
  | .clear => s |> setSlot j.slot none |> cipherDrop j.id |> finishCmd j.id Oc.done
  | .load =>
    let r := loadSlot j s
    r.1 |> cipherDrop j.id |> finishCmd j.id (if r.2 then Oc.done else Oc.failed)
  | .derived =>
    let r := loadSlot j s
    let s := cipherDrop j.id r.1
    let s := if r.2 then
        s |> deliverResult { page := 0x0B, ticket := j.ticket, poison := false,
                             words := (List.range 16).map (fun i => Config.freeWord (s.freeIndex + i)) } |> useFreeN 16
      else s
    s |> raiseEvent 0x0B 0 |> finishCmd j.id (if r.2 then Oc.done else Oc.failed)
  | .cipher => s

/-- The first key command of a list with no earlier entry for its slot (12 R470). -/
def readyKeyCommand (seen : List Nat) (js : List CipherJob) : Option CipherJob :=
  match js with
  | [] => none
  | j :: t => if j.kind ≠ .cipher ∧ !(seen.contains j.slot) then some j else readyKeyCommand (j.slot :: seen) t

/-- Run every key command that may start. -/
def runKeyCommands (fuel : Nat) (s : State) : State :=
  match fuel with
  | 0 => s
  | n + 1 =>
    match readyKeyCommand [] s.cipher.jobs with
    | none => s
    | some j => runKeyCommands n (runKeyCommand j s)

/-- Key commands that an ended entry has released. -/
def keyCommandsFollow (s : State) : State := runKeyCommands 17 s

/-- A cipher job ends with a status: record, door outcome, and the key commands that waited for it (12 R461, R470). -/
def cipherEnd (j : CipherJob) (status blocks : Nat) (s : State) : State :=
  s |> cipherDrop j.id |> cipherDeliver j status blocks
    |> finishCmd j.id (if status = Cs.ok then Oc.done else Oc.failed) |> keyCommandsFollow

/-! ## The doors -/

/-- CPH door command CIPHER (12 R460). -/
def doorCipher (req : Requester) (word : Word) (s : State) : State :=
  let a := 16 * bitsOf word 15 0
  let s := if descOff s a 48 then s else settleRange a 48 s
  let d := mortarBytes s a 48
  let job : CipherJob :=
    { id := 0, ticket := 0, requester := req, kind := .cipher, slot := leField d 2 1, desc := d, phase := .waiting,
      counter := 0, provReads := 0, good := false, left := 0, startNow := 0 }
  let clash := s.cipher.jobs.any (fun j => rangesMeet j.dst j.destLen job.dst job.destLen)
  doorWrite req 0x0A word
    (firstRefusal [(descOff s a 48 || cipherBad s job, Oc.badArg), (clash, 0x42), (cipherFree s == 0, Oc.queueFull)])
    (some 0x0A) (fun id ticket t =>
      setCipher { t.cipher with jobs := t.cipher.jobs ++ [{ job with id := id, ticket := ticket }] } t) s

/-- CIPHER. -/
def execCipher (req : Requester) (tag : Byte) (arg : BitVec 16) (s : State) : Out :=
  .next (doorIssue 0x0A doorCipher req (doorWord tag 0x10 arg) s)

/-- Whether a KEY_LOAD descriptor is BAD_ARG (12 R469). -/
def keyLoadBad (d : List Byte) : Bool :=
  let slot := leField d 0 1
  let size := leField d 1 1
  let modes := leField d 2 1
  let users := leField d 3 1
  let v := leField d 4 4
  32 ≤ slot || 3 ≤ size || modes == 0 || 64 ≤ modes || users == 0 || 128 ≤ users || !(zeroField d 8 8)
    || !(zeroField d (32 + 8 * size) (16 - 8 * size)) || (slot < 28 && v == ctrEnd) || (28 ≤ slot && v == 0)

/-- Slots reserved from a requester (12 R468, 16 R587). -/
def slotReserved (s : State) (req : Requester) (slot : Nat) : Bool :=
  req != .mason 0 && ((20 ≤ slot && slot ≤ 27) || ((slot == 18 || slot == 19) && regBit s Reg.twnCtrl 31))

/-- Whether a requester may load a usage-limited slot (12 R467). -/
def limitedLoader (s : State) (req : Requester) : Bool :=
  match req with
  | .host => s.boot == .startUp
  | .mason m => m.val < 4
  | .lintel => false

/-- Add a key command to the table and run it if its slot is free of earlier jobs (12 R470). -/
def addKeyCommand (j : CipherJob) (s : State) : State :=
  s |> setCipher { s.cipher with jobs := s.cipher.jobs ++ [j] } |> keyCommandsFollow

/-- The key bytes of a descriptor read at a door are written 0, whether or not the command is accepted (12 R469). -/
def eraseKey (a : Nat) (s : State) : State :=
  if descOff s a 48 then s else engineWrite (a + 16) (List.replicate 32 0#8) s

/-- Whether a door write would be carried out at all: the page powered, the write not held, and the tag not remembered (03
R659). -/
def doorFresh (req : Requester) (p : Nat) (word : Word) (s : State) : Bool :=
  pageUp s p && !(doorWaits s p word) && (remembered s p req (bitsOf word 31 24)).isNone

/-- CPH door command KEY_LOAD (12 R467 to R470). -/
def doorKeyLoad (req : Requester) (word : Word) (s : State) : State :=
  let a := 16 * bitsOf word 15 0
  let fresh := doorFresh req 0x0A word s
  let s := if descOff s a 48 || !fresh then s else settleRange a 48 s
  let d := mortarBytes s a 48
  let slot := leField d 0 1
  let job : CipherJob :=
    { id := 0, ticket := 0, requester := req, kind := .load, slot := slot, desc := d, phase := .waiting, counter := 0,
      provReads := 0, good := false, left := 0, startNow := 0 }
  let s := if fresh then eraseKey a s else s
  doorWrite req 0x0A word
    (firstRefusal [(descOff s a 48 || keyLoadBad d, Oc.badArg), (slotReserved s req slot, 0x40),
      (28 ≤ slot && !(limitedLoader s req), 0x41), (cipherFree s == 0, Oc.queueFull)])
    none (fun id _ t => addKeyCommand { job with id := id } t) s

/-- KEY_LOAD. -/
def execKeyLoad (req : Requester) (tag : Byte) (arg : BitVec 16) (s : State) : Out :=
  .next (doorIssue 0x0A doorKeyLoad req (doorWord tag 0x11 arg) s)

/-- CPH door command KEY_CLEAR (12 R468 to R470). -/
def doorKeyClear (req : Requester) (word : Word) (s : State) : State :=
  let slot := bitsOf word 4 0
  doorWrite req 0x0A word
    (firstRefusal [(bitsOf word 15 5 != 0, Oc.badArg), (slotReserved s req slot, 0x40),
      (cipherFree s == 0, Oc.queueFull)])
    none (fun id _ t => addKeyCommand
      { id := id, ticket := 0, requester := req, kind := .clear, slot := slot, desc := [], phase := .waiting,
        counter := 0, provReads := 0, good := false, left := 0, startNow := 0 } t) s

/-- KEY_CLEAR. -/
def execKeyClear (req : Requester) (tag : Byte) (arg : BitVec 16) (s : State) : Out :=
  .next (doorIssue 0x0A doorKeyClear req (doorWord tag 0x12 arg) s)

/-! ## The start of a job (12 R461 to R467) -/

/-- The status of a job's start checks, in the order of R461. -/
def startChecks (s : State) (j : CipherJob) : Nat :=
  match slotAt s j.slot with
  | none => Cs.slotEmpty
  | some k =>
    let cached := 20 ≤ j.slot && j.slot ≤ 27
    if (k.users / 2 ^ Requester.code j.requester) % 2 = 0
        ∨ (cached && j.requester != .mason 0 && j.requester != .mason 3) then Cs.notPermitted
    else if (k.modes / 2 ^ (j.mode - 1)) % 2 = 0 ∨ (j.slot < 28 ∧ (j.mode = 1 ∨ (j.explicit && !j.decrypt)))
        ∨ (28 ≤ j.slot ∧ 2 ≤ j.mode ∧ j.mode ≤ 5 ∧ !j.explicit) then Cs.modeRefused
    else if slotState s j.slot = 3 then Cs.slotLocked
    else if slotState s j.slot = 2 then Cs.keyExhausted
    else Cs.ok

/-- Use the slot (12 R463, R465, R467): a use of slots 28 to 31; the message counter, if the mode has one. -/
def useSlot (j : CipherJob) (s : State) : State × Option Nat :=
  let s := touchSlot j.slot s
  let s := if 28 ≤ j.slot then
      match slotAt s j.slot with
      | none => s
      | some k => setSlot j.slot (some { k with ctr := k.ctr - 1 }) s
    else s
  if j.mode = 1 ∨ j.mode = 6 then (s, some 0)
  else if j.explicit then (s, some (leField j.desc 4 4))
  else takeCounter j.slot s

/-- Replace an entry of the table. -/
def setJob (j : CipherJob) (s : State) : State :=
  setCipher { s.cipher with jobs := s.cipher.jobs.map (fun k => if k.id = j.id then j else k) } s

/-- A job starts (12 R461): its checks, its counter value; a job that fails them ends. -/
def startCipher (j : CipherJob) (s : State) : State :=
  let s := queueReserve Reg.cphQPop 1 s
  let st := startChecks s j
  if st ≠ Cs.ok then cipherEnd j st 0 s
  else match useSlot j s with
  | (s, none) => cipherEnd j Cs.keyExhausted 0 s
  | (s, some c) => setJob { j with phase := .running, counter := c, left := j.blocks, startNow := s.now } s

/-- The waiting job at the head of a class, unless an earlier key command names its slot (12 R461, R470). -/
def headJob (js : List CipherJob) (host : Bool) (keys : List Nat) : Option CipherJob :=
  match js with
  | [] => none
  | j :: t =>
    if j.kind ≠ .cipher then headJob t host (j.slot :: keys)
    else if isMason j.requester = host ∨ j.phase ≠ .waiting then headJob t host keys
    else if keys.contains j.slot then none
    else some j

/-- Cycles of a block by the slot's key size, twice as many for the two passes of CCM (12 R458). -/
def blockCost (s : State) (j : CipherJob) : Nat :=
  (11 + 2 * ((slotAt s j.slot).map (·.size)).getD 0) * (if j.mode = 4 then 2 else 1)

/-- The engine has had the cycles of a job since it started, 40 of setup and those of each block (12 R458), at 8 a carrier
cycle. -/
def jobTimed (s : State) (j : CipherJob) : Bool := 40 + j.blocks * blockCost s j ≤ 8 * (s.now - j.startNow)

/-! ## The classes of the engine (01 R44 to R47) -/

/-- The job that would start next in a class: none while one of it is running. -/
def startable (s : State) (host : Bool) : Option CipherJob :=
  match runningJob s host with
  | some _ => none
  | none => if 1 ≤ queueFree s Reg.cphQPop then headJob s.cipher.jobs host [] else none

/-- Host blocks served while `n` blocks of higher classes are processed: one after every 15 in a row (01 R47). -/
def hostTurns (s : State) (n : Nat) : Nat := (s.cipher.gap + n - 1) / 15

/-- The engine processes `n` blocks of higher classes while a host job waits or not. -/
def higherBlocks (n : Nat) (s : State) : State :=
  match runningJob s true with
  | some h =>
    let k := hostTurns s n
    s |> setJob { h with left := h.left - k }
      |> (fun t => setCipher { t.cipher with gap := if h.left ≤ k then 0 else s.cipher.gap + n - 15 * k } t)
  | none =>
    setCipher { s.cipher with gap := if (startable s true).isSome then capAt 15 (s.cipher.gap + n) else 0 } s

/-- With a job of each class in the engine, whether the host's finishes before `m`, that of a mason. -/
def hostFirst (s : State) (m h : CipherJob) : Bool := h.left ≤ hostTurns s m.left

/-- Whether the running job `j` of a class is the next to finish: masons before the host, but for the host's blocks of R47. -/
def finishesNext (s : State) (host : Bool) (j : CipherJob) : Bool :=
  if host then match runningJob s false with
    | some m => hostFirst s m j
    | none => (startable s false).isNone
  else match runningJob s true with
    | some h => !(hostFirst s j h)
    | none => (startable s true).isNone || s.cipher.gap + j.left ≤ 15

/-- The blocks the engine has processed when the running job `j` of a class finishes. -/
def blocksDone (host : Bool) (j : CipherJob) (s : State) : State :=
  if host then match runningJob s false with
    | some m => s |> setJob { m with left := m.left - (15 * j.left - s.cipher.gap) }
        |> (fun t => setCipher { t.cipher with gap := 0 } t)
    | none => setCipher { s.cipher with gap := 0 } s
  else higherBlocks j.left s

/-- CIPHER_JOB_START (12 R461, 01 R45): the head of the class starts once the one before it has no work left and the queue
has an entry for it; one of the host not before one of a mason that can start. -/
def execCipherJobStart (host : Bool) (s : State) : Out :=
  .next (match startable s host with
    | some j =>
      if domainOn s 2 && !(testRuns s 0x0A) && !(host && (startable s false).isSome) then startCipher j s else s
    | none => s)

/-! ## What a job computes (12 R458, R459, R462) -/

/-- What a finished job leaves: whether an input was poisoned, the blocks processed, the output blocks, the tag computed, and
whether the tag given verified. -/
structure CipherOutput where
  poison : Bool
  blocks : Nat
  out : List Byte
  tag : List Byte
  good : Bool

/-- The nonce prefix: FIXED as the mode uses it, then the counter big-endian (12 R462). -/
def nonceOf (j : CipherJob) : List Byte := (j.desc.drop 8).take (fixedUsed j.mode) ++ beBytes 4 j.counter

/-- The job's output blocks and tag from its inputs. -/
def cipherCompute (j : CipherJob) (key : List Byte) (data aad : List Byte) : List Byte × List Byte :=
  let n := validBytes j.dataBlocks (leField j.desc 17 1)
  let x := data.take n
  let pad := fun (o : List Byte) => padTo (16 * j.dataBlocks) o
  let ks := roundKeys key
  match j.mode with
  | 1 => (if j.decrypt then ecbDec key data else ecbEnc key data, [])
  | 2 => (pad (xorBytes x (ctrStream ks (nonceOf j) 4 0 j.dataBlocks)), [])
  | 3 =>
    let iv := aesEncKeys ks (nonceOf j ++ List.replicate 4 0#8)
    (if j.decrypt then cbcDecFrom ks iv (blocksOf data) else cbcEncFrom ks iv (blocksOf data), [])
  | 4 =>
    let r := ccm j.decrypt key (nonceOf j) j.tagLen (aad.take (validBytes j.aadBlocks (leField j.desc 18 1))) x
    (pad r.1, r.2)
  | 5 =>
    let r := gcm j.decrypt key (nonceOf j) (aad.take (validBytes j.aadBlocks (leField j.desc 18 1))) x
    (pad r.1, r.2.take j.tagLen)
  | _ => ([], (cmac key x).take j.tagLen)

/-- Read the inputs of a job, meeting the symbol code (17 R608). -/
def settleJob (j : CipherJob) (s : State) : State :=
  s |> settleRange j.aad (16 * j.aadBlocks) |> settleRange j.src (16 * j.dataBlocks)
    |> (fun t => if j.decrypt && 4 ≤ j.mode then settleRange j.tagAddr 16 t else t)

/-- An input of the job lies in a bank that is being re-initialised (01 R30). -/
def jobHeld (s : State) (j : CipherJob) : Bool :=
  rangeBusy s j.aad (16 * j.aadBlocks) || rangeBusy s j.src (16 * j.dataBlocks)
    || (j.decrypt && 4 ≤ j.mode && rangeBusy s j.tagAddr 16)

/-- Blocks of a range before the first that holds a poisoned word. -/
def cleanBlocks (s : State) (a n : Nat) : Nat := ((List.range n).takeWhile (fun i => !(rangePoison s (a + 16 * i) 16))).length

/-- Blocks a job processes before it meets a poisoned word (12 R461): associated data, then data. -/
def blocksMet (s : State) (j : CipherJob) : Nat :=
  let a := cleanBlocks s j.aad j.aadBlocks
  if a < j.aadBlocks then a else a + cleanBlocks s j.src j.dataBlocks

/-- What the job computes in a state whose inputs are settled. -/
def cipherOutput (s : State) (j : CipherJob) : CipherOutput :=
  let verify := j.decrypt && 4 ≤ j.mode
  let poison := rangePoison s j.aad (16 * j.aadBlocks) && 0 < j.aadBlocks
    || rangePoison s j.src (16 * j.dataBlocks) && 0 < j.dataBlocks || (verify && rangePoison s j.tagAddr 16)
  let key := ((slotAt s j.slot).map (·.key)).getD []
  let r := cipherCompute j key (mortarBytes s j.src (16 * j.dataBlocks)) (mortarBytes s j.aad (16 * j.aadBlocks))
  { poison := poison, blocks := if poison then blocksMet s j else j.blocks, out := r.1, tag := r.2,
    good := !verify || r.2 == (mortarBytes s j.tagAddr 16).take j.tagLen }

/-- Fill a job's destination with zeros (12 R461, R477). -/
def zeroDest (j : CipherJob) (s : State) : State := engineWrite j.dst (List.replicate j.destLen 0#8) s

/-! ## Provisional destinations (12 R476) -/

/-- Decryptions whose destination is provisional: started, without a verdict. -/
def provisionalJobs (s : State) : List CipherJob :=
  s.cipher.jobs.filter (fun j => j.kind == .cipher && j.decrypt && j.phase != .waiting && 0 < j.destLen)

/-- The provisional job whose destination covers an address. -/
def provisionalAt (s : State) (a : Nat) : Option CipherJob :=
  (provisionalJobs s).find? (fun j => j.dst ≤ a && a < j.dst + j.destLen)

/-- Whether any address of a range is provisional. -/
def provisionalRange (s : State) (a n : Nat) : Bool := (provisionalJobs s).any (fun j => rangesMeet j.dst j.destLen a n)

/-- A write to a provisional destination is held until the verdict (12 R476). -/
def holdDest (j : CipherJob) (who : Option Requester) (a : Nat) (bs : List Byte) (s : State) : State :=
  setCipher { s.cipher with dest := s.cipher.dest ++ [{ job := j.id, who := who, addr := a, bytes := bs }] } s

/-- A write of a requester to the Mortar bank of address `a` is held for a verdict. -/
def heldInBank (s : State) (req : Requester) (a : Nat) : Option DestWrite :=
  s.cipher.dest.find? (fun d => d.who == some req && inBank1 d.addr == inBank1 a)

/-- The decryption whose verdict a requester's write to a Mortar address waits for: its destination covers the address (12
R476), or an earlier write of the requester to the bank waits for it (01 R24). -/
def writeWaits (s : State) (req : Requester) (a : Nat) : Option CipherJob :=
  match provisionalAt s a with
  | some j => some j
  | none => match heldInBank s req a with
    | some d => s.cipher.jobs.find? (fun j => j.id == d.job)
    | none => none

/-- A mason reads a provisional word: it is counted, and the mason is bound to the job (12 R476). -/
def bindMason (m : Fin 5) (j : CipherJob) (s : State) : State :=
  let s := setJob { j with provReads := j.provReads + 1 } s
  if s.cipher.bound.contains (m.val, j.id) then s
  else setCipher { s.cipher with bound := s.cipher.bound ++ [(m.val, j.id)] } s

end Sys2Proof.Machine
end

