-- ==== Sys2Proof/Machine/LinkOps.lean ====
section
/-!
DEFINITION. Sys2Proof/Machine/LinkOps.lean: outbound slots, network frames and their sealing, the duty budget and the
regulatory region (11), and the airtime of a packet (10 R396 to R399).
-/
namespace Sys2Proof.Machine

/-- Replace the radio, the link, the decoder. -/
def setRadio (r : RadioUnit) (s : State) : State := { s with radio := r }
def setLink (l : LinkUnit) (s : State) : State := { s with link := l }
def setDecoder (d : DecoderUnit) (s : State) : State := { s with decoder := d }

/-- VLR.USEC before it wraps: µs since PD7 was switched on (10 R406). -/
def vlrUs (s : State) : Nat := cyclesUs (s.now - s.radio.onNow)

/-! ## Outbound slots (11 R434 to R439) -/

/-- Slot states (11 R456). -/
abbrev Sl.free : Nat := 0
abbrev Sl.queued : Nat := 1
abbrev Sl.waitNode : Nat := 2
abbrev Sl.active : Nat := 3
abbrev Sl.backoff : Nat := 4
abbrev Sl.done : Nat := 5

/-- Outbound slot `k`. -/
def outAt (s : State) (k : Nat) : OutSlot := s.link.slots.getD k OutSlot.free

/-- The image of a slot as mirrored (16 R591); the layout is the model's (notes/assumptions/16.md). -/
def slotImage (k : Nat) (o : OutSlot) : List Byte :=
  [1#8, BitVec.ofNat 8 k, BitVec.ofNat 8 o.state, BitVec.ofNat 8 o.attempts, BitVec.ofNat 8 o.result]
    ++ leBytes 2 o.ticket ++ o.desc ++ leBytes 2 o.payload.length ++ o.payload ++ o.sealed.getD []

/-- Replace slot `k`, mirroring it (11 R454). -/
def setOut (k : Nat) (o : OutSlot) (s : State) : State :=
  s |> setLink { s.link with slots := s.link.slots.set k o } |> mirrorValve (slotImage k o)

/-- VLQ.SLOT_STATUS (11 R456). -/
def slotStatusWord (o : OutSlot) : Word :=
  fieldWord 31 28 o.state ||| fieldWord 27 24 o.attempts ||| fieldWord 23 16 o.result ||| fieldWord 15 0 o.ticket

/-- Fields of the SEND descriptor (11 R434). -/
def OutSlot.node (o : OutSlot) : Nat := leField o.desc 0 2
def OutSlot.channel (o : OutSlot) : Nat := leField o.desc 2 2
def OutSlot.ackReq (o : OutSlot) : Bool := leField o.desc 4 1 % 2 == 1
def OutSlot.hold (o : OutSlot) : Bool := leField o.desc 4 1 / 2 % 2 == 1
def OutSlot.enc (o : OutSlot) : Bool := leField o.desc 4 1 / 4 % 2 == 1
def OutSlot.pri (o : OutSlot) : Bool := leField o.desc 4 1 / 8 % 2 == 1
def OutSlot.retries (o : OutSlot) : Nat := leField o.desc 5 1
def OutSlot.port (o : OutSlot) : Nat := leField o.desc 6 1 % 16

/-- Whether a slot still runs. -/
def OutSlot.live (o : OutSlot) : Bool := o.state != Sl.free && o.state != Sl.done

/-- Slot `k` ends with a result (11 R435, R437, R456). -/
def slotEnd (k result : Nat) (s : State) : State :=
  let o := outAt s k
  if !o.live then s
  else
    s |> setOut k { o with state := Sl.done, result := result } |> setRegBit Reg.vlqDoneMap k |> raiseEvent 0x22 1
      |> finishCmd o.id (if result ≤ 1 then Oc.done else Oc.failed)

/-- A failed attempt of slot `k` (11 R437 to R439): a slot with attempts left backs off, or waits for its node; otherwise
it ends with the result. -/
def slotFail (k code : Nat) (s : State) : State :=
  let o := outAt s k
  if o.cancelled then slotEnd k 4 s
  else if o.retries + 1 ≤ o.attempts then slotEnd k code s
  else setOut k { o with state := if o.hold then Sl.waitNode else Sl.backoff, failedNow := s.now } s

/-- Results that are retried (11 R437). -/
def retried (code : Nat) : Bool := [0x02, 0x18, 0x19, 0x20, 0x21].contains code

/-- The SEQ a sealed frame carries. -/
def frameSeq (bytes : List Byte) : Nat := leField bytes 6 1

/-- The transmission of slot `k`'s frame has ended with a code (11 R437, R438, R439). -/
def slotSent (k code seq : Nat) (s : State) : State :=
  let o := outAt s k
  if o.state ≠ Sl.active then s
  else if code = 0 then
    if o.ackReq then setLink { s.link with await := some { slot := k, node := o.node, seq := seq, since := s.now } } s
    else slotEnd k (if o.cancelled then 4 else 0) s
  else if o.cancelled then slotEnd k 4 s
  else if retried code then slotFail k code s
  else slotEnd k code s

/-- The slot that a predicate accepts with the lowest order of acceptance. -/
def oldestSlot (s : State) (f : OutSlot → Bool) : Option Nat :=
  (List.range 32).foldl (fun best k =>
    if f (outAt s k) then
      match best with
      | none => some k
      | some b => if (outAt s k).order < (outAt s b).order then some k else best
    else best) none

/-- Whether the link scheduler is active (11 R433). -/
def linkActive (s : State) : Bool :=
  domainOn s 7 && regBit s Reg.vlqCtrl 31 && (regBits s Reg.vlrCtrl 31 30 == 1 || regBits s Reg.vlrCtrl 31 30 == 3)

/-! ## Frames (11 R426 to R432) -/

/-- CRC-16/CCITT-FALSE over one byte. -/
def valveCrcBits (n : Nat) (c : BitVec 16) : BitVec 16 :=
  match n with
  | 0 => c
  | k + 1 => valveCrcBits k (if c.getLsbD 15 then (c <<< 1) ^^^ 0x1021#16 else c <<< 1)

/-- CRC-16/CCITT-FALSE (11 R426). -/
def valveCrc (bs : List Byte) : Nat :=
  (bs.foldl (fun c b => valveCrcBits 8 (c ^^^ BitVec.ofNat 16 (b.toNat * 256))) 0xFFFF#16).toNat

/-- Bytes 0 to 6 of a frame (11 R426). -/
def frameHead (p : Nat) (ackReq isAck enc : Bool) (port dst src seq : Nat) : List Byte :=
  [BitVec.ofNat 8 (16 + p),
   BitVec.ofNat 8 (128 * bit01 ackReq + 64 * bit01 isAck + 32 * bit01 enc + port)]
    ++ beBytes 2 dst ++ beBytes 2 src ++ [BitVec.ofNat 8 seq]

/-- The CCM nonce of a frame (12 R464). -/
def frameNonce (src dst counter : Nat) : List Byte :=
  beBytes 2 src ++ beBytes 2 dst ++ List.replicate 5 0#8 ++ beBytes 4 counter

/-- Payload as sent and MIC (11 R427): with ENC the payload is encrypted, without it is associated data. -/
def frameSeal (key : List Byte) (head payload : List Byte) (enc : Bool) (nonce : List Byte) : List Byte × List Byte :=
  if enc then ccm false key nonce 8 head payload
  else (payload, (ccm false key nonce 8 (head ++ payload) []).2)

/-- Payload as received and the MIC it must have. -/
def frameOpen (key : List Byte) (head body : List Byte) (enc : Bool) (nonce : List Byte) : List Byte × List Byte :=
  if enc then ccm true key nonce 8 head body
  else (body, (ccm true key nonce 8 (head ++ body) []).2)

/-- The hub's own address (11 R430). -/
def hubAddr (s : State) : Nat := regBits s Reg.vlqCtrl 15 0

/-- Cipher blocks of a frame of the valve link (01 R46): its head as associated data, with an unencrypted payload behind it,
and an encrypted payload. -/
def frameBlocks (len : Nat) (enc : Bool) : Nat := if enc then 1 + (len + 15) / 16 else (7 + len + 15) / 16

/-- Seal a frame to node `n` (11 R426 to R431), a job of the engine's highest class (01 R45): it takes the node's next counter; none when the node has no entry or its
counter cannot advance. -/
def sealFrame (n : Nat) (ackReq isAck enc : Bool) (port : Nat) (payload : List Byte) (s : State) :
    State × Option (List Byte) :=
  match nodeEntry s n with
  | none => (s, none)
  | some e =>
    let (s, slot) := cacheNode n e s
    match takeCounter slot s with
    | (s, none) => (s, none)
    | (s, some c) =>
      let head := frameHead payload.length ackReq isAck enc port e.addr (hubAddr s) (c % 256)
      let r := frameSeal e.key head payload enc (frameNonce (hubAddr s) e.addr c)
      let body := head ++ r.1 ++ r.2
      (higherBlocks (frameBlocks payload.length enc) s, some (body ++ beBytes 2 (valveCrc body)))

/-- Whether a counter value of node `n` would need a new mark (12 R471). -/
def markDue (s : State) (n : Nat) : Bool := mramWord s (nodeMarkAddr n) ≤ nodeCounter s n

/-- VALVE messages about node `n` of the kinds given, not yet acknowledged by the secondary (16 R592). -/
def valveUnacked (s : State) (kinds : List Byte) (n : Nat) : Bool :=
  mirrors s && s.twin.out.any (fun m => m.kind == 0xD6 && kinds.contains (m.body.getD 0 0#8)
    && (m.body.drop 1).take 2 == leBytes 2 n)

/-- On a paired primary a due mark is written and mirrored at once; the value waits for the secondary (16 R592). The flag
says it must wait. -/
def markReady (n : Nat) (s : State) : State × Bool :=
  if !(mirrors s) then (s, true)
  else
    let c := nodeCounter s n
    let s := if markDue s n && c != ctrEnd then advanceMark (nodeMarkAddr n) c (some n) s else s
    (s, !(valveUnacked s [3#8] n))

/-! ## Airtime (10 R396 to R399) -/

/-- Bit rate of a RATE code (10 R394). -/
def bitRate (rate : Nat) : Nat :=
  match rate with
  | 0 => 4800
  | 1 => 9600
  | 2 => 19200
  | 3 => 38400
  | _ => 100000

/-- Coded bits of `n` encoder input bits (10 R398). -/
def codedBits (punct n : Nat) : Nat :=
  if punct = 0 then 2 * n
  else if punct = 1 then 3 * (n / 2) + 2 * (n % 2)
  else 4 * (n / 3) + (if n % 3 = 0 then 0 else n % 3 + 1)

/-- Coded bits of a frame of `bytes` bytes, padded for 4-GFSK (10 R397, R398). -/
def frameCoded (c : RadioConfig) (bytes : Nat) : Nat :=
  let n := codedBits (bitsOf c.fec 1 0) (8 * bytes + 6)
  if bitAt c.modulation 0 then n + n % 2 else n

/-- Ramp-up plus ramp-down in µs (10 VLR.PA). -/
def rampUs (c : RadioConfig) : Nat := bitsOf c.pa 29 24 + 1 + (bitsOf c.pa 21 16 + 1)

/-- Airtime of a packet, rounded up to whole µs (10 R399, 11 R448). -/
def packetAirtime (c : RadioConfig) (bytes : Nat) : Nat :=
  let k := if bitAt c.modulation 0 then 2 else 1
  let len := if bitAt c.syncCfg 0 then bitAt c.syncCfg 30 else bitAt c.syncCfg 14
  let bits := (bitsOf c.preamble 8 0 + (if len then 32 else 16)) * k + frameCoded c bytes
  let rate := bitRate (bitsOf c.modulation 7 4)
  rampUs c + (bits * 1000000 + rate - 1) / rate

/-! ## The duty budget (11 R448, R449; 01 R32) -/

/-- Address of bucket `b` of sub-band `i`. -/
def bucketAddr (i b : Nat) : Nat := 0x0DB100 + 256 * i + 4 * b

/-- Addresses of the index of the current bucket and of its start on CLK.MONO. -/
def bucketIndexAddr (i : Nat) : Nat := 0x0DB100 + 256 * i + 244
def bucketStartAddr (i : Nat) : Nat := 0x0DB100 + 256 * i + 248

/-- The current bucket of sub-band `i`. -/
def bucketIndex (s : State) (i : Nat) : Nat := mramWord s (bucketIndexAddr i) % 61

/-- REG.SUB_LIM[i].DUTY, SUB_LIM[i].POWER and the edges. -/
def subLim (s : State) (i : Nat) : Word := getReg s (Reg.regSubLim + 3 * i)
def subLo (s : State) (i : Nat) : Word := getReg s (Reg.regSubLo + 3 * i)
def subHi (s : State) (i : Nat) : Word := getReg s (Reg.regSubHi + 3 * i)
def subDuty (s : State) (i : Nat) : Nat := bitsOf (subLim s i) 15 0

/-- A sub-band's allowance A in µs. -/
def allowance (s : State) (i : Nat) : Nat := subDuty s i * 360000

/-- A bucket's charge; an uncorrectable one counts as the whole allowance (17 R613). -/
def bucketCharge (s : State) (i b : Nat) : Nat :=
  if mramRangePoison s (bucketAddr i b) 4 then allowance s i else mramWord s (bucketAddr i b)

/-- Airtime reserved in sub-band `i` and not yet charged or returned (11 R449). -/
def reservedUs (s : State) (i : Nat) : Nat :=
  match s.radio.tx with
  | some t => if t.band = i ∧ !t.ramped then t.airtime else 0
  | none => 0

/-- U of R448. -/
def usedUs (s : State) (i : Nat) : Nat :=
  ((List.range 61).map (bucketCharge s i)).sum + reservedUs s i

/-- Charge airtime to the current bucket of sub-band `i`; the charge is mirrored (16 R591). -/
def chargeBucket (i us : Nat) (s : State) : State :=
  let a := bucketAddr i (bucketIndex s i)
  s |> mramRewrite a (leBytes 4 (bucketCharge s i (bucketIndex s i) + us))
    |> mirrorValve (5#8 :: leBytes 1 i ++ leBytes 4 us)

/-- Close the current bucket of sub-band `i` if its 60 s have passed: the next one starts empty 60 s later (11 R449). -/
def closeBucket (i : Nat) (s : State) : State :=
  let start := mramWord s (bucketStartAddr i)
  if (mono s + 2 ^ 32 - start) % 2 ^ 32 < 60 then s
  else
    let n := (bucketIndex s i + 1) % 61
    s |> mramRewrite (bucketAddr i n) (leBytes 4 0) |> mramRewrite (bucketIndexAddr i) (leBytes 4 n)
      |> mramRewrite (bucketStartAddr i) (leBytes 4 ((start + 60) % 2 ^ 32))

/-- Close every bucket of sub-band `i` whose 60 s have passed. -/
def closeBuckets (fuel i : Nat) (s : State) : State :=
  match fuel with
  | 0 => s
  | n + 1 => closeBuckets n i (closeBucket i s)

/-- The buckets after an interruption (11 R449): those whose time has passed close at once; when PD0 was lost, the current
bucket starts its 60 s afresh. -/
def restoreBuckets (lost : Bool) (s : State) : State :=
  (List.range 8).foldl (fun t i =>
    if lost then mramRewrite (bucketStartAddr i) (leBytes 4 (mono t)) t
    else
      -- beyond 61 closed buckets everything is empty and only the start moves
      let t := closeBuckets 61 i t
      let late := (mono t + 2 ^ 32 - mramWord t (bucketStartAddr i)) % 2 ^ 32
      if late < 60 then t
      else mramRewrite (bucketStartAddr i) (leBytes 4 ((mramWord t (bucketStartAddr i) + late / 60 * 60) % 2 ^ 32)) t) s

/-! ## The regulatory checks (11 R445 to R448) -/

/-- Channel spacing in units of 100 Hz. -/
def spacingOf (c : RadioConfig) : Nat :=
  match bitsOf c.band 29 28 with
  | 0 => 125
  | 1 => 250
  | 2 => 500
  | _ => 2000

/-- Centre of a channel in units of 100 Hz (10 R390). -/
def channelFreq (c : RadioConfig) (n : Nat) : Nat := bitsOf c.band 23 0 + n * spacingOf c

/-- Least spacing of the profile, in units of 100 Hz (10 R394). -/
def leastSpacing (c : RadioConfig) : Nat :=
  match bitsOf c.modulation 7 4, bitAt c.modulation 0 with
  | 0, _ => 125
  | 1, true => 125
  | 1, false => 250
  | 2, true => 250
  | 2, false => 500
  | 3, true => 500
  | _, _ => 2000

/-- Whether the whole of channel `n`, half a spacing either side of its centre, lies from `lo` to `hi`. -/
def channelInside (c : RadioConfig) (n lo hi : Nat) : Bool :=
  2 * lo + spacingOf c ≤ 2 * channelFreq c n && 2 * channelFreq c n + spacingOf c ≤ 2 * hi

/-- Whether a configuration is valid on channel `n` (10 R391). -/
def configOk (c : RadioConfig) (n : Nat) : Bool :=
  let mode := bitsOf c.ctrl 31 30
  let band := bitAt c.band 31
  (if band then channelInside c n 9020000 9280000 else channelInside c n 8630000 8760000)
    && leastSpacing c ≤ spacingOf c
    && ((mode != 1 && mode != 3) || bitAt c.syncCfg 31 || bitAt c.syncCfg 15)
    && ((mode != 2 && mode != 3) || !band)

/-- The lowest-numbered enabled sub-band of the same band that holds the whole channel (11 R447). -/
def subBandOf (s : State) (c : RadioConfig) (n : Nat) : Option Nat :=
  (List.range 8).find? (fun i =>
    bitAt (subLo s i) 31 && (bitAt (subLo s i) 30 == bitAt c.band 31)
      && bitsOf (subLo s i) 23 0 < bitsOf (subHi s i) 23 0
      && channelInside c n (bitsOf (subLo s i) 23 0) (bitsOf (subHi s i) 23 0))

/-- Whether airtime passes the duty check of R448, with the acknowledgement reserve or without. -/
def dutyOk (s : State) (i airtime : Nat) (reserve : Bool) : Bool :=
  let d := subDuty s i
  if d = 10000 then true
  else if d = 0 then false
  else usedUs s i + airtime + (if reserve then regBits s Reg.vlqReserve 15 0 * 1000 else 0) ≤ allowance s i

/-- An 8-bit two's complement field as an integer. -/
def signed8 (n : Nat) : Int := (BitVec.ofNat 8 n).toInt

end Sys2Proof.Machine
end

