-- ==== Sys2Proof/Machine/AirBits.lean ====
section
/-!
DEFINITION. Sys2Proof/Machine/AirBits.lean: the bits on air of the valve radio, from whitening to symbols (10 R394 to
R398), their way back (R401, R404), and the blocks of a meter frame (R419).
-/
namespace Sys2Proof.Machine

/-! ## Whitening (10 R397) -/

/-- The next state of the PN9 generator x^9 + x^5 + 1; its output is bit 0 (notes/assumptions/60.md). -/
def airPn9Next (r : Nat) : Nat := r / 2 + 256 * bit01 (r.testBit 0 != r.testBit 5)

/-- `n` outputs of the PN9 generator from a state. -/
def airPn9 (n r : Nat) : List Bool :=
  match n with
  | 0 => []
  | k + 1 => r.testBit 0 :: airPn9 k (airPn9Next r)

/-- The bits of bytes, most significant first. -/
def airBits (bs : List Byte) : List Bool := bs.flatMap (fun b => (List.range 8).map (fun i => b.getLsbD (7 - i)))

/-- The number bits spell, most significant first. -/
def bitsNat (bs : List Bool) : Nat := bs.foldl (fun n b => 2 * n + bit01 b) 0

/-- `n` bytes of bits, most significant first. -/
def airBytes (n : Nat) (bs : List Bool) : List Byte :=
  match n with
  | 0 => []
  | k + 1 => BitVec.ofNat 8 (bitsNat (bs.take 8)) :: airBytes k (bs.drop 8)

/-- Frame bits whitened, or de-whitened, while VLM.FEC.WHITEN is 1 (10 R397). -/
def whiten (c : RadioConfig) (bs : List Bool) : List Bool :=
  if bitAt c.fec 2 then List.zipWith (fun a b => a != b) bs (airPn9 bs.length 0x1FF) else bs

/-! ## The convolutional code (10 R398) -/

/-- Whether a number of 7 bits has an odd number of ones. -/
def oddBits (n : Nat) : Bool := (List.range 7).foldl (fun p i => p != n.testBit i) false

/-- The generators 171 and 133 octal; the bit of weight 64 takes the present input. -/
abbrev convG1 : Nat := 121
abbrev convG2 : Nat := 91

/-- An output of the encoder whose register holds the present input and the six before it. -/
def convOut (g r : Nat) : Bool := oddBits (r &&& g)

/-- The generators whose outputs puncturing keeps for input `i` (10 R398). -/
def keptOutputs (punct i : Nat) : List Nat :=
  match punct with
  | 0 => [convG1, convG2]
  | 1 => if i % 2 = 0 then [convG1, convG2] else [convG1]
  | _ => if i % 3 = 0 then [convG1, convG2] else if i % 3 = 1 then [convG1] else [convG2]

/-- The kept outputs for input bits, from input `i` on and an encoder register. -/
def convEncode (punct i r : Nat) (bs : List Bool) : List Bool :=
  match bs with
  | [] => []
  | b :: t =>
    let r' := r / 2 + 64 * bit01 b
    (keptOutputs punct i).map (fun g => convOut g r') ++ convEncode punct (i + 1) r' t

/-- The `n` input bits that the first kept output of each input determines: the inputs of an undisturbed coded block. -/
def convInvert (punct n i r : Nat) (coded : List Bool) : List Bool :=
  match n with
  | 0 => []
  | k + 1 =>
    let gs := keptOutputs punct i
    let b := coded.getD 0 false != convOut (gs.getD 0 convG1) (r / 2)
    b :: convInvert punct k (i + 1) (r / 2 + 64 * bit01 b) (coded.drop gs.length)

/-- The coded block of frame bits already whitened (10 R397, R398): six tail bits follow them, and a bit of 0 completes the
last pair in 4-GFSK. -/
def codedBlock (c : RadioConfig) (bs : List Bool) : List Bool :=
  let coded := convEncode (bitsOf c.fec 1 0) 0 0 (bs ++ List.replicate 6 false)
  if bitAt c.modulation 0 && coded.length % 2 == 1 then coded ++ [false] else coded

/-- The frame bits that a captured block is the coded block of, if it is one. -/
def cleanDecode (c : RadioConfig) (n : Nat) (hard : List Bool) : Option (List Bool) :=
  let bs := convInvert (bitsOf c.fec 1 0) n 0 0 hard
  if codedBlock c bs = hard then some bs else none

/-- Places in which two lists differ. -/
def differences (a b : List Bool) : Nat := ((List.zipWith (fun x y => x != y) a b).filter id).length

/-! ## Symbols (10 R394 to R396) -/

/-- The deviation of a profile in Hz, of the outer symbols in 4-GFSK (10 R394). -/
def deviation (c : RadioConfig) : Nat :=
  match bitsOf c.modulation 7 4, bitAt c.modulation 0 with
  | 0, _ => 2400
  | 1, false => 4800
  | 1, true => 3600
  | 2, false => 9600
  | 2, true => 7200
  | 3, false => 19200
  | 3, true => 14400
  | _, false => 50000
  | _, true => 37500

/-- The AFC capture range of a profile in Hz (10 R394). -/
def captureRange (c : RadioConfig) : Nat :=
  match bitsOf c.modulation 7 4, bitAt c.modulation 0 with
  | 0, _ => 6000
  | 1, true => 6000
  | 1, false => 12000
  | 2, true => 12000
  | 2, false => 25000
  | 3, true => 25000
  | _, _ => 30000

/-- The symbol rate of a profile (10 R394). -/
def symbolRate (c : RadioConfig) : Nat := bitRate (bitsOf c.modulation 7 4) / (if bitAt c.modulation 0 then 2 else 1)

/-- A bit sent as one symbol of the full deviation (10 R395, R396). -/
def outerSymbol (dev : Nat) (b : Bool) : Int := if b then dev else -(dev : Int)

/-- A pair of bits sent as one symbol of 4-GFSK (10 R395). -/
def pairSymbol (dev : Nat) (first second : Bool) : Int :=
  match first, second with
  | false, true => dev
  | false, false => (dev / 3 : Nat)
  | true, false => -((dev / 3 : Nat) : Int)
  | true, true => -(dev : Int)

/-- The symbols of a coded block in 4-GFSK. -/
def pairSymbols (dev : Nat) (bs : List Bool) : List Int :=
  match bs with
  | a :: b :: t => pairSymbol dev a b :: pairSymbols dev t
  | _ => []

/-- The sync word a configuration sends, most significant bit first (10 R396). -/
def syncBits (c : RadioConfig) : List Bool :=
  let one := bitAt c.syncCfg 0
  let w := if one then c.sync1 else c.sync0
  let n := if bitAt c.syncCfg (if one then 30 else 14) then 32 else 16
  (List.range n).map (fun i => bitAt w (n - 1 - i))

/-- The preamble and sync word of a packet (10 R396). -/
def packetHead (c : RadioConfig) : List Bool :=
  (List.range (bitsOf c.preamble 8 0)).map (fun i => i % 2 == 1) ++ syncBits c

/-- The symbols of a packet as deviations from the channel's centre in Hz (10 R395, R396). -/
def packetSymbols (c : RadioConfig) (bytes : List Byte) : List Int :=
  let dev := deviation c
  let coded := codedBlock c (whiten c (airBits bytes))
  (packetHead c).map (outerSymbol dev)
    ++ (if bitAt c.modulation 0 then pairSymbols dev coded else coded.map (outerSymbol dev))

/-! ## Sync words received (10 R401) -/

/-- Errors of received bits, the last received lowest, against sync word 0 or 1, if it is enabled and they are within its
tolerance. -/
def syncWordErrors (c : RadioConfig) (one : Bool) (bits : Word) : Option Nat :=
  let w := (if one then c.sync1 else c.sync0) ^^^ bits
  let n := if bitAt c.syncCfg (if one then 30 else 14) then 32 else 16
  let e := ((List.range n).filter (bitAt w)).length
  let on := bitAt c.syncCfg (if one then 31 else 15)
  if on ∧ e ≤ (if one then bitsOf c.syncCfg 26 24 else bitsOf c.syncCfg 10 8) then some e else none

/-- The sync word found, with its errors: the one with fewer, word 0 on equal errors. -/
def syncFoundIn (c : RadioConfig) (bits : Word) : Option (Bool × Nat) :=
  match syncWordErrors c false bits, syncWordErrors c true bits with
  | some a, some b => if b < a then some (true, b) else some (false, a)
  | some a, none => some (false, a)
  | none, some b => some (true, b)
  | none, none => none

/-! ## Meter frames (10 R419): the coding and CRCs of EN 13757-4 (notes/assumptions/60.md) -/

/-- The chips of a nibble in mode T1. -/
def nibbleChips (n : Nat) : Nat :=
  [22, 13, 14, 11, 28, 25, 26, 19, 44, 37, 38, 35, 52, 49, 50, 41].getD n 0

/-- The nibble six chips stand for. -/
def chipsNibble (chips : List Bool) : Option Nat := (List.range 16).find? (fun n => nibbleChips n == bitsNat chips)

/-- The bytes of `n` groups of 12 chips; chips that are no nibble's give a free one, and a mark. -/
def chipBytes (s : State) (n : Nat) (chips : List Bool) : List Byte × Bool :=
  match n with
  | 0 => ([], true)
  | k + 1 =>
    let hi := chipsNibble (chips.take 6)
    let lo := chipsNibble ((chips.drop 6).take 6)
    let free := fun (j : Nat) => Config.freeNat (s.freeIndex + 2 * k + j) % 16
    let (t, ok) := chipBytes s k (chips.drop 12)
    (BitVec.ofNat 8 (16 * hi.getD (free 1) + lo.getD (free 0)) :: t, ok && hi.isSome && lo.isSome)

/-- The block CRC. -/
def meterCrc (bs : List Byte) : Nat := 0xFFFF - (crcBytes ⟨16, 0x3D65#32, 0#32, 0#32, false, false⟩ 0#32 bs).toNat % 0x10000

/-- The data of blocks of at most `size` bytes, each followed by its CRC, if every CRC passes. -/
def meterBlocks (fuel size : Nat) (bs : List Byte) : Option (List Byte) :=
  match fuel, bs with
  | _, [] => some []
  | 0, _ => none
  | k + 1, _ =>
    let n := min size (bs.length - 2)
    let data := bs.take n
    if beNat ((bs.drop n).take 2) ≠ meterCrc data ∨ bs.length < 3 then none
    else (meterBlocks k 16 (bs.drop (n + 2))).map (data ++ ·)

/-- The data of a frame of format B: its L counts the CRCs, the first of which ends 128 bytes. -/
def meterFormatB (bs : List Byte) : Option (List Byte) :=
  let one := bs.take 128
  let two := bs.drop 128
  let data := fun (b : List Byte) => b.take (b.length - 2)
  let good := fun (b : List Byte) => beNat (b.drop (b.length - 2)) == meterCrc (data b)
  if good one && (two.isEmpty || good two) then some (data one ++ (if two.isEmpty then [] else data two)) else none

/-- The bytes of a meter frame without its CRCs, if they all pass and its length is the one it states. -/
def meterFrameData (formatB : Bool) (bs : List Byte) : Option (List Byte) :=
  let l := leField bs 0 1
  if formatB then (if bs.length = l + 1 then meterFormatB bs else none)
  else
    match meterBlocks 18 10 bs with
    | some d => if d.length = l + 1 then some d else none
    | none => none

end Sys2Proof.Machine
end

