-- ==== Sys2Proof/Machine/RadioOps.lean ====
section
/-!
DEFINITION. Sys2Proof/Machine/RadioOps.lean: the states of the valve radio, how it returns to listening, how a
transmission starts, is held and ends, the synthesiser, and acknowledgements (10 R391 to R418, 11 R436 to R453).
-/
namespace Sys2Proof.Machine

/-- VLR.STATE.RADIO codes (10). -/
abbrev Ra.off : Nat := 0
abbrev Ra.listen : Nat := 1
abbrev Ra.detected : Nat := 2
abbrev Ra.capture : Nat := 3
abbrev Ra.turnTx : Nat := 4
abbrev Ra.held : Nat := 5
abbrev Ra.rampUp : Nat := 6
abbrev Ra.tx : Nat := 7
abbrev Ra.rampDown : Nat := 8
abbrev Ra.turnRx : Nat := 9
abbrev Ra.cal : Nat := 10
abbrev Ra.badConfig : Nat := 11

/-- VLR.SYNTH.STATE codes (10). -/
abbrev Sy.off : Nat := 0
abbrev Sy.calibrating : Nat := 1
abbrev Sy.settling : Nat := 2
abbrev Sy.locked : Nat := 3
abbrev Sy.failed : Nat := 4

/-- The radio's state. -/
def radioState (s : State) : Nat := regBits s Reg.vlrState 31 28

/-- Enter a radio state. -/
def setRadioState (n : Nat) (s : State) : State := setRegBits Reg.vlrState 31 28 n s

/-- The synthesiser's state. -/
def synthState (s : State) : Nat := regBits s Reg.vlrSynth 31 28

/-- Enter a synthesiser state. -/
def setSynth (n : Nat) (s : State) : State := setRegBits Reg.vlrSynth 31 28 n s

/-- VLR.CTRL.MODE: 0 OFF, 1 NETWORK, 2 METER, 3 SHARED. -/
def radioMode (s : State) : Nat := regBits s Reg.vlrCtrl 31 30

/-- Whether a packet is in hand: DETECTED, CAPTURE or any transmit state (10 R392). -/
def packetInHand (s : State) : Bool := 2 ≤ radioState s && radioState s ≤ 9

/-- The configuration the registers hold. -/
def liveConfig (s : State) : RadioConfig :=
  { ctrl := getReg s Reg.vlrCtrl, band := getReg s Reg.vlrBand, channel := getReg s Reg.vlrChannel,
    pa := getReg s Reg.vlrPa, modulation := getReg s Reg.vlmMod, preamble := getReg s Reg.vlmPreamble,
    syncCfg := getReg s Reg.vlmSyncCfg, fec := getReg s Reg.vlmFec, detect := getReg s Reg.vlmDetect,
    sync0 := getReg s Reg.vlmSync0, sync1 := getReg s Reg.vlmSync1, holdLimit := getReg s Reg.vlrHoldLimit }

/-- Latch the configuration for a packet, unless one is already in hand (10 R392). -/
def latchConfig (s : State) : State :=
  if packetInHand s then s else setRadio { s.radio with cfg := liveConfig s } s

/-- The channel the radio listens on: the transmit channel while a slot's acknowledgement is awaited, else VLR.CHANNEL.N
(11 R437, R438). -/
def listenChannel (s : State) : Nat :=
  match s.link.await with
  | some w => if (outAt s w.slot).hold then regBits s Reg.vlrChannel 9 0 else (outAt s w.slot).channel
  | none => regBits s Reg.vlrChannel 9 0

/-- Whether the radio listens for meter frames (10 R419, R421). -/
def onMeter (s : State) : Bool :=
  radioMode s == 2 || (radioMode s == 3 && s.radio.meterPortion && s.link.await.isNone)

/-- VLR.STATE.ON_METER (10). -/
def setOnMeter (b : Bool) (s : State) : State := setRegBits Reg.vlrState 27 27 (bit01 b) s

/-- Start a calibration (10 R415, R416): it waits for a gap no longer. A transmission in hand keeps its state, and is held
if it reaches its step 3 (R410, R657). -/
def startCal (s : State) : State :=
  let s := s |> setSynth Sy.calibrating |> setRegBits Reg.vlrSynth 27 27 0 |> setRadio { s.radio with calNow := s.now }
  if s.radio.tx.isSome then s else s |> setOnMeter false |> setRadioState Ra.cal

/-- Whether port B is in use (10 R400). -/
def portBUsed (s : State) : Bool := regBit s Reg.vlrCtrl 29 && (radioMode s == 1 || radioMode s == 3)

/-- The radio returns to listening (10 R391 to R393, R415 to R417): CAL while a calibration runs, or, unless the mode is
OFF, while the first is due; OFF in mode OFF or on a failed synthesiser; BAD_CONFIG on an invalid configuration; else
LISTEN with the synthesiser in the state given. -/
def resumeListen (synth : Nat) (s : State) : State :=
  let s := s |> setRadio { s.radio with rx := none } |> setOnMeter false
  let s := if portBUsed s then s else setRegBits Reg.vlrState 15 8 0x80 s
  if synthState s = Sy.calibrating then setRadioState Ra.cal s
  else if synthState s = Sy.failed then setRadioState Ra.off s
  else if radioMode s = 0 then s |> setRadioState Ra.off |> setSynth Sy.off
  else if !s.radio.calibrated then startCal s
  else
    let s := setSynth synth s
    if configOk (liveConfig s) (regBits s Reg.vlrChannel 9 0) then s |> setOnMeter (onMeter s) |> setRadioState Ra.listen
    else
      let s := if radioState s = Ra.badConfig then s else raiseEvent 0x20 3 s
      setRadioState Ra.badConfig s

/-- A calibration becomes due (10 R415). -/
def markCalDue (s : State) : State := setRegBits Reg.vlrSynth 27 27 1 s

/-- What a write to a VLR or VLM register brings about (10 R392): nothing for the packet in hand; else the radio listens
with the new configuration, retuned. A change of BAND marks a calibration due. -/
def radioWritten (index : Nat) (old : Word) (s : State) : State :=
  let s := if index = Reg.vlrBand ∧ bitAt old 31 ≠ regBit s Reg.vlrBand 31 then markCalDue s else s
  if packetInHand s then s
  else resumeListen (if radioState s = Ra.listen ∧ index ≠ Reg.vlrChannel ∧ index ≠ Reg.vlrBand ∧ index ≠ Reg.vlrCtrl
    then synthState s else Sy.settling) s

/-! ## Coexistence (11 R451 to R453) -/

/-- Whether the grant is present; taken as present while the wires are not in use (R451). -/
def granted (s : State) : Bool := !(regBit s Reg.coxCtrl 31) || s.radio.coxGnt

/-- COX_REQ and COX_PRI become active (R451). -/
def coxRaise (pri : Bool) (s : State) : State :=
  if regBit s Reg.coxCtrl 31 then setRadio { s.radio with coxReq := true, coxPri := pri } s else s

/-- COX_REQ and COX_PRI become inactive. -/
def coxDrop (s : State) : State := setRadio { s.radio with coxReq := false, coxPri := false } s

/-- COX.STATUS: the levels on the wires (11 R451). -/
def coxStatusWord (s : State) : Word :=
  let en := regBit s Reg.coxCtrl 31
  let lvl := fun (active : Bool) (n : Nat) => bit01 (active != regBit s Reg.coxCtrl n)
  fieldWord 31 31 (lvl (en && s.radio.coxReq) 30) ||| fieldWord 30 30 (lvl s.radio.coxGnt 29)
    ||| fieldWord 29 29 (lvl (en && s.radio.coxPri) 28)

/-! ## Acknowledgements and slots as transmissions end (11 R437 to R441) -/

/-- The acknowledgement's transmission has ended (11 R438, R441). -/
def ackSent (hold : Option Nat) (code seq : Nat) (s : State) : State :=
  let s := if code = 0 then countReg Reg.vlqAcksSent 1 s else s
  match hold with
  | none => s
  | some k => slotSent k code seq s

/-- What the end of a transmission means to its sender (10 R425, 11 R437, R438). -/
def txSettle (t : Transmission) (code : Nat) (s : State) : State :=
  match t.kind with
  | .slot k => slotSent k code (frameSeq t.bytes) s
  | .ack hold => ackSent hold code (frameSeq t.bytes) s
  | .carrier id => finishCmd id (if code = 0 then Oc.done else Oc.failed) s

/-- Where a transmission stands (10 R409): its radio's state must be one of those given. -/
def radioIn (s : State) (rs : List Nat) : Bool := rs.contains (radioState s)

/-- A transmission ends with a code (10 R414, R424): it is logged and counted, its coexistence request withdrawn, a
reservation not charged is returned with it. The radio's next state is the caller's. -/
def txEnd (t : Transmission) (code : Nat) (s : State) : State :=
  let hold := if t.ramped then t.startUs - t.step3Us else if t.step3Us = 0 then 0 else vlrUs s - t.step3Us
  let s := s |> setRadio { s.radio with tx := none, onAir := .silent } |> coxDrop
    |> setReg Reg.vlrTxLog0 (BitVec.ofNat 32 t.reqUs)
    |> setReg Reg.vlrTxLog1 (BitVec.ofNat 32 (if t.ramped then t.startUs else 0))
    |> setReg Reg.vlrTxLog2 (fieldWord 31 24 code ||| fieldWord 23 23 (bit01 t.capped) ||| fieldWord 15 0 (capAt 65535 hold))
  let s := if code = 0 then countReg Reg.vlrTxFrames 1 s
    else if 0x20 ≤ code then s |> countReg Reg.vlrTxFailed 1 |> raiseEvent 0x20 2
    else s
  txSettle t code s

/-! ## The start of a transmission (10 R409, 11 R447 to R449) -/

/-- Whether a transmission must leave the acknowledgement reserve (11 R448): an ordinary frame, or an acknowledgement
that carries data. -/
def needsReserve (k : TxKind) : Bool :=
  match k with
  | .slot _ => true
  | .ack hold => hold.isSome
  | .carrier _ => false

/-- The sub-band check, then the power check, then the duty check (11 R447): a refusal code, or 0 with the sub-band. -/
def regulatory (s : State) (t : Transmission) : Nat × Nat :=
  match subBandOf s s.radio.cfg t.channel with
  | none => (0x10, 8)
  | some i =>
    if signed8 (bitsOf (subLim s i) 31 24) < signed8 (bitsOf s.radio.cfg.pa 7 0) then (0x11, i)
    else if dutyOk s i t.airtime (needsReserve t.kind) then (0, i) else (0x12, i)

/-- The counter register of a regulatory refusal. -/
def refusedReg (code : Nat) : Nat :=
  if code = 0x10 then Reg.regRefusedChannel else if code = 0x11 then Reg.regRefusedPower else Reg.regRefusedDuty

/-- An attempt has passed the checks of step 1 (11 R437). -/
def countAttempt (k : TxKind) (s : State) : State :=
  let bump := fun (j : Nat) => setOut j { outAt s j with attempts := (outAt s j).attempts + 1 } s
  match k with
  | .slot j => bump j
  | .ack (some j) => bump j
  | _ => s

/-- Step 1 of a transmission (10 R391, R409, R410; 11 R447 to R449, R451): a refused one drives nothing; one that passes
abandons a detection, reserves its airtime and turns the radio; on a FAILED synthesiser it ends at once. -/
def txBegin (t : Transmission) (s : State) : State :=
  let s := latchConfig s
  let t := { t with reqUs := vlrUs s, step3Us := 0 }
  if radioMode s = 0 ∨ radioMode s = 2 then txEnd t 0x23 s
  else if !(configOk s.radio.cfg t.channel) then txEnd t 0x22 s
  else
    let (code, i) := regulatory s t
    if code ≠ 0 then s |> raiseEvent 0x23 0 |> countReg (refusedReg code) 1 |> txEnd t code
    else
      let s := countAttempt t.kind s
      if synthState s = Sy.failed then txEnd t 0x20 s
      else
        let s := s |> setRadio { s.radio with tx := some { t with band := i }, rx := none } |> setRadioState Ra.turnTx
          |> setOnMeter false |> setSynth (if synthState s = Sy.calibrating then Sy.calibrating else Sy.settling)
        if 96 ≤ regBits s Reg.coxCtrl 25 16 then coxRaise t.pri s else s

/-- A SELF_TEST of VLR or VLM runs: no packet is received or sent (03 R140). -/
def radioTested (s : State) : Bool := (testsOf s 0x20 ++ testsOf s 0x21).any (fun t => t.started && t.code == 0xF0)

/-- A transmission is requested (10 R409): it starts at once in LISTEN, DETECTED, CAL, TURN_RX, and where the radio is not
listening at all; it waits through a capture or another transmission. -/
def txRequest (t : Transmission) (s : State) : State :=
  let r := radioState s
  if r = Ra.capture ∨ (Ra.turnTx ≤ r ∧ r ≤ Ra.rampDown) ∨ radioTested s then
    setRadio { s.radio with waiting := s.radio.waiting ++ [t] } s
  else txBegin t s

/-- An acknowledgement is too late to be sent (11 R441): it is counted, and a HOLD slot it would have carried waits on. -/
def ackLate (k : TxKind) (s : State) : State :=
  let s := countReg Reg.vlqAckLate 1 s
  match k with
  | .ack (some j) =>
    if (outAt s j).state ≠ Sl.active then s
    else if (outAt s j).cancelled then slotEnd j 4 s
    else setOut j { outAt s j with state := Sl.waitNode } s
  | _ => s

/-- The instant a waiting transmission can start: one starts, unless its step 1 drives nothing, when the next may (10
R409); with none the radio does what `idle` says. -/
def serveWaiting (fuel : Nat) (idle : State → State) (s : State) : State :=
  match fuel with
  | 0 => idle s
  | n + 1 =>
    match s.radio.waiting with
    | [] => idle s
    | t :: rest =>
      let late : Bool := match t.kind with
        | .ack _ => decide (t.step3Us + 2000 < vlrUs s)
        | _ => false
      let s := setRadio { s.radio with waiting := rest } s
      if late then serveWaiting n idle (ackLate t.kind s)
      else
        let s := txBegin t s
        if s.radio.tx.isSome then s else serveWaiting n idle s

/-- Serve waiting transmissions, each at most once. -/
def serveNext (idle : State → State) (s : State) : State := serveWaiting (s.radio.waiting.length + 1) idle s

/-- A capture or detection is over: a waiting transmission starts, else the radio listens (10 R402, R403, R405). -/
def receptionOver (s : State) : State :=
  s |> setRadio { s.radio with rx := none } |> serveNext (resumeListen Sy.locked)

/-- The carrier is off, or the transmission ended without one: the next transmission starts with VSW kept in transmit, or
VSW turns to receive (10 R409, R410). -/
def txOver (s : State) : State :=
  serveNext (fun t => if synthState t = Sy.calibrating then setRadioState Ra.cal t
    else t |> setRadio { t.radio with turnUs := vlrUs t } |> setRadioState Ra.turnRx) s

/-- End the transmission in progress without a ramp (10 R410, 11 R452). -/
def txAbandon (code : Nat) (s : State) : State :=
  match s.radio.tx with
  | none => s
  | some t => s |> txEnd t code |> txOver

/-- The amplifier ramps down at once, and the transmission will end with a code (10 R411, 11 R453). -/
def txCut (code : Nat) (s : State) : State :=
  match s.radio.tx with
  | none => s
  | some t =>
    let down := if radioState s = Ra.rampDown then t.downUs else vlrUs s
    s |> setRadio { s.radio with tx := some { t with code := code, downUs := down }, onAir := .silent } |> setRadioState Ra.rampDown

/-- The ramp-up starts (10 R409, R410; 11 R449): the reservation becomes a charge. -/
def txRamp (t : Transmission) (s : State) : State :=
  s |> setRadio { s.radio with tx := some { t with ramped := true, startUs := vlrUs s } } |> chargeBucket t.band t.airtime
    |> setRadioState Ra.rampUp

/-- Whether a ramp-up may start: the synthesiser is LOCKED, the grant is present (10 R410, 11 R452), and no test runs (03
R657). -/
def rampReady (s : State) : Bool := synthState s == Sy.locked && granted s && !(radioTested s)

/-- The ramp-up of a held transmission starts once it may (10 R410, 11 R452). -/
def txTryRamp (s : State) : State :=
  match s.radio.tx with
  | none => s
  | some t => if radioState s = Ra.held ∧ rampReady s then txRamp t s else s

/-- The synthesiser locks (10 R410, R418). -/
def synthLocks (s : State) : State :=
  if synthState s = Sy.settling then s |> setSynth Sy.locked |> txTryRamp else s

/-! ## Acknowledgements (11 R438, R440, R441) -/

/-- The oldest HOLD slot that waits for a node. -/
def holdFor (s : State) (node : Nat) : Option Nat := oldestSlot s (fun o => o.state == Sl.waitNode && o.node == node)

/-- A transmission record not yet started. -/
def newTx (kind : TxKind) (channel : Nat) (bytes : List Byte) (airtime : Nat) (pri : Bool) : Transmission :=
  { kind := kind, channel := channel, bytes := bytes, airtime := airtime, pri := pri, reqUs := 0, step3Us := 0,
    startUs := 0, band := 8, ramped := false, capped := false, code := 0, level := 0, downUs := 0, modulated := false }

/-- Whether an acknowledgement that carries `p` payload bytes would fail only because of the reserve (11 R448). -/
def reserveFails (s : State) (channel p : Nat) : Bool :=
  let c := if packetInHand s then s.radio.cfg else liveConfig s
  match subBandOf s c channel with
  | none => false
  | some i => dutyOk s i (packetAirtime c (17 + p)) false && !(dutyOk s i (packetAirtime c (17 + p)) true)

/-- Send an acknowledgement (11 R429, R438, R441): byte 0 names the frame, and the oldest HOLD slot's payload follows
unless only the reserve forbids it. PORT and ENC of one without a HOLD slot are free values (notes/assumptions/39.md). Where
the node's counter cannot advance there is none, and its HOLD slot ends KEY_EXHAUSTED (R431). -/
def ackTransmit (a : AckDue) (s : State) : State :=
  let hold := if a.data then holdFor s a.node else none
  let hold := match hold with
    | some k => if reserveFails s a.channel (1 + (outAt s k).payload.length) then none else some k
    | none => none
  let o := (hold.map (outAt s)).getD OutSlot.free
  let payload := BitVec.ofNat 8 a.seq :: (if hold.isSome then o.payload else [])
  let free := Config.freeNat s.freeIndex
  let enc := if hold.isSome then o.enc else free / 16 % 2 == 1
  let port := if hold.isSome then o.port else free % 16
  match sealFrame a.node (hold.isSome && o.ackReq) true enc port payload (useFree s) with
  | (s, none) =>
    match hold with
    | some k => slotEnd k 0x30 s
    | none => s
  | (s, some bytes) =>
    let s := match hold with
      | some k => setOut k { outAt s k with state := Sl.active } s
      | none => s
    let c := if packetInHand s then s.radio.cfg else liveConfig s
    txRequest { newTx (.ack hold) a.channel bytes (packetAirtime c bytes.length) true with step3Us := a.dueUs } s

/-- Whether the acknowledgement may go: on a paired primary only once the secondary has acknowledged L, the cache entry
and a due mark (16 R592). -/
def ackAllowed (a : AckDue) (s : State) : State × Bool :=
  let (s, ok) := markReady a.node s
  (s, ok && !(valveUnacked s [2#8, 4#8] a.node))

/-- The oldest pending acknowledgement goes if it can, or is counted late (11 R441). -/
def ackTry (s : State) : State :=
  match s.link.acks with
  | [] => s
  | a :: rest =>
    if a.dueUs + 2000 < vlrUs s then s |> setLink { s.link with acks := rest } |> countReg Reg.vlqAckLate 1
    else
      let (s, ok) := ackAllowed a s
      if ok then s |> setLink { s.link with acks := rest } |> ackTransmit a
      else setLink { s.link with acks := { a with started := true } :: rest } s

/-- Start an attempt of slot `k` (11 R436, R437): the frame is sealed at the first one; a node whose counter cannot
advance ends the slot KEY_EXHAUSTED; on a paired primary a due mark is mirrored and acknowledged first (16 R592). -/
def startAttempt (k : Nat) (s : State) : State :=
  let o := outAt s k
  let send := fun (bytes : List Byte) (s : State) =>
    let s := setOut k { outAt s k with state := Sl.active, sealed := some bytes } s
    txRequest (newTx (.slot k) o.channel bytes (packetAirtime (liveConfig s) bytes.length) o.pri) s
  match o.sealed with
  | some bytes => send bytes s
  | none =>
    let (s, ok) := markReady o.node s
    if !ok then setLink { s.link with markWait := some k } s
    else match sealFrame o.node o.ackReq false o.enc o.port o.payload s with
    | (s, none) => slotEnd k 0x30 s
    | (s, some bytes) => send bytes s

/-- Whether a slot attempt may start (11 R436): none while an acknowledgement is pending or awaited, or while the radio is
not in LISTEN; none on an active secondary. -/
def attemptAllowed (s : State) : Bool :=
  linkActive s && !(linkSilent s) && s.link.acks.isEmpty && s.link.await.isNone && radioState s == Ra.listen && !(radioTested s)

/-- The secondary has acknowledged more (16 R592): what waited for it goes on. -/
def mirrorAcked (s : State) : State :=
  let s := match s.link.acks with
    | a :: _ => if a.started then ackTry s else s
    | [] => s
  match s.link.markWait with
  | none => s
  | some k =>
    if valveUnacked s [3#8] (outAt s k).node then s
    else
      let s := setLink { s.link with markWait := none } s
      if attemptAllowed s && (outAt s k).state == Sl.queued then startAttempt k s else s

end Sys2Proof.Machine
end

