-- ==== Sys2Proof/Machine/Decoder.lean ====
section
/-!
DEFINITION. Sys2Proof/Machine/Decoder.lean: the shared trellis decoder (01 R35 to R43) and what becomes of a decoded
packet (10 R404, R406).
-/
namespace Sys2Proof.Machine

/-- Decoding time of a unit in steps of 25 ns (01 R36). -/
def unitCost (bits : Nat) : Nat := 80 + bits

/-- Bits of the next unit of a request (01 R35). -/
def nextUnit (left : Nat) : Nat := min left 4096

/-- Carrier cycles in steps of 25 ns. -/
def cyclesSteps (n : Nat) : Nat := n * 1000 / 339

/-- The decoder starts its next unit: the oldest urgent request, else the oldest normal one (01 R37). -/
def decoderNext (s : State) : State :=
  let d := s.decoder
  match d.urgent, d.normal with
  | r :: _, _ =>
    setDecoder { d with running := some true, share := d.share ++ [(s.now, unitCost (nextUnit r.left))] } s
  | [], _ :: _ => setDecoder { d with running := some false } s
  | [], [] => setDecoder { d with running := none } s

/-- Decoder time of urgent units in the last 2 ms and of urgent requests waiting, in steps of 25 ns (01 R39). -/
def urgentShare (s : State) : Nat :=
  ((s.decoder.share.filter (fun e => s.now < e.1 + 27120)).map (·.2)).sum
    + ((s.decoder.urgent.drop (if s.decoder.running = some true then 1 else 0)).map (fun r => unitCost r.bits)).sum

/-- Submit a request (01 R37 to R39): an urgent one beyond the share is served as normal and counted. -/
def decoderSubmit (mason : Nat) (urgent : Bool) (bits : Nat) (frame : Option CapturedFrame) (s : State) : State :=
  let tooMuch := urgent && 20000 < urgentShare s + unitCost bits
  let s := if tooMuch then countReg Reg.itgUrgentDemoted 1 s else s
  let class_ := urgent && !tooMuch
  let r : DecodeReq := { mason := mason, left := bits, urgent := class_, submitted := s.now, bits := bits, frame := frame }
  let share := s.decoder.share.filter (fun e => s.now < e.1 + 27120)
  let s := if class_ then setDecoder { s.decoder with urgent := s.decoder.urgent ++ [r], share := share } s
    else setDecoder { s.decoder with normal := s.decoder.normal ++ [r], share := share } s
  if s.decoder.running.isNone then decoderNext s else s

/-- DECODE_REQUEST (01 R35 to R38): mason 2, or mason 3, the only one that submits urgent requests. -/
def execDecodeRequest (mason3 urgent : Bool) (bits : Nat) (s : State) : Out :=
  .next (if domainOn s 8 && 0 < bits then decoderSubmit (if mason3 then 3 else 2) (mason3 && urgent) bits none s else s)

/-- The three words of a reception report (10 R406). -/
def reportWords (rx : Reception) (rate corr coded : Nat) : List Word :=
  [fieldWord 31 16 rx.foffset.toNat ||| fieldWord 15 8 rx.level.toNat ||| fieldWord 7 7 (bit01 rx.portB)
     ||| fieldWord 6 6 (bit01 rx.word1) ||| fieldWord 5 3 rx.errors ||| fieldWord 2 0 rate,
   fieldWord 31 16 corr ||| fieldWord 15 0 coded, BitVec.ofNat 32 rx.syncUs]

/-- VLM.LAST_RX0 to LAST_RX2 (10 R406). -/
def setLastRx (ws : List Word) (s : State) : State :=
  s |> setReg Reg.vlmLastRx0 (ws.getD 0 0#32) |> setReg Reg.vlmLastRx1 (ws.getD 1 0#32)
    |> setReg Reg.vlmLastRx2 (ws.getD 2 0#32)

/-- A packet has been decoded (10 R404): its length byte is compared with the provisional one; a frame that agrees is
passed to the link layer with its report. It passes a check-value unit on the stream (14 R543). -/
def frameDecoded (f : CapturedFrame) (s : State) : State :=
  let s := chkValveFrame false f.bytes s
  if some (leField f.bytes 0 1) ≠ f.rx.length then s |> countReg Reg.vlmLengthMismatch 1 |> raiseEvent 0x21 0
  else
    s |> countReg Reg.vlmDecoded 1 |> setLastRx (reportWords f.rx f.rate f.corr f.coded)
      |> setLink { s.link with inbox := s.link.inbox ++ [f] }

/-- A request is complete: one later than its bound is counted (01 R40 to R42); a valve packet goes on its way. -/
def decodeComplete (r : DecodeReq) (s : State) : State :=
  let took := cyclesSteps (s.now - r.submitted)
  let bound := if r.urgent then 4176 + unitCost r.bits else 80000
  let s := if bound < took then countReg Reg.itgDecodeLate 1 s else s
  match r.frame with
  | some f => if domainOn s 7 then frameDecoded f s else s
  | none => s

/-- Take a unit off the head of a class: the list left, and the request if it is complete. -/
def takeUnit (rs : List DecodeReq) : List DecodeReq × Option DecodeReq :=
  match rs with
  | [] => ([], none)
  | r :: t =>
    if r.left ≤ 4096 then (t, some r) else ({ r with left := r.left - 4096 } :: t, none)

/-- DECODE_UNIT_END (01 R35 to R42). -/
def execDecodeUnitEnd (s : State) : Out :=
  .next (match s.decoder.running with
    | none => s
    | some class_ =>
      let (rest, out) := takeUnit (if class_ then s.decoder.urgent else s.decoder.normal)
      let s := if class_ then setDecoder { s.decoder with urgent := rest } s
        else setDecoder { s.decoder with normal := rest } s
      let s := match out with
        | some r => decodeComplete r s
        | none => s
      decoderNext s)

/-- The requests of a mason are withdrawn (01 R43, 10 R422); a unit of one of them that was running is over. -/
def decoderWithdraw (mason : Nat) (s : State) : State :=
  let keep := fun (r : DecodeReq) => r.mason != mason
  let d := s.decoder
  let stays := match d.running with
    | none => true
    | some class_ => ((if class_ then d.urgent else d.normal).head?.map keep).getD true
  let s := setDecoder { d with urgent := d.urgent.filter keep, normal := d.normal.filter keep } s
  if stays then s else decoderNext s

end Sys2Proof.Machine
end

