-- ==== Sys2Proof/Machine/Radio.lean ====
section
/-!
DEFINITION. Sys2Proof/Machine/Radio.lean: the commands of the valve radio: reception, transmission, the synthesiser, meter
frames and the coexistence wires (10; 11 R451 to R453).
-/
namespace Sys2Proof.Machine

/-- Do something while PD7 is on. -/
def valve (f : State → State) (s : State) : Out := .next (if domainOn s 7 then f s else s)

/-! ## Reception (10 R400 to R407) -/

/-- DETECTION (10 R400): in LISTEN with the synthesiser LOCKED, once PQT preamble symbols in a row have come in on either
receiver; the receiver with the higher level is chosen, port A on equal levels. On the meter channel PQT does not apply
(R419). -/
def execDetection (symbolsA symbolsB : Nat) (levelA levelB : Byte) (s : State) : Out :=
  valve (fun s =>
    let meter := regBit s Reg.vlrState 27
    let pqt := if meter then 1 else regBits s Reg.vlmDetect 4 0
    let useB := portBUsed s
    if radioState s = Ra.listen ∧ synthState s = Sy.locked ∧ !(radioTested s)
        ∧ (pqt ≤ symbolsA ∨ (useB ∧ pqt ≤ symbolsB)) then
      let s := latchConfig s
      let portB := useB && decide (levelA.toInt < levelB.toInt)
      let rx : Reception :=
        { portB := portB, level := if portB then levelB else levelA, foffset := 0#16, word1 := false, errors := 0,
          syncUs := 0, channel := listenChannel s, length := none, atUs := vlrUs s, meter := meter }
      s |> setRadio { s.radio with rx := some rx } |> setRadioState Ra.detected |> countReg Reg.vlmDetects 1
        |> setRegBits Reg.vlrState 23 16 levelA.toNat |> setRegBits Reg.vlrState 15 8 (if useB then levelB.toNat else 0x80)
    else s) s

/-- The µs that `n` symbols take, rounded up (10 R394). -/
def symbolsUs (c : RadioConfig) (n : Nat) : Nat := (n * 1000000 + symbolRate c - 1) / symbolRate c

/-- The time from the detection in which a sync word may end (10 R402). -/
def syncWaitUs (c : RadioConfig) : Nat := symbolsUs c (8 * bitsOf c.detect 15 8)

/-- A carrier offset as latched (10 R406). -/
def latchOffset (hz : Int) : BitVec 16 := BitVec.ofInt 16 (max (-32767) (min 32767 hz))

/-- SYNC_FOUND (10 R401, R405): the bits just received, the last of them lowest, are an enabled word within its tolerance,
on a carrier within the capture range, before SYNC_WAIT is over. -/
def execSyncFound (bits : Word) (foffset : Int) (s : State) : Out :=
  valve (fun s =>
    let c := s.radio.cfg
    match s.radio.rx, syncFoundIn c bits with
    | some rx, some (word1, errors) =>
      if radioState s = Ra.detected ∧ !rx.meter ∧ foffset.natAbs ≤ captureRange c ∧ vlrUs s ≤ rx.atUs + syncWaitUs c then
        s |> setRadio { s.radio with
              rx := some { rx with word1 := word1, errors := errors, foffset := latchOffset foffset, syncUs := vlrUs s } }
          |> setRadioState Ra.capture |> countReg Reg.vlmSyncs 1
      else s
    | _, _ => s) s

/-- FALSE_DETECT (10 R402): SYNC_WAIT is over without a sync word. On the meter channel VLM does not bound it (R419). -/
def execFalseDetect (s : State) : Out :=
  valve (fun s =>
    match s.radio.rx with
    | none => s
    | some rx =>
      if radioState s = Ra.detected ∧ (rx.meter ∨ rx.atUs + syncWaitUs s.radio.cfg ≤ vlrUs s) then
        s |> countReg Reg.vlmFalseDetects 1 |> receptionOver
      else s) s

/-- The length byte of a frame from its first byte as decoded (10 R397, R403). -/
def lengthOf (c : RadioConfig) (raw : Byte) : Byte := (airBytes 1 (whiten c (airBits [raw]))).getD 0 0#8

/-- PROVISIONAL_LENGTH (10 R403): the short decoder's first byte, still whitened; a length of 0 or above MAX_LEN ends the
capture. -/
def execProvisionalLength (raw : Byte) (s : State) : Out :=
  valve (fun s =>
    let length := lengthOf s.radio.cfg raw
    match s.radio.rx with
    | none => s
    | some rx =>
      if radioState s ≠ Ra.capture then s
      else if length.toNat = 0 ∨ bitsOf s.radio.cfg.detect 31 24 < length.toNat then
        s |> countReg Reg.vlmBadLength 1 |> raiseEvent 0x21 1 |> receptionOver
      else setRadio { s.radio with rx := some { rx with length := some length.toNat } } s) s

/-- A captured packet (10 R404, R406): the frame that its coded bits decode to, de-whitened, and the coded bits that differ
from it encoded again. A block that is a frame's coded block decodes to that frame; of any other the decoder's answer is
given. -/
def capturedFrame (c : RadioConfig) (rx : Reception) (n : Nat) (hard : List Bool) (decoded : List Byte) (us : Nat) : CapturedFrame :=
  let raw := (cleanDecode c (8 * (n + 1)) hard).getD (airBits (padTo (n + 1) decoded))
  { rx := rx, bytes := airBytes (n + 1) (whiten c raw), corr := capAt 65535 (differences hard (codedBlock c raw)),
    coded := hard.length, rate := bitsOf c.modulation 7 4, endUs := us }

/-- CAPTURE_END (10 R403 to R405): all coded bits of the provisional length have been captured, as soft decisions of which 4
and above are a 1; the packet goes to the decoder, urgent when its frame asks for an acknowledgement (01 R38), and
listening resumes or a waiting transmission starts. -/
def execCaptureEnd (soft : List (Fin 8)) (decoded : List Byte) (s : State) : Out :=
  valve (fun s =>
    match s.radio.rx with
    | none => s
    | some rx =>
      match rx.length with
      | none => s
      | some n =>
        let c := s.radio.cfg
        let k := frameCoded c (n + 1)
        if radioState s ≠ Ra.capture ∨ soft.length ≠ k ∨ (vlrUs s + 1 - rx.syncUs) * bitRate (bitsOf c.modulation 7 4) < k * 1000000 then s
        else
          let f := capturedFrame c rx n (soft.map (fun d => decide (4 ≤ d.val))) decoded (vlrUs s)
          let urgent := (f.bytes.getD 1 0#8).getLsbD 7
          let s := if domainOn s 8 then decoderSubmit 3 urgent (8 * (n + 1) + 6) (some f) s else s
          receptionOver s) s

/-! ## Transmission (10 R408 to R414) -/

/-- The level on the air in 0.5 dB steps: above +17 dBm needs VPA of 3.3 V or more, here in units of 0.1 V (10 R412). -/
def conducted (pa : Word) (vpa : Byte) : Int :=
  let level := signed8 (bitsOf pa 7 0)
  if vpa.toNat < 33 then min 34 level else level

/-- TX_RAMP_UP_START (10 R409, R410, R412, R413; 11 R452): 96 µs after the start the ramp starts if the synthesiser is LOCKED
and the grant present; otherwise the transmission is held. VPA, in units of 0.1 V, caps its level, and below 2.7 V ends
it. -/
def execTxRampUpStart (vpa : Byte) (s : State) : Out :=
  valve (fun s =>
    match s.radio.tx with
    | none => s
    | some t =>
      if radioState s ≠ Ra.turnTx ∨ vlrUs s < t.reqUs + 96 then s
      else
        let level := conducted s.radio.cfg.pa vpa
        let t := { t with step3Us := vlrUs s, capped := decide (level < signed8 (bitsOf s.radio.cfg.pa 7 0)), level := level }
        let s := setRadio { s.radio with tx := some t } s
        if vpa.toNat < 27 then s |> raiseFault 0x20 1 vpa.toNat |> txAbandon 0x25
        else if rampReady s then txRamp t s
        else
          let s := setRadioState Ra.held s
          if synthState s = Sy.locked then s else s |> raiseEvent 0x20 1 |> countReg Reg.vlrTxHeld 1) s

/-- What a transmission sends between its ramps (10 R396, R425). -/
def airOf (c : RadioConfig) (t : Transmission) : OnAir :=
  match t.kind with
  | .carrier _ => if t.modulated then .pn9 else .carrier
  | _ => .symbols (packetSymbols c t.bytes)

/-- TX_FIRST_SYMBOL (10 R409): UP after the start of the ramp-up. -/
def execTxFirstSymbol (s : State) : Out :=
  valve (fun s =>
    match s.radio.tx with
    | none => s
    | some t =>
      if radioState s = Ra.rampUp ∧ t.startUs + (bitsOf s.radio.cfg.pa 21 16 + 1) ≤ vlrUs s then
        s |> setRadio { s.radio with onAir := airOf s.radio.cfg t } |> setRadioState Ra.tx
      else s) s

/-- TX_RAMP_DOWN_START (10 R409): the last symbol has ended; the frame has passed a check-value unit on the stream (14
R543). -/
def execTxRampDownStart (s : State) : Out :=
  valve (fun s =>
    match s.radio.tx with
    | none => s
    | some t =>
      if radioState s = Ra.tx ∧ t.startUs + t.airtime ≤ vlrUs s + (bitsOf s.radio.cfg.pa 29 24 + 1) then
        s |> chkValveFrame true t.bytes |> setRadio { s.radio with tx := some { t with downUs := vlrUs s }, onAir := .silent }
          |> setRadioState Ra.rampDown
      else s) s

/-- CARRIER_OFF (10 R409): DOWN after the start of the ramp-down the transmission ends; another that waits starts, else VSW
turns to receive. -/
def execCarrierOff (s : State) : Out :=
  valve (fun s =>
    match s.radio.tx with
    | none => s
    | some t =>
      if radioState s = Ra.rampDown ∧ t.downUs + (bitsOf s.radio.cfg.pa 29 24 + 1) ≤ vlrUs s then
        s |> txEnd t t.code |> txOver
      else s) s

/-- TX_TO_RX (10 R409): 64 µs after the carrier is off. -/
def execTxToRx (s : State) : Out :=
  valve (fun s => if radioState s = Ra.turnRx ∧ s.radio.turnUs + 64 ≤ vlrUs s then resumeListen Sy.locked s else s) s

/-- SYNTH_LOCKED (10 R410): a HELD transmission starts its ramp-up. -/
def execSynthLocked (s : State) : Out := valve (fun s => if radioState s = Ra.held then synthLocks s else s) s

/-- Whether a transmission has been held for `us` µs since its step 3 (10 R410, 11 R452). -/
def heldFor (us : Nat) (s : State) : Bool :=
  match s.radio.tx with
  | some t => radioState s == Ra.held && t.step3Us + us ≤ vlrUs s
  | none => false

/-- HOLD_LIMIT_EXPIRY (10 R410): the wait for the synthesiser is over. -/
def execHoldLimitExpiry (s : State) : Out :=
  valve (fun s => if heldFor (bitsOf s.radio.cfg.holdLimit 9 0) s ∧ synthState s ≠ Sy.locked then txAbandon 0x20 s else s) s

/-- LOCK_LOST (10 R411, R415): between the start of the ramp-up and the end of the ramp-down. -/
def execLockLost (s : State) : Out :=
  valve (fun s =>
    match s.radio.tx with
    | none => s
    | some t =>
      if Ra.rampUp ≤ radioState s ∧ radioState s ≤ Ra.rampDown then
        s |> txCut (if t.code = 0 then 0x21 else t.code) |> countReg Reg.vlrLockLost 1 |> markCalDue |> setSynth Sy.settling
      else s) s

/-- PA_FAULT (10 R411, R413): at step 3 the transmission ends without a carrier; later the amplifier ramps down. -/
def execPaFault (vpa : Byte) (s : State) : Out :=
  valve (fun s =>
    match s.radio.tx with
    | none => s
    | some t =>
      let s := raiseFault 0x20 1 vpa.toNat s
      if radioState s = Ra.turnTx ∨ radioState s = Ra.held then txAbandon 0x25 s
      else txCut (if t.code = 0 then 0x25 else t.code) s) s

/-- Start of a carrier test: a transmission of its own (10 R425, 11 R448). -/
def startCarrier (ms : Nat) (modulated : Bool) (id _ticket : Nat) (s : State) : State :=
  let c := if packetInHand s then s.radio.cfg else liveConfig s
  txRequest { newTx (.carrier id) (listenChannel s) [] (ms * 1000 + rampUs c) false with modulated := modulated } s

/-- VLR door command CARRIER_TEST (10 R425). An active secondary and a stepped-down device do not transmit (11 R454), so
there it ends FAILED. -/
def doorCarrierTest (req : Requester) (word : Word) (s : State) : State :=
  let ms := bitsOf word 14 0
  doorWrite req 0x20 word
    (firstRefusal [(radioMode s == 0 || radioMode s == 2, 0x40), (ms == 0 || 10000 < ms, Oc.badArg)]) none
    (fun id ticket t => if linkSilent t then finishCmd id Oc.failed t else startCarrier ms (bitAt word 15) id ticket t) s

/-- CARRIER_TEST. -/
def execCarrierTest (req : Requester) (tag : Byte) (arg : BitVec 16) (s : State) : Out :=
  .next (doorIssue 0x20 doorCarrierTest req (doorWord tag 0x10 arg) s)

/-! ## The synthesiser (10 R415 to R418) -/

/-- CAL_DUE (10 R415): the die temperature is measured; a change of more than 10 °C since the last calibration makes one
due while AUTO_CAL is 1. -/
def execCalDue (temp : Byte) (s : State) : Out :=
  valve (fun s =>
    let s := setRegBits Reg.vlrSynth 15 8 temp.toNat s
    let d := signed8 temp.toNat - signed8 (regBits s Reg.vlrSynth 23 16)
    if s.radio.calibrated && regBit s Reg.vlrCtrl 28 && 10 < d.natAbs then markCalDue s else s) s

/-- Whether the radio is in a gap: LISTEN with no detection and no transmit request (10 R416). -/
def calGap (s : State) : Bool := radioState s == Ra.listen && s.radio.tx.isNone && s.radio.waiting.isEmpty

/-- CAL_START (10 R416): a due calibration starts in a gap. -/
def execCalStart (s : State) : Out :=
  valve (fun s => if calGap s && regBit s Reg.vlrSynth 27 then startCal s else s) s

/-- End the started self-test or calibration of a page with an outcome (03 R140). -/
def endTest (p code oc : Nat) (s : State) : State :=
  match s.doors.tests.find? (fun t => t.page == p && t.code == code && t.started) with
  | none => s
  | some t =>
    { s with doors := { s.doors with tests := s.doors.tests.filter (fun u => u.id != t.id) } } |> finishCmd t.id oc

/-- After a calibration, the radio goes on: to a transmission in hand, or to listening (10 R416). -/
def calOver (s : State) : State := if s.radio.tx.isSome then s else resumeListen Sy.settling s

/-- A calibration that found a band (10 R415, R416); one that became due while it ran waits on. -/
def calGood (vcoBand temp : Nat) (s : State) : State :=
  s |> setRadio { s.radio with calibrated := true, calFails := 0, retryDue := false } |> countReg Reg.vlrCals 1
    |> raiseEvent 0x20 0
    |> setReg Reg.vlrSynth (fieldWord 31 28 Sy.settling ||| fieldWord 27 27 (regBits s Reg.vlrSynth 27 27) ||| fieldWord 23 16 temp ||| fieldWord 15 8 temp ||| fieldWord 5 0 vcoBand)
    |> calOver |> endTest 0x20 0xF1 Oc.done

/-- A calibration that found none (10 R417): retried twice; the third in a row fails the synthesiser. -/
def calBad (vcoBand : Nat) (s : State) : State :=
  let n := s.radio.calFails + 1
  let s := countReg Reg.vlrCalFails 1 s
  if n < 3 then setRadio { s.radio with calFails := n, retryDue := true, calNow := s.now } s
  else
    s |> setRadio { s.radio with calFails := 0, retryDue := false } |> setSynth Sy.failed |> raiseFault 0x20 0 vcoBand
      |> calOver |> endTest 0x20 0xF1 Oc.failed

/-- CAL_DONE (10 R415 to R417): 180 µs after the calibration started. -/
def execCalDone (found : Bool) (vcoBand : Fin 64) (temp : Byte) (s : State) : Out :=
  valve (fun s =>
    if synthState s = Sy.calibrating ∧ !s.radio.retryDue ∧ passedUs s s.radio.calNow 180 then
      (if found then calGood vcoBand.val temp.toNat s else calBad vcoBand.val s)
    else s) s

/-- CAL_RETRY (10 R417): 10 ms after a failed calibration it runs again. -/
def execCalRetry (s : State) : Out :=
  valve (fun s =>
    if s.radio.retryDue && passedMs s s.radio.calNow 10 then setRadio { s.radio with retryDue := false, calNow := s.now } s else s) s

/-- SYNTH_SETTLED (10 R418). -/
def execSynthSettled (s : State) : Out := valve synthLocks s

/-! ## Meter frames (10 R419, R420; 11 R444) -/

/-- A meter frame's record (11 R444). -/
def meterRecord (m : MeterReport) (bad : Bool) (bytes : List Byte) (report : List Word) : List Word :=
  [fieldWord 31 24 0x51 ||| fieldWord 18 18 (bit01 m.modeC1) ||| fieldWord 17 17 (bit01 (m.formatB && m.modeC1))
     ||| fieldWord 16 16 (bit01 bad) ||| fieldWord 15 0 0xFFFF,
   fieldWord 15 0 bytes.length] ++ report ++ packWords bytes

/-- Deliver a meter frame to the inbound ring, or drop it (11 R444). -/
def meterDeliver (m : MeterReport) (bad : Bool) (bytes : List Byte) (report : List Word) (s : State) : State :=
  if queueFree s Reg.vlqQPop = 0 then countReg Reg.vlqMeterDropped 1 s
  else s |> queuePush Reg.vlqQPop (meterRecord m bad bytes report) |> countReg Reg.vlmMeterFrames 1 |> raiseEvent 0x22 0

/-- The bytes of a meter frame with its CRCs, and whether its chips were all good (10 R419): of mode T1, 12 chips a byte; of
mode C1, 8. -/
def meterBytes (m : MeterReport) (s : State) : List Byte × Bool :=
  if m.modeC1 then (airBytes (m.chips.length / 8) m.chips, m.chips.length % 8 == 0)
  else
    let (bs, ok) := chipBytes s (m.chips.length / 12) m.chips
    (bs, ok && m.chips.length % 12 == 0)

/-- METER_FRAME (10 R419, R421): the frame detected on the meter channel ends, in an enabled mode; it is delivered without
its CRCs if they pass, else with them if KEEP_BAD is 1. Chips take 10 µs each. -/
def execMeterFrame (report : MeterReport) (s : State) : Out :=
  valve (fun s =>
    match s.radio.rx with
    | none => s
    | some rx =>
      if rx.meter && radioState s == Ra.detected && regBit s Reg.vlrMeter (if report.modeC1 then 30 else 31) then
        let rx := { rx with foffset := latchOffset report.foffset, syncUs := vlrUs s - 10 * report.chips.length }
        let ws := reportWords rx 7 0 report.chips.length
        let (bytes, ok) := meterBytes report s
        let s := s |> useFreeN report.chips.length |> setLastRx ws
        (match (if ok then meterFrameData (report.formatB && report.modeC1) bytes else none) with
          | some data => meterDeliver report false data ws s
          | none =>
            let s := countReg Reg.vlmMeterBad 1 s
            if regBit s Reg.vlrMeter 29 then meterDeliver report true bytes ws s else s) |> receptionOver
      else s) s

/-! ## Coexistence (11 R451 to R453) -/

/-- COX_REQ_LEAD (11 R451): LEAD µs before the step 3 instant of the transmission in hand, which is past its step 1. -/
def execCoxReqLead (s : State) : Out :=
  valve (fun s =>
    match s.radio.tx with
    | some t =>
      if radioIn s [Ra.turnTx, Ra.held] ∧ t.reqUs + 96 ≤ vlrUs s + regBits s Reg.coxCtrl 25 16 then coxRaise t.pri s else s
    | none => s) s

/-- A grant withdrawn during the ramp-up or the packet (11 R453). -/
def coxAbort (s : State) : State :=
  match s.radio.tx with
  | none => s
  | some t =>
    if radioState s = Ra.rampUp ∨ radioState s = Ra.tx then
      s |> txCut (if t.code = 0 then 0x19 else t.code) |> setReg Reg.coxLastAbort (BitVec.ofNat 32 (vlrUs s))
        |> countReg Reg.coxAborts 1 |> raiseEvent 0x24 0
    else s

/-- COX_GNT_CHANGE (11 R451 to R453): two equal samples change the grant's state. -/
def execCoxGntChange (active : Bool) (s : State) : Out :=
  valve (fun s =>
    if s.radio.coxGnt = active then s
    else
      let s := setRadio { s.radio with coxGnt := active } s
      if !(regBit s Reg.coxCtrl 31) then s
      else if active then s |> countReg Reg.coxGrants 1 |> txTryRamp
      else coxAbort s) s

/-- COX_TIMEOUT (11 R452): the wait for the grant is over. -/
def execCoxTimeout (s : State) : Out :=
  valve (fun s =>
    if heldFor (regBits s Reg.coxCtrl 11 0) s ∧ !(granted s) then
      s |> countReg Reg.coxGntTimeouts 1 |> raiseEvent 0x24 1 |> txAbandon 0x18
    else s) s

end Sys2Proof.Machine
end

