-- ==== Sys2Proof/Machine/Link.lean ====
section
/-!
DEFINITION. Sys2Proof/Machine/Link.lean: the commands of the valve link: sending, slot boundaries, acknowledgements,
inbound frames, duty buckets, and the key store's doors, which depend on the outbound slots (11; 12 R474).
-/
namespace Sys2Proof.Machine

/-! ## Sending (11 R434 to R439) -/

/-- Whether a SEND descriptor is BAD_ARG (11 R434). -/
def sendBad (d : List Byte) (room : Nat) : Bool :=
  let flags := leField d 4 1
  let hold := flags / 2 % 2 == 1
  let p := leField d 7 1
  512 ≤ leField d 0 2 || (!hold && 1024 ≤ leField d 2 2) || 16 ≤ flags || 8 ≤ leField d 5 1 || 16 ≤ leField d 6 1
    || (if hold then 126 else 127) < p || leField d 8 2 == 0 || 1000 < leField d 8 2
    || (if hold then leField d 10 2 == 0 else leField d 10 2 != 0) || !(zeroField d 12 4) || room < p

/-- The lowest FREE slot (11 R435). -/
def lowestSlot (s : State) : Option Nat := (List.range 32).find? (fun k => (outAt s k).state == Sl.free)

/-- Copy a descriptor into the lowest FREE slot (11 R434 to R436). -/
def takeSlot (d payload : List Byte) (id ticket : Nat) (s : State) : State :=
  match lowestSlot s with
  | none => s
  | some k =>
    let n := s.link.order + 1
    let o : OutSlot :=
      { OutSlot.free with id := id, ticket := ticket, order := n, desc := d, payload := payload, acceptedNow := s.now }
    s |> setLink { s.link with order := n } |> setOut k { o with state := if o.hold then Sl.waitNode else Sl.queued }

/-- VLQ door command SEND (11 R434, R435). -/
def doorSend (req : Requester) (word : Word) (s : State) : State :=
  let a := 16 * bitsOf word 15 0
  let s := settleRange a 16 s
  let d := mortarBytes s a 16
  let p := leField d 7 1
  let bad := sendBad d (0x100000 - (a + 16))
  let s := if bad then s else settleRange (a + 16) p s
  let fresh := doorFresh req 0x22 word s
  let s := if fresh && !bad then nodeCheck (leField d 0 2) s else s
  doorWrite req 0x22 word
    (firstRefusal [(!(regBit s Reg.vlqCtrl 31), 0x40), (activeSecondary s, 0x42), (bad, Oc.badArg),
      ((nodeEntry s (leField d 0 2)).isNone, 0x41), (freeSlots s == 0, Oc.queueFull)])
    (some 0x22) (takeSlot d (mortarBytes s (a + 16) p)) s

/-- SEND. -/
def execSend (req : Requester) (tag : Byte) (arg : BitVec 16) (s : State) : Out :=
  .next (doorIssue 0x22 doorSend req (doorWord tag 0x10 arg) s)

/-- The running slot with a ticket. -/
def slotOfTicket (s : State) (ticket : Nat) : Option Nat :=
  (List.range 32).find? (fun k => (outAt s k).live && (outAt s k).ticket == ticket)

/-- Cancel slot `k` (11 R439): one whose transmission is already at step 1 runs to its end. -/
def cancelSlot (k : Nat) (s : State) : State :=
  let o := outAt s k
  if o.state = Sl.active then setLink { s.link with slots := s.link.slots.set k { o with cancelled := true } } s
  else slotEnd k 4 s

/-- VLQ door command CANCEL (11 R439). -/
def doorSendCancel (req : Requester) (word : Word) (s : State) : State :=
  let k := slotOfTicket s (bitsOf word 15 0)
  doorWrite req 0x22 word (firstRefusal [(k.isNone, 0x43)]) none
    (fun id _ t => (match k with
      | some k => cancelSlot k t
      | none => t) |> finishCmd id Oc.done) s

/-- SEND_CANCEL. -/
def execSendCancel (req : Requester) (tag : Byte) (arg : BitVec 16) (s : State) : Out :=
  .next (doorIssue 0x22 doorSendCancel req (doorWord tag 0x11 arg) s)

/-- The meter portion of SHARED starts or ends at a slot boundary (10 R421). -/
def meterSwitch (meter : Bool) (s : State) : State :=
  if radioMode s ≠ 3 ∨ s.radio.meterPortion = meter then s
  else
    let s := setRadio { s.radio with meterPortion := meter } s
    if radioState s = Ra.listen ∧ s.link.await.isNone then resumeListen Sy.settling s else s

/-- Whether SHARED listens to meters now (10 R421): SHARE percent of each cycle, from a point of it that is free. -/
def meterTime (s : State) : Bool :=
  let cycle := regBits s Reg.vlrMeter 7 0 * 1000 * 13560
  match s.link.activeNow with
  | some a => 100 * ((s.now - a + Config.meterPhase) % cycle) < regBits s Reg.vlrMeter 23 16 * cycle
  | none => false

/-- The slot period in carrier cycles (11 R433). -/
def slotPeriod (s : State) : Nat := regBits s Reg.vlqTiming 31 24 * 13560

/-- SLOT_BOUNDARY (11 R433, R436; 10 R421): one period after the last boundary the oldest QUEUED slot starts an attempt, if
one may start. -/
def execSlotBoundary (s : State) : Out :=
  .next (
    if linkActive s && s.link.boundaryNow + slotPeriod s ≤ s.now then
      let at_ := s.now - (s.now - s.link.boundaryNow) % slotPeriod s
      let s := s |> setLink { s.link with boundaryNow := at_ } |> conditionEvent 0x30
        |> (fun t => if radioMode t = 3 then meterSwitch (meterTime t) t else t)
      match oldestSlot s (fun o => o.state == Sl.queued) with
      | some k => if attemptAllowed s && s.link.markWait.isNone then startAttempt k s else s
      | none => s
    else s)

/-- Nothing more is awaited: the radio returns to the listening channel (11 R437). -/
def awaitOver (s : State) : State :=
  let before := (listenChannel s, onMeter s)
  let s := setLink { s.link with await := none } s
  if radioState s = Ra.listen ∧ before ≠ (listenChannel s, onMeter s) then resumeListen Sy.settling s else s

/-- ACK_WAIT_EXPIRY (11 R437, R438). -/
def execAckWaitExpiry (s : State) : Out :=
  valve (fun s =>
    match s.link.await with
    | none => s
    | some w =>
      if passedMs s w.since (regBits s Reg.vlqTiming 23 16) then
        s |> awaitOver |> countReg Reg.vlqNoAck 1 |> slotFail w.slot 2
      else s) s

/-- BACKOFF_END (11 R437): a × BACKOFF_MS after the a-th attempt failed. -/
def execBackoffEnd (slot : Fin 32) (s : State) : Out :=
  valve (fun s =>
    let o := outAt s slot.val
    if o.state = Sl.backoff ∧ passedMs s o.failedNow (o.attempts * leField o.desc 8 2) then
      setOut slot.val { o with state := Sl.queued } s
    else s) s

/-- EXPIRED (11 R438): a HOLD slot that has not ended within EXPIRE_S of its acceptance. -/
def execExpired (slot : Fin 32) (s : State) : Out :=
  valve (fun s =>
    let o := outAt s slot.val
    if o.hold && o.live && passedMs s o.acceptedNow (1000 * leField o.desc 10 2) then
      let s := match s.link.await with
        | some w => if w.slot = slot.val then awaitOver s else s
        | none => s
      slotEnd slot.val 3 s
    else s) s

/-! ## Receiving (11 R440 to R444) -/

/-- The inbound counter of R432: the smallest value above L whose low 8 bits equal SEQ. -/
def inboundCounter (last seq : Nat) : Nat := last + 1 + (seq + 256 - (last + 1) % 256) % 256

/-- A frame rejected at step 5 or 6 (11 R440, R457). -/
def rejectInbound (counter : Nat) (s : State) : State := s |> countReg counter 1 |> raiseEvent 0x22 2

/-- The acknowledgement of a frame is pending (11 R440 to R442): with data, unless the frame was a duplicate. -/
def ackOwed (f : CapturedFrame) (node seq : Nat) (data : Bool) (s : State) : State :=
  if f.bytes.getD 1 0#8 |>.getLsbD 7 then
    setLink { s.link with acks := s.link.acks ++
      [{ node := node, seq := seq, channel := f.rx.channel, dueUs := f.endUs + regBits s Reg.vlqTiming 11 0, data := data,
         started := false }] } s
  else s

/-- An IS_ACK frame completes the slot that awaits it (11 R437 to R440). -/
def ackReceived (node seq : Nat) (s : State) : State :=
  match s.link.await with
  | none => s
  | some w => if w.node = node ∧ w.seq = seq then s |> awaitOver |> slotEnd w.slot 1 else s

/-- The record of a network frame (11 R444). -/
def networkRecord (f : CapturedFrame) (node p : Nat) (plain : List Byte) : List Word :=
  [fieldWord 31 24 0x50 ||| fieldWord 23 16 (leField f.bytes 1 1) ||| fieldWord 15 0 node,
   fieldWord 31 16 (beNat ((f.bytes.drop 4).take 2)) ||| fieldWord 15 8 (frameSeq f.bytes) ||| fieldWord 7 0 p]
    ++ reportWords f.rx f.rate f.corr f.coded ++ packWords plain

/-- Step 7 of R440: L advances, the cache takes the pair, the record is queued, an acknowledgement completes its slot, and
one asked for is pending. -/
def acceptInbound (f : CapturedFrame) (node src p counter : Nat) (plain : List Byte) (s : State) : State :=
  let seq := frameSeq f.bytes
  let isAck := (f.bytes.getD 1 0#8).getLsbD 6
  let s := s |> nodeAdvance node counter |> mirrorValve (2#8 :: leBytes 2 node ++ leBytes 4 counter)
  let dup := s.link.dup ++ [{ src := src, seq := seq, counter := counter }]
  let s := s |> setLink { s.link with dup := dup.drop (dup.length - 64) }
    |> mirrorValve (4#8 :: leBytes 2 node ++ leBytes 2 src ++ leBytes 1 seq ++ leBytes 4 counter)
  let s := if isAck ∧ p = 1 then s
    else s |> queuePush Reg.vlqQPop (networkRecord f node p plain) |> countReg Reg.vlqRxDelivered 1 |> raiseEvent 0x22 0
  let s := if isAck ∧ 1 ≤ p then ackReceived node (leField plain 0 1) s else s
  ackOwed f node seq true s

/-- Steps 4 to 7 of R440 for a frame from node `node` whose key store entry is `e`. -/
def inboundFromNode (f : CapturedFrame) (node : Nat) (e : NodeEntry) (s : State) : State :=
  let b := f.bytes
  let p := leField b 0 1 - 16
  let src := beNat ((b.drop 4).take 2)
  let dst := beNat ((b.drop 2).take 2)
  let seq := frameSeq b
  let enc := (b.getD 1 0#8).getLsbD 5
  let body := (b.drop 7).take p
  let mic := (b.drop (7 + p)).take 8
  let open_ := fun (c : Nat) => frameOpen e.key (b.take 7) body enc (frameNonce src dst c)
  match s.link.dup.find? (fun d => d.src == src && d.seq == seq) with
  | some d =>
    let s := higherBlocks (frameBlocks p enc) (cacheNode node e s).1
    if (open_ d.counter).2 = mic then s |> countReg Reg.vlqDuplicates 1 |> ackOwed f node seq false
    else rejectInbound Reg.vlqMicFail s
  | none =>
    if queueFree s Reg.vlqQPop = 0 then rejectInbound Reg.vlqRingFull s
    else
      let s := higherBlocks (frameBlocks p enc) (cacheNode node e s).1
      let c := inboundCounter e.last seq
      let r := open_ c
      if c ≤ ctrEnd ∧ r.2 = mic then acceptInbound f node src p c r.1 s else rejectInbound Reg.vlqMicFail s

/-- Whether a frame passes step 1 of R440. -/
def valveFrameGood (b : List Byte) : Bool :=
  let n := leField b 0 1
  16 ≤ n && !((b.getD 1 0#8).getLsbD 4) && beNat ((b.drop (n - 1)).take 2) == valveCrc (b.take (n - 1))

/-- The steps of R440; an active secondary and a stepped-down device stop after step 3 (16 R593, R597). -/
def inbound (f : CapturedFrame) (s : State) : State :=
  let b := f.bytes
  if !(valveFrameGood b) then countReg Reg.vlqBadFrame 1 s
  else if beNat ((b.drop 2).take 2) ≠ hubAddr s then countReg Reg.vlqNotMine 1 s
  else
    let src := beNat ((b.drop 4).take 2)
    -- entries with this address that cannot be used are reported
    let s := ((List.range 512).filter (fun n => src ≠ 0 && storeNodeAddr s n == src)).foldl (fun t n => nodeCheck n t) s
    match nodeOf s src with
    | none => countReg Reg.vlqUnknown 1 s
    | some node =>
      if linkSilent s then s
      else match nodeEntry s node with
      | none => countReg Reg.vlqUnknown 1 s
      | some e => inboundFromNode f node e s

/-- INBOUND_FRAME (11 R440): the oldest frame the modem has passed to the link layer. -/
def execInboundFrame (s : State) : Out :=
  valve (fun s =>
    match s.link.inbox with
    | [] => s
    | f :: rest => s |> setLink { s.link with inbox := rest } |> inbound f) s

/-- ACK_START (11 R441): at its start instant the pending acknowledgement goes, or is counted late. -/
def execAckStart (s : State) : Out :=
  valve (fun s =>
    match s.link.acks with
    | a :: _ => if a.dueUs ≤ vlrUs s then ackTry s else s
    | [] => s) s

/-- BUCKET_CLOSE (11 R449). -/
def execBucketClose (band : Fin 8) (s : State) : Out := .next (if live s then closeBucket band.val s else s)

/-! ## Writes of VLQ registers (11 R433, R456) -/

/-- A write to VLQ.CTRL: the slot series starts when EN is set (11 R433). -/
def vlqCtrlWritten (old : Word) (s : State) : State :=
  let en := regBit s Reg.vlqCtrl 31
  if en = bitAt old 31 then s else setLink { s.link with activeNow := if en then some s.now else none, boundaryNow := s.now } s

/-- A write to VLQ.DONE_MAP frees the ended slots whose bits it clears (11 R456). -/
def doneMapWritten (word : Word) (s : State) : State :=
  let before := freeSlots s
  let freed := (List.range 32).filter (fun k => bitAt word k && regBit s Reg.vlqDoneMap k && (outAt s k).state == Sl.done)
  let s := setReg Reg.vlqDoneMap (getReg s Reg.vlqDoneMap &&& ~~~word) s
  let s := freed.foldl (fun t k => setOut k OutSlot.free t) s
  jobSpaceEvent 0x22 8 (regBits s Reg.vlqWatermark 21 16) before (freeSlots s) s

/-! ## The key store's doors (12 R474) -/

/-- Whether a requester may write the key store, and no SEND slot for the node runs (12 R474). -/
def nodeRefused (s : State) (req : Requester) (n : Nat) : Bool :=
  (match req with
    | .host => false
    | .mason m => m.val == 4
    | .lintel => true) || s.link.slots.any (fun o => o.live && o.node == n)

/-- Write a node's entry and set its outbound counter (12 R474): the same key continues at its mark. -/
def nodeInstall (n : Nat) (e : NodeEntry) (out : Nat) (s : State) : State :=
  let same := match nodeEntry s n with
    | some old => old.fp == e.fp && !(mramRangePoison s (nodeMarkAddr n) 4)
    | none => false
  let c := if same then max out (mramWord s (nodeMarkAddr n)) else out
  s |> dropNode n |> nodeWrite n e |> mramRewrite (nodeMarkAddr n) (leBytes 4 c)
    |> (fun t => setCipher { t.cipher with nodeCtr := keySet t.cipher.nodeCtr n c } t)

/-- CPH door command NODE_PUT (12 R474). -/
def doorNodePut (req : Requester) (word : Word) (s : State) : State :=
  let a := 16 * bitsOf word 15 0
  let fresh := doorFresh req 0x0A word s
  let s := if descOff s a 48 || !fresh then s else settleRange a 48 s
  let d := mortarBytes s a 48
  let n := leField d 0 2
  let size := leField d 4 1
  let bad := descOff s a 48 || 512 ≤ n || leField d 2 2 == 0 || leField d 2 2 == 0xFFFF || !(size == 0 || size == 2)
    || !(zeroField d 5 3)
  let key := (d.drop 16).take (16 + 8 * size)
  let e : NodeEntry := { addr := leField d 2 2, size := size, last := leField d 8 4, fp := fingerprint key, key := key }
  let s := if fresh then eraseKey a s else s
  doorWrite req 0x0A word (firstRefusal [(bad, Oc.badArg), (nodeRefused s req n, 0x41)]) none
    (fun id _ t => t |> nodeInstall n e (leField d 12 4) |> finishCmd id Oc.done) s

/-- NODE_PUT. -/
def execNodePut (req : Requester) (tag : Byte) (arg : BitVec 16) (s : State) : Out :=
  .next (doorIssue 0x0A doorNodePut req (doorWord tag 0x20 arg) s)

/-- CPH door command NODE_CLEAR (12 R474). -/
def doorNodeClear (req : Requester) (word : Word) (s : State) : State :=
  let n := bitsOf word 8 0
  doorWrite req 0x0A word (firstRefusal [(bitsOf word 15 9 != 0, Oc.badArg), (nodeRefused s req n, 0x41)]) none
    (fun id _ t => t |> dropNode n |> mramRewrite (storeAddr n) (List.replicate 64 0#8) |> finishCmd id Oc.done) s

/-- NODE_CLEAR. -/
def execNodeClear (req : Requester) (tag : Byte) (arg : BitVec 16) (s : State) : Out :=
  .next (doorIssue 0x0A doorNodeClear req (doorWord tag 0x21 arg) s)

end Sys2Proof.Machine
end

