-- ==== Sys2Proof/Machine/P256.lean ====
section
/-!
DEFINITION. Sys2Proof/Machine/P256.lean: the P-256 curve and ECDSA as the public-key unit uses them (12 R482). Points
are coordinate pairs; `none` is the point at infinity.
-/
namespace Sys2Proof.Machine

/-- The field prime of P-256. -/
def p256P : Nat := 2 ^ 256 - 2 ^ 224 + 2 ^ 192 + 2 ^ 96 - 1

/-- The group order. -/
def p256N : Nat := 0xFFFFFFFF00000000FFFFFFFFFFFFFFFFBCE6FAADA7179E84F3B9CAC2FC632551

/-- The coefficient b. -/
def p256B : Nat := 0x5AC635D8AA3A93E7B3EBBD55769886BC651D06B0CC53B0F63BCE3C3E27D2604B

/-- The base point. -/
def p256G : Nat × Nat :=
  (0x6B17D1F2E12C4247F8BCE6E563A440F277037D812DEB33A0F4A13945D898C296,
   0x4FE342E2FE1A7F9B8EE7EB4A7C0F9E162BCE33576B315ECECBB6406837BF51F5)

/-- A point, or infinity. -/
abbrev Point := Option (Nat × Nat)

/-- `b` to the power `e` modulo `m`, over the low `n` bits of `e`. -/
def powModN (n m b e : Nat) : Nat :=
  match n with
  | 0 => 1 % m
  | k + 1 => (if e % 2 = 1 then b else 1) * powModN k m (b * b % m) (e / 2) % m

/-- Inverse modulo a 256-bit prime. -/
def invMod (m a : Nat) : Nat := powModN 256 m (a % m) (m - 2)

/-- Whether coordinates name a point of the curve. -/
def onCurve (x y : Nat) : Bool :=
  x < p256P && y < p256P && y * y % p256P == (x * x * x + (p256P - 3) * x + p256B) % p256P

/-- Sum of two points. -/
def pointAdd (a b : Point) : Point :=
  match a, b with
  | none, _ => b
  | _, none => a
  | some (x1, y1), some (x2, y2) =>
    if x1 = x2 ∧ (y1 + y2) % p256P = 0 then none
    else
      let l := if x1 = x2 then (3 * x1 * x1 + (p256P - 3)) * invMod p256P (2 * y1) % p256P
        else (y2 + p256P - y1) * invMod p256P (x2 + p256P - x1) % p256P
      let x3 := (l * l + 2 * p256P - x1 - x2) % p256P
      some (x3, (l * (x1 + p256P - x3) + p256P - y1) % p256P)

/-- `k` times a point, over the low `n` bits of `k`. -/
def pointMulN (n k : Nat) (a : Point) : Point :=
  match n with
  | 0 => none
  | m + 1 => pointAdd (if k % 2 = 1 then a else none) (pointMulN m (k / 2) (pointAdd a a))

/-- `k` times a point. -/
def pointMul (k : Nat) (a : Point) : Point := pointMulN 256 k a

/-- x-coordinate, 0 at infinity. -/
def pointX (a : Point) : Nat :=
  match a with
  | none => 0
  | some (x, _) => x

/-- ECDSA signature of a digest under private key `d` with nonce `k`. -/
def ecdsaSign (d k digest : Nat) : Nat × Nat :=
  let r := pointX (pointMul k (some p256G)) % p256N
  (r, invMod p256N k * (digest + r * d) % p256N)

/-- ECDSA verification of a digest. -/
def ecdsaVerify (x y digest r s : Nat) : Bool :=
  if r = 0 ∨ p256N ≤ r ∨ s = 0 ∨ p256N ≤ s then false
  else
    let w := invMod p256N s
    let q := pointAdd (pointMul (digest * w % p256N) (some p256G)) (pointMul (r * w % p256N) (some (x, y)))
    match q with
    | none => false
    | some (v, _) => v % p256N == r

end Sys2Proof.Machine
end

