-- ==== Sys2Proof/Machine/Ident.lean ====
section
/-!
DEFINITION. Sys2Proof/Machine/Ident.lean: the random source, the public-key unit and the device identity (12 R478 to
R482, R487).
-/
namespace Sys2Proof.Machine

/-- Replace the identity unit. -/
def setIdent (i : IdentUnit) (s : State) : State := { s with ident := i }

/-- Outcomes of the IDN page (12 R487). -/
abbrev Io.badPoint : Nat := 0x40
abbrev Io.rngFail : Nat := 0x41
abbrev Io.noIdentity : Nat := 0x42

/-- The device's private key. -/
def devicePriv (s : State) : Nat := Config.devicePriv s.ident.keyIndex

/-- The device's public key. -/
def devicePub (s : State) : Nat × Nat := (pointMul (devicePriv s) (some p256G)).getD (0, 0)

/-- IDN.STATUS. -/
def idnStatusWord (s : State) : Word :=
  fieldWord 31 28 s.ident.state ||| fieldWord 27 27 (bit01 s.ident.rngOk)
    ||| fieldWord 26 26 (bit01 (!s.ident.jobs.isEmpty)) ||| fieldWord 15 0 s.ident.certLen

/-- Word `k` of a 256-bit number, k = 0 most significant (12 R487). -/
def bigWord (n k : Nat) : Word := BitVec.ofNat 32 (n / 2 ^ (32 * (7 - k)))

/-- The eight words of a 256-bit number. -/
def bigWords (n : Nat) : List Word := (List.range 8).map (bigWord n)

/-- The registers of the IDN page that show the identity: serial number and public key. -/
def idnWord (s : State) (i : Nat) : Option Word :=
  if i = Reg.idnStatus then some (idnStatusWord s)
  else if i = Reg.idnSerialLo then some (BitVec.ofNat 32 Config.serial.toNat)
  else if i = Reg.idnSerialHi then some (BitVec.ofNat 32 (Config.serial.toNat / 2 ^ 32))
  else if Reg.idnPubX ≤ i ∧ i < Reg.idnPubX + 8 then some (bigWord (devicePub s).1 (i - Reg.idnPubX))
  else if Reg.idnPubY ≤ i ∧ i < Reg.idnPubY + 8 then some (bigWord (devicePub s).2 (i - Reg.idnPubY))
  else none

/-- Whether a destination of `n` bytes lies in memory that is there: within Mortar and not in bank 1 while PD8 is off. -/
def destBad (s : State) (a n : Nat) : Bool := mortarEnd < a + n || (!(domainOn s 8) && 0x100000 < a + n)

/-- IDN door command RANDOM (12 R478, R479): the DRBG's bytes are free values. -/
def doorRandom (req : Requester) (word : Word) (s : State) : State :=
  let a := 16 * bitsOf word 15 0
  let s := if descOff s a 8 then s else settleRange a 8 s
  let d := mortarBytes s a 8
  let dst := leField d 0 4
  let n := leField d 4 4
  doorWrite req 0x0B word
    (firstRefusal [(descOff s a 8 || n < 16 || 4096 < n || n % 16 != 0 || destBad s dst n, Oc.badArg)]) none
    (fun id _ t =>
      if t.ident.rngOk then
        t |> engineWrite dst (freeBytesOf t n) |> useFreeN n |> countReg Reg.idnRandomBytes n |> finishCmd id Oc.done
      else finishCmd id Io.rngFail t) s

/-- RANDOM. -/
def execRandom (req : Requester) (tag : Byte) (arg : BitVec 16) (s : State) : Out :=
  .next (doorIssue 0x0B doorRandom req (doorWord tag 0x13 arg) s)

/-- Submit a command to the public-key unit, with the descriptor as read at the door (12 R482): commands run one at a
time in order of acceptance. -/
def submitPk (code : Nat) (d : List Byte) (id ticket : Nat) (s : State) : State :=
  setIdent { s.ident with jobs := s.ident.jobs ++ [{ id := id, ticket := ticket, code := code, desc := d }] } s

/-- A public-key door command: descriptor length, refusals, and whether it produces a result. -/
def pkDoor (code len : Nat) (state : List (Bool × Nat)) (bad : List Byte → Bool) (result : Bool) (req : Requester)
    (word : Word) (s : State) : State :=
  let a := 16 * bitsOf word 15 0
  let s := if descOff s a len then s else settleRange a len s
  let d := mortarBytes s a len
  doorWrite req 0x0B word
    (firstRefusal (state ++ [(descOff s a len || bad d, Oc.badArg),
      (result && resultFull s 0x0B [0x10, 0x11, 0x12], Oc.resultFull)]))
    (if result then some 0x0B else none) (submitPk code d) s

/-- Whether the device lacks a certified identity (12 R487), or its identity region failed (17 R613). -/
def noIdentity (s : State) : Bool := s.ident.state != 3

/-- IDN door command SIGN (12 R482, R487). -/
def doorSign (req : Requester) (word : Word) (s : State) : State :=
  pkDoor 0x10 32 [(noIdentity s, Io.noIdentity)] (fun _ => false) true req word s

/-- SIGN. -/
def execSign (req : Requester) (tag : Byte) (arg : BitVec 16) (s : State) : Out :=
  .next (doorIssue 0x0B doorSign req (doorWord tag 0x10 arg) s)

/-- IDN door command VERIFY (12 R482). -/
def doorVerify (req : Requester) (word : Word) (s : State) : State :=
  pkDoor 0x11 160 [] (fun _ => false) true req word s

/-- VERIFY_SIGNATURE. -/
def execVerifySignature (req : Requester) (tag : Byte) (arg : BitVec 16) (s : State) : Out :=
  .next (doorIssue 0x0B doorVerify req (doorWord tag 0x11 arg) s)

/-- Whether an ECDH descriptor names a slot it may load and limits KEY_LOAD would accept (12 R469, R482). -/
def ecdhBad (d : List Byte) : Bool :=
  20 ≤ leField d 64 1 || 3 ≤ leField d 65 1 || leField d 66 1 == 0 || 64 ≤ leField d 66 1 || leField d 67 1 == 0
    || 128 ≤ leField d 67 1 || leField d 68 4 == ctrEnd

/-- IDN door command ECDH (12 R482, 17 R613). -/
def doorEcdh (req : Requester) (word : Word) (s : State) : State :=
  pkDoor 0x12 104 [(s.ident.state == 4, Io.noIdentity)] ecdhBad true req word s

/-- ECDH. -/
def execEcdh (req : Requester) (tag : Byte) (arg : BitVec 16) (s : State) : Out :=
  .next (doorIssue 0x0B doorEcdh req (doorWord tag 0x12 arg) s)

/-- Bytes CERT_COPY writes: the certificate padded with 0 to a multiple of 16 (12 R482). -/
def certBytes (s : State) : List Byte :=
  padTo ((s.ident.certLen + 15) / 16 * 16) ((List.range s.ident.certLen).map Config.certByte)

/-- IDN door command CERT_COPY (12 R482, R487). -/
def doorCertCopy (req : Requester) (word : Word) (s : State) : State :=
  pkDoor 0x14 4 [(noIdentity s, Io.noIdentity)] (fun d => destBad s (leField d 0 4) (certBytes s).length) false req word s

/-- CERT_COPY. -/
def execCertCopy (req : Requester) (tag : Byte) (arg : BitVec 16) (s : State) : Out :=
  .next (doorIssue 0x0B doorCertCopy req (doorWord tag 0x14 arg) s)

/-- A 32-byte big-endian number of a descriptor (12 R482). -/
def bigField (d : List Byte) (at_ : Nat) : Nat := beNat ((d.drop at_).take 32)

/-- The key derived from a shared x-coordinate (12 R482): `n` bytes. -/
def ecdhKey (z : Nat) (label salt : List Byte) (n : Nat) : List Byte :=
  let kdk := cmac salt (beBytes 32 z)
  let k := fun (i : Nat) => cmac kdk ([BitVec.ofNat 8 i] ++ label ++ [0#8] ++ beBytes 2 (8 * n))
  (k 1 ++ k 2).take n

/-- The KEY_LOAD descriptor that an ECDH result stands for (12 R482, R469). -/
def ecdhLoad (d key : List Byte) : List Byte :=
  (d.drop 64).take 4 ++ (d.drop 68).take 4 ++ List.replicate 8 0#8 ++ padTo 32 key

/-- Run the private key against a peer's public key and load the derived key (12 R482). -/
def ecdhRun (j : PkJob) (s : State) : State :=
  let x := bigField j.desc 0
  let y := bigField j.desc 32
  if !(onCurve x y) then s |> raiseEvent 0x0B 0 |> finishCmd j.id Io.badPoint
  else
    let z := pointX (pointMul (devicePriv s) (some (x, y)))
    let key := ecdhKey z ((j.desc.drop 72).take 16) ((j.desc.drop 88).take 16) (16 + 8 * leField j.desc 65 1)
    addKeyCommand
      { id := j.id, ticket := j.ticket, requester := .mason 0, kind := .derived, slot := leField j.desc 64 1,
        desc := ecdhLoad j.desc key, phase := .waiting, counter := 0, provReads := 0, good := false, left := 0, startNow := 0 } s

/-- A public-key command delivers its result block and ends (12 R482, R487). -/
def pkDeliver (j : PkJob) (words : List Word) (s : State) : State :=
  s |> deliverResult { page := 0x0B, ticket := j.ticket, poison := false, words := words } |> raiseEvent 0x0B 0
    |> finishCmd j.id Oc.done

/-- The command at the head of the public-key unit completes (12 R482). The k of a signature comes from the DRBG. -/
def pkComplete (j : PkJob) (s : State) : State :=
  match j.code with
  | 0x10 =>
    if !s.ident.rngOk then s |> raiseEvent 0x0B 0 |> finishCmd j.id Io.rngFail
    else
      let r := ecdsaSign (devicePriv s) (beNat (freeBytesOf s 32)) (bigField j.desc 0)
      s |> useFreeN 32 |> countReg Reg.idnSigns 1 |> pkDeliver j (bigWords r.1 ++ bigWords r.2)
  | 0x11 =>
    let s := countReg Reg.idnVerifies 1 s
    if !(onCurve (bigField j.desc 32) (bigField j.desc 64)) then
      s |> raiseEvent 0x0B 0 |> finishCmd j.id Io.badPoint
    else
      let ok := ecdsaVerify (bigField j.desc 32) (bigField j.desc 64) (bigField j.desc 0) (bigField j.desc 96)
        (bigField j.desc 128)
      pkDeliver j [BitVec.ofNat 32 (bit01 ok)] s
  | 0x12 => ecdhRun j s
  | _ => s |> engineWrite (leField j.desc 0 4) (certBytes s) |> raiseEvent 0x0B 0 |> finishCmd j.id Oc.done

/-- PK_DONE (12 R482): one command at a time, in order. -/
def execPkDone (s : State) : Out :=
  .next (match s.ident.jobs with
    | [] => s
    | j :: t => if domainOn s 2 && !(testRuns s 0x0B) then s |> setIdent { s.ident with jobs := t } |> pkComplete j else s)

/-- RNG_FAIL (12 R478, R487): a failed health test stops the DRBG and raises FAULT.RNG with which test failed. -/
def execRngFail (repetition adaptive : Bool) (s : State) : Out :=
  .next (if domainOn s 2 && (repetition || adaptive) then
      s |> setIdent { s.ident with rngOk := false } |> countReg Reg.idnRngFails 1
        |> raiseFault 0x0B 0 (bit01 repetition + 2 * bit01 adaptive)
    else s)

end Sys2Proof.Machine
end

