-- ==== Sys2Proof/Machine/Sha256.lean ====
section
/-!
DEFINITION. Sys2Proof/Machine/Sha256.lean: the SHA-256 digest of the endorsement (16 R588).
-/
namespace Sys2Proof.Machine

/-- The first 32 bits of the fractional parts of the cube roots of the first 64 primes, eight to a row. -/
def shaK : List Word :=
  [0x428a2f98#32, 0x71374491#32, 0xb5c0fbcf#32, 0xe9b5dba5#32, 0x3956c25b#32, 0x59f111f1#32, 0x923f82a4#32, 0xab1c5ed5#32]
  ++ [0xd807aa98#32, 0x12835b01#32, 0x243185be#32, 0x550c7dc3#32, 0x72be5d74#32, 0x80deb1fe#32, 0x9bdc06a7#32, 0xc19bf174#32]
  ++ [0xe49b69c1#32, 0xefbe4786#32, 0x0fc19dc6#32, 0x240ca1cc#32, 0x2de92c6f#32, 0x4a7484aa#32, 0x5cb0a9dc#32, 0x76f988da#32]
  ++ [0x983e5152#32, 0xa831c66d#32, 0xb00327c8#32, 0xbf597fc7#32, 0xc6e00bf3#32, 0xd5a79147#32, 0x06ca6351#32, 0x14292967#32]
  ++ [0x27b70a85#32, 0x2e1b2138#32, 0x4d2c6dfc#32, 0x53380d13#32, 0x650a7354#32, 0x766a0abb#32, 0x81c2c92e#32, 0x92722c85#32]
  ++ [0xa2bfe8a1#32, 0xa81a664b#32, 0xc24b8b70#32, 0xc76c51a3#32, 0xd192e819#32, 0xd6990624#32, 0xf40e3585#32, 0x106aa070#32]
  ++ [0x19a4c116#32, 0x1e376c08#32, 0x2748774c#32, 0x34b0bcb5#32, 0x391c0cb3#32, 0x4ed8aa4a#32, 0x5b9cca4f#32, 0x682e6ff3#32]
  ++ [0x748f82ee#32, 0x78a5636f#32, 0x84c87814#32, 0x8cc70208#32, 0x90befffa#32, 0xa4506ceb#32, 0xbef9a3f7#32, 0xc67178f2#32]

/-- The initial hash value. -/
def shaInit : List Word :=
  [0x6a09e667#32, 0xbb67ae85#32, 0x3c6ef372#32, 0xa54ff53a#32, 0x510e527f#32, 0x9b05688c#32, 0x1f83d9ab#32, 0x5be0cd19#32]

/-- Rotation to the right. -/
def rotr (w : Word) (n : Nat) : Word := (w >>> n) ||| (w <<< (32 - n))

/-- The message schedule, newest word first, extended by `n` words. -/
def shaSchedule (n : Nat) (w : List Word) : List Word :=
  match n with
  | 0 => w
  | k + 1 =>
    let a := w.getD 14 0#32
    let b := w.getD 1 0#32
    let s0 := rotr a 7 ^^^ rotr a 18 ^^^ (a >>> 3)
    let s1 := rotr b 17 ^^^ rotr b 19 ^^^ (b >>> 10)
    shaSchedule k ((w.getD 15 0#32 + s0 + w.getD 6 0#32 + s1) :: w)

/-- One round with a constant and a schedule word. -/
def shaRound (h : List Word) (kw : Word × Word) : List Word :=
  let at_ := fun i => h.getD i 0#32
  let s1 := rotr (at_ 4) 6 ^^^ rotr (at_ 4) 11 ^^^ rotr (at_ 4) 25
  let ch := (at_ 4 &&& at_ 5) ^^^ (~~~(at_ 4) &&& at_ 6)
  let t1 := at_ 7 + s1 + ch + kw.1 + kw.2
  let s0 := rotr (at_ 0) 2 ^^^ rotr (at_ 0) 13 ^^^ rotr (at_ 0) 22
  let maj := (at_ 0 &&& at_ 1) ^^^ (at_ 0 &&& at_ 2) ^^^ (at_ 1 &&& at_ 2)
  [t1 + s0 + maj, at_ 0, at_ 1, at_ 2, at_ 3 + t1, at_ 4, at_ 5, at_ 6]

/-- The big-endian words of a block. -/
def beWords (n : Nat) (bs : List Byte) : List Word :=
  match n with
  | 0 => []
  | k + 1 => BitVec.ofNat 32 (beNat (bs.take 4)) :: beWords k (bs.drop 4)

/-- One block. -/
def shaBlock (h : List Word) (block : List Byte) : List Word :=
  let w := (shaSchedule 48 (beWords 16 block).reverse).reverse
  List.zipWith (· + ·) h ((shaK.zip w).foldl shaRound h)

/-- `n` blocks of a padded message. -/
def shaBlocks (n : Nat) (h : List Word) (bs : List Byte) : List Word :=
  match n with
  | 0 => h
  | k + 1 => shaBlocks k (shaBlock h (bs.take 64)) (bs.drop 64)

/-- The digest of a byte string. -/
def sha256 (bs : List Byte) : List Byte :=
  let zeros := (55 + 64 - bs.length % 64) % 64
  let m := bs ++ [0x80#8] ++ List.replicate zeros 0#8 ++ beBytes 8 (8 * bs.length)
  (shaBlocks (m.length / 64) shaInit m).flatMap (fun w => beBytes 4 w.toNat)

end Sys2Proof.Machine
end

