-- ==== Sys2Proof/Machine/TwinLink.lean ====
section
/-!
DEFINITION. Sys2Proof/Machine/TwinLink.lean: pairing, the end of a pairing, takeover and stepping down (16 R583 to R599).
The sealed messages stand in Machine/TwinMsgs.lean.
-/
namespace Sys2Proof.Machine

/-- TWN.STATUS.STATE (16). -/
abbrev Tw.off : Nat := 0
abbrev Tw.detached : Nat := 1
abbrev Tw.authenticating : Nat := 2
abbrev Tw.awaitConfirm : Nat := 3
abbrev Tw.syncing : Nat := 4
abbrev Tw.paired : Nat := 5
abbrev Tw.steppedDown : Nat := 6
abbrev Tw.refused : Nat := 7

/-- Enter a state (16 R586, R587, R599): its event and count, and slots 18 and 19 emptied where the rule says so. -/
def twinEnter (n : Nat) (s : State) : State :=
  let was := twinState s
  let s := setRegBits Reg.twnStatus 31 28 n s
  if n = was then s
  else
    let s := if n = Tw.awaitConfirm then raiseEvent 0x0E 1 s
      else if n = Tw.paired then s |> raiseEvent 0x0E 2 |> countReg Reg.twnPairings 1
      else if n = Tw.steppedDown then s |> raiseEvent 0x0E 5 |> countReg Reg.twnStepDowns 1
      else if n = Tw.refused then countReg Reg.twnRefusals 1 s
      else s
    let s := setTwin { s.twin with beatNow := s.now } s
    if n = Tw.detached ∨ n = Tw.steppedDown ∨ n = Tw.refused then emptySlots [18, 19] s else s

/-- TWN.CTRL.EN. -/
def twinEn (s : State) : Bool := regBit s Reg.twnCtrl 31

/-- Whether the lintel port carries twin messages (16 R583): enabled, powered, with a role. -/
def twinLive (s : State) : Bool :=
  domainOn s 9 && twinEn s && regBit s Reg.twnPortCtrl 31 && regBits s Reg.twnPortCtrl 30 29 != 0

/-- The state of a device with no pairing. -/
def twinRest (s : State) : Nat := if s.twin.steppedDown then Tw.steppedDown else if twinEn s then Tw.detached else Tw.off

/-- No session: counters, messages and pairing data are dropped, but for a DETACH to be sent; what a stepped-down device
remembers stays (16 R597, R598). -/
def twinDrop (s : State) : State :=
  s |> setTwin { TwinUnit.reset with steppedDown := s.twin.steppedDown, unsynced := s.twin.unsynced, line := s.twin.line,
                                     queue := s.twin.queue.filter (fun m => m.kind == 0xD9), beatNow := s.now }
    |> setRegBits Reg.twnStatus 25 24 0 |> setRegBits Reg.twnStatus 7 0 0

/-- The pairing ends REFUSED with a reason; the device keeps its role (16 R586, R598). -/
def refusePairing (reason : Nat) (s : State) : State :=
  s |> twinDrop |> setRegBits Reg.twnStatus 23 16 reason |> twinEnter Tw.refused

/-- Set TWN.STATUS.ROLE; a cascade head that becomes secondary is HELD, one that is no longer starts anew (16 R593). -/
def setTwinRole (r : Nat) (s : State) : State := s |> setRegBits Reg.twnStatus 27 26 r |> cascCheck false

/-- A device steps down (16 R594, R597): it sends nothing on the valve link, no acknowledgement either. -/
def stepDown (s : State) : State :=
  let unsynced := twinRole s == 2 && !(regBit s Reg.twnStatus 25)
  s |> twinDrop |> (fun t => setTwin { t.twin with steppedDown := true, unsynced := unsynced } t)
    |> (fun t => setLink { t.link with acks := [], markWait := none } t) |> twinEnter Tw.steppedDown

/-- The primary is solo and acting again (16 R598): what waited for the secondary goes on. -/
def soloAgain (s : State) : State :=
  let s := twinDrop s
  s |> twinEnter (twinRest s) |> setTwinRole 0 |> mirrorAcked

/-- A pairing ends by UNPAIR, by DETACH, by EN or by PD9 (16 R598): the primary goes on alone, the secondary steps
down. -/
def endPairing (s : State) : State :=
  if twinRole s = 2 then stepDown s else soloAgain s

/-- Whether the device is SYNCING or PAIRED. -/
def isPaired (s : State) : Bool := twinState s == Tw.syncing || twinState s == Tw.paired

/-- This device ends the pairing (16 R598): DETACH is sent. -/
def unpair (s : State) : State := s |> sendSealed 0xD9 [] |> endPairing

/-- A write of TWN.CTRL (16 R598): EN set makes an OFF device DETACHED; EN cleared ends a pairing or an attempt at one. -/
def twnCtrlWritten (old : Word) (s : State) : State :=
  if twinEn s = bitAt old 31 then s
  else if isPaired s then unpair s
  else
    let s := twinDrop s
    twinEnter (twinRest s) s

/-- PD9 is being switched off (16 R598): as UNPAIR. -/
def twinWindDown (s : State) : State := if isPaired s then unpair s else s

/-- What a takeover does at once (16 R595, R605, 04 R189): lintel-link transactions abort, slots 18 and 19 are emptied,
counters resume at their marks, ACTIVE slots count their attempt as NO_ACK, a cascade head restarts, and the device is
solo. The bounds of its steps are not modelled (notes/assumptions/18.md). -/
def takeOver (s : State) : State :=
  let s := forIds (fun k t => if (txnAt t k).requester = .lintel then abortTxn k Ab.peerLost t else t) s
  let s := s |> emptySlots [18, 19] |> (fun t => setCipher { t.cipher with nodeCtr := [] } t) |> resumeCached
  let s := (List.range 32).foldl (fun t k => if (outAt t k).state = Sl.active then slotFail k 0x02 t else t) s
  let head := cascEn s && cascPosition s == 0
  let s := if head then plumbRestart s else s
  let s := twinDrop s
  s |> twinEnter (twinRest s) |> setTwinRole 0 |> raiseEvent 0x0E 4 |> countReg Reg.twnTakeovers 1
    |> setReg Reg.twnTakeoverAt (BitVec.ofNat 32 (mono s))

/-- The 20th consecutive heartbeat is missed (16 R594). -/
def peerLost (s : State) : State :=
  let s := raiseEvent 0x0E 3 s
  if twinRole s == 2 && regBit s Reg.twnStatus 25 then takeOver s else stepDown s

/-! ## Pairing (16 R586 to R589) -/

/-- This device counts as acting (16 R589, R597). -/
def acting (s : State) : Bool := twinRole s != 2 && !(s.twin.steppedDown)

/-- This device wins against its peer (16 R589). -/
def winsPrimary (s : State) (peer : PeerHello) : Bool :=
  let mine := acting s
  let prio := regBits s Reg.twnCtrl 25 24
  let nodes := nodesCount s != 0
  if mine != peer.acting then mine
  else if prio ≠ peer.priority.toNat then peer.priority.toNat < prio
  else if nodes != peer.nodes then nodes
  else Config.serial.toNat < peer.serial.toNat

/-- This device's cascade position while CSC.CTRL.EN is set. -/
def ownCascade (s : State) : Option (BitVec 2) := if cascEn s then some (BitVec.ofNat 2 (cascPosition s)) else none

/-- The reason to refuse a HELLO (16 R589): 5 SILICON, 6 MEMBER, 7 HEAD_MISMATCH. -/
def helloRefusal (s : State) (peer : PeerHello) : Option Nat :=
  let member := fun (c : Option (BitVec 2)) => match c with
    | none => false
    | some p => p != 0#2
  let own := ownCascade s
  if peer.silicon ≠ getReg s Reg.devSiliconRev then some 5
  else if member own || member peer.cascade then some 6
  else if own.isSome != peer.cascade.isSome then some 7
  else none

/-- A message in clear is to be sent (16 R584). -/
def sendClear (kind : Nat) (body : List Byte) (s : State) : State :=
  queueMsg { counter := 0, kind := kind, body := body, sentAt := none } s

/-- Whether this device takes a frame of the lintel port (02 R98): a target one with the header of position 0, a controller one of
the other direction. -/
def lintelHeeds (s : State) (f : LinkFrame) : Bool := f.header == linkHeader (regBits s Reg.twnPortCtrl 30 29 == 1) 0

/-- A twin message arrives (16 R583, R584): one delivered INCOMPLETE is discarded (02 R102). -/
def twinFrame (wire : LinkFrame) (f : State → State) (s : State) : State :=
  if !(twinLive s) || !(lintelHeeds s wire) then s
  else
    let s := frameReceived 2 wire s
    if frameWhole wire then f s else s

/-- The body of this device's HELLO (16 R584), in the order of its table. -/
def helloBody (s : State) (random : List Byte) : List Byte :=
  beBytes 8 Config.serial.toNat
    ++ [BitVec.ofNat 8 (regBits s Reg.twnCtrl 25 24 * 4 + bit01 (acting s) * 2 + bit01 (nodesCount s != 0))]
    ++ leBytes 4 (getReg s Reg.devSiliconRev).toNat ++ random

/-- This device's HELLO is to be sent, with the random bytes of the one before if it has sent one (16 R586). -/
def greet (s : State) : State :=
  if s.twin.myRandom.isEmpty then
    let mine := freeBytesOf s 16
    s |> useFreeN 16 |> setTwin { s.twin with myRandom := mine } |> sendClear 0xD0 (helloBody s mine)
  else sendClear 0xD0 (helloBody s s.twin.myRandom) s

/-- HELLO (16 R586 step 1, R589). -/
def helloReceived (peer : PeerHello) (s : State) : State :=
  if !(twinState s == Tw.detached || twinState s == Tw.steppedDown) then
    if twinState s = Tw.refused then setRegBits Reg.twnStatus 7 0 0 s else s
  else
    let s := s |> greet
      |> setReg Reg.twnPeerSerialLo (peer.serial.setWidth 32)
      |> setReg Reg.twnPeerSerialHi ((peer.serial >>> 32).setWidth 32)
      |> setRegBits Reg.twnStatus 23 16 0 |> raiseEvent 0x0E 0
    match helloRefusal s peer with
    | some reason => refusePairing reason s
    | none =>
      s |> twinEnter Tw.authenticating
        |> (fun t => setTwin { t.twin with
            peerRandom := peer.random
            becoming := if winsPrimary s peer then 1 else 2
            step := 1 } t)
        |> sendClear 0xD1 (certBytes s)

/-- HELLO. -/
def execHello (wire : LinkFrame) (peer : PeerHello) (s : State) : Out := .next (twinFrame wire (helloReceived peer) s)

/-- A number of 8 registers, the first most significant (12, 18). -/
def regBytes (s : State) (i : Nat) : List Byte := (List.range 8).flatMap (fun k => beBytes 4 (getReg s (i + k)).toNat)

/-- The OEM public key (18). -/
def oemKey (s : State) : List Byte := regBytes s Reg.nvlOemX ++ regBytes s Reg.nvlOemY

/-- Whether an endorsement r, s verifies under an OEM key for a serial number and a device key (16 R588). -/
def endorsed (oem : List Byte) (serial : BitVec 64) (key endorsement : List Byte) : Bool :=
  let x := bigField oem 0
  let y := bigField oem 32
  onCurve x y && ecdsaVerify x y (beNat (sha256 (beBytes 8 serial.toNat ++ key.take 64))) (bigField endorsement 0)
    (bigField endorsement 32)

/-- This device's public key, X then Y. -/
def ownKey (s : State) : List Byte := beBytes 32 (devicePub s).1 ++ beBytes 32 (devicePub s).2

/-- Address and bytes of the stored endorsement (16 R588). -/
def endorsementAddr : Nat := 0x0D9C00
def ownEndorsement (s : State) : List Byte := mramBytes s endorsementAddr 64

/-- The policy of 16 R586 step 3 allows the pairing without CONFIRM. -/
def autoPolicy (s : State) (serial : BitVec 64) (peer : PeerIdent) : Bool :=
  let oem := oemKey s
  regBit s Reg.twnCtrl 30 && peer.autoPair && oem == peer.oem && !(oem.all (· == 0#8))
    && endorsed oem Config.serial (ownKey s) (ownEndorsement s)
    && endorsed oem serial peer.key peer.endorsement

/-- The salt of the session keys (16 R586). -/
def pairSalt (s : State) : List Byte := (s.twin.myRandom.zip s.twin.peerRandom).map (fun p => p.1 ^^^ p.2)

/-- A label of 16 bytes. -/
def pairLabel (bs : List Byte) : List Byte := padTo 16 bs

/-- "LINTEL P2S" and "LINTEL S2P" in ASCII (16 R586). -/
def labelP2S : List Byte := pairLabel [0x4C#8, 0x49#8, 0x4E#8, 0x54#8, 0x45#8, 0x4C#8, 0x20#8, 0x50#8, 0x32#8, 0x53#8]
def labelS2P : List Byte := pairLabel [0x4C#8, 0x49#8, 0x4E#8, 0x54#8, 0x45#8, 0x4C#8, 0x20#8, 0x53#8, 0x32#8, 0x50#8]

/-- A session key in its slot (16 R586): AES-128, GCM only, USERS mason 0, START 0. -/
def sessionSlot (key : List Byte) : KeySlot :=
  { size := 0, modes := 16, users := 2, key := key, ctr := 0, hist := 64, node := none, used := 0 }

/-- Step 4 of 16 R586: both session keys are derived and KEY_CONFIRM is sent; it fails while PD2 is off or where the peer
key is no point of the curve. -/
def makeSessionKeys (s : State) : State :=
  let x := bigField s.twin.peerKey 0
  let y := bigField s.twin.peerKey 32
  if !(domainOn s 2) || !(onCurve x y) then refusePairing 4 s
  else
    let z := pointX (pointMul (devicePriv s) (some (x, y)))
    s |> setSlot 19 (some (sessionSlot (ecdhKey z labelP2S (pairSalt s) 16)))
      |> setSlot 18 (some (sessionSlot (ecdhKey z labelS2P (pairSalt s) 16)))
      |> (fun t => setTwin { t.twin with step := 3, outCtr := 0, inCtr := 0, out := [], held := [] } t)
      |> sealOut
where
  /-- KEY_CONFIRM carries the peer's random bytes. -/
  sealOut (t : State) : State := sendSealed 0xD2 t.twin.peerRandom t

/-- IDENT (16 R586 steps 2 and 3). -/
def identReceived (peer : PeerIdent) (s : State) : State :=
  if !(twinState s == Tw.authenticating) || !(s.twin.step == 1) then s
  else if !(peer.certGood) then refusePairing 1 s
  else
    let serial := (getReg s Reg.twnPeerSerialHi).setWidth 64 <<< 32 ||| (getReg s Reg.twnPeerSerialLo).setWidth 64
    let auto := autoPolicy s serial peer
    let s := setTwin { s.twin with peerKey := peer.key, auto := auto, step := 2 } s
    if auto then makeSessionKeys s
    else if s.twin.becoming = 1 then
      s |> setTwin { s.twin with confirmUntil := s.now + 60 * 13560000 } |> twinEnter Tw.awaitConfirm
    else s

/-- IDENT. -/
def execIdent (wire : LinkFrame) (peer : PeerIdent) (s : State) : Out := .next (twinFrame wire (identReceived peer) s)

/-- CONFIRM_TIMEOUT (16 R586): 60 s have passed. -/
def execConfirmTimeout (s : State) : Out :=
  .next (if domainOn s 9 && twinState s == Tw.awaitConfirm && s.twin.confirmUntil ≤ s.now then refusePairing 3 s else s)

/-- Seconds left for CONFIRM, rounded up. -/
def confirmLeft (s : State) : Nat :=
  if twinState s = Tw.awaitConfirm then capAt 63 ((s.twin.confirmUntil - s.now + 13559999) / 13560000) else 0

/-! ## The doors of TWN (16 R599) -/

/-- TWN door command CONFIRM (16 R586, R599). -/
def doorConfirm (req : Requester) (word : Word) (s : State) : State :=
  doorWrite req 0x0E word
    (firstRefusal [(twinState s != Tw.awaitConfirm, 0x40), (bitsOf word 15 1 != 0, Oc.badArg)]) none
    (fun id _ t => t |> (if bitAt word 0 then fun u => u |> twinEnter Tw.authenticating |> makeSessionKeys
                         else refusePairing 2) |> finishCmd id Oc.done) s

/-- CONFIRM. -/
def execConfirm (req : Requester) (tag : Byte) (arg : BitVec 16) (s : State) : Out :=
  .next (doorIssue 0x0E doorConfirm req (doorWord tag 0x10 arg) s)

/-- TWN door command UNPAIR (16 R598, R599). -/
def doorUnpair (req : Requester) (word : Word) (s : State) : State :=
  doorWrite req 0x0E word (firstRefusal [(!(isPaired s), 0x41), (bitsOf word 15 0 != 0, Oc.badArg)]) none
    (fun id _ t => t |> unpair |> finishCmd id Oc.done) s

/-- UNPAIR. -/
def execUnpair (req : Requester) (tag : Byte) (arg : BitVec 16) (s : State) : Out :=
  .next (doorIssue 0x0E doorUnpair req (doorWord tag 0x11 arg) s)

/-- The mark of a node rises by 65,536 and its counter resumes there (16 R597). -/
def resumeNode (n : Nat) (s : State) : State :=
  if storeNodeAddr s n = 0 ∨ mramRangePoison s (nodeMarkAddr n) 4 = true then s
  else
    let mark := min (nodeMarkNow s + 65536) ctrEnd
    s |> mramRewrite (nodeMarkAddr n) (leBytes 4 mark)
      |> fun t => setCipher { t.cipher with nodeCtr := keyErase t.cipher.nodeCtr n } t
where
  /-- The stored mark. -/
  nodeMarkNow (t : State) : Nat := mramWord t (nodeMarkAddr n)

/-- TWN door command RESUME_SOLO (16 R597, R599). -/
def doorResumeSolo (req : Requester) (word : Word) (s : State) : State :=
  doorWrite req 0x0E word
    (firstRefusal [(twinState s != Tw.steppedDown, 0x42), (bitsOf word 15 0 != 0, Oc.badArg)]) none
    (fun id _ t =>
      let t := if t.twin.unsynced then (List.range 512).foldl (fun u n => resumeNode n u) t |> resumeCached else t
      let t := setTwin { t.twin with steppedDown := false, unsynced := false } t
      t |> twinEnter (twinRest t) |> setTwinRole 0 |> finishCmd id Oc.done) s

/-- RESUME_SOLO. -/
def execResumeSolo (req : Requester) (tag : Byte) (arg : BitVec 16) (s : State) : Out :=
  .next (doorIssue 0x0E doorResumeSolo req (doorWord tag 0x12 arg) s)

/-- TWN door command ENDORSE (16 R588, R599). -/
def doorEndorse (req : Requester) (word : Word) (s : State) : State :=
  let a := 16 * bitsOf word 15 0
  let s := if destBad s a 64 then s else settleRange a 64 s
  let bytes := mortarBytes s a 64
  doorWrite req 0x0E word (firstRefusal [(s.boot != .startUp, 0x43), (destBad s a 64, Oc.badArg)]) none
    (fun id _ t =>
      if endorsed (oemKey t) Config.serial (ownKey t) bytes then
        t |> mramRewrite endorsementAddr bytes |> finishCmd id Oc.done
      else finishCmd id 0x44 t) s

/-- ENDORSE. -/
def execEndorse (req : Requester) (tag : Byte) (arg : BitVec 16) (s : State) : Out :=
  .next (doorIssue 0x0E doorEndorse req (doorWord tag 0x20 arg) s)

/-! ## Frames sent (16 R583, R585) -/

/-- A message is unacknowledged 200 µs after the frame that carried it last (16 R585). -/
def resendDue (s : State) (m : TwinMsg) : Bool :=
  match m.sentAt with
  | some t => passedUs s t 200
  | none => false

/-- RESEND (16 R585): such a message is sent again with its counter and bytes. -/
def execResend (counter : Nat) (s : State) : Out :=
  .next (if twinLive s then
      match s.twin.out.find? (fun m => m.counter == counter) with
      | none => s
      | some m =>
        if resendDue s m then
          s |> setTwin { s.twin with out := s.twin.out.map (fun o => if o.counter = counter then { o with sentAt := none } else o) }
            |> queueMsg { m with sentAt := none }
        else s
    else s)

/-- A device that waits for a peer says HELLO once it is polled, or polls (16 R586 step 1). -/
def greetFirst (s : State) : State :=
  if (twinState s == Tw.detached || twinState s == Tw.steppedDown) && s.twin.myRandom.isEmpty then greet s else s

/-- LINTEL_POLL (16 R583, 02 R99, R100): the controller sends what waits, one frame where the target's ready line is high, and
polls; a polled target sends what waits, or a frame of length 0. -/
def execLintelPoll (ready : Bool) (s : State) : Out :=
  .next (if !(twinLive s) then s
    else
      let s := greetFirst s
      if regBits s Reg.twnPortCtrl 30 29 = 1 then
        let s := setLinkLine 2 { s.twin.line with ready := ready } s
        if ready then sendNext s else s
      else if s.twin.queue.isEmpty then
        setLinkLine 2 { s.twin.line with
          lanes := frameLanes { header := linkHeader true 0, declared := 0, payload := [], ready := true } } s
      else sendNext s)

/-- TWN.BACKLOG.UNITS: 64-byte units (16). -/
def backlogUnits (s : State) : Nat := capAt 1024 ((backlogBytes s + 63) / 64)

end Sys2Proof.Machine
end

