-- ==== Sys2Proof/Machine/Events.lean ====
section
/-!
DEFINITION. Sys2Proof/Machine/Events.lean: the levels of events (03 R118, R119) and the interrupt requests with their
routes (03 R121 to R124). They follow from the state and are stored nowhere.
-/
namespace Sys2Proof.Machine

/-- A word with the bits of a list set whose condition holds. -/
def levelBits (l : List (Nat × Bool)) : Word :=
  l.foldl (fun w e => if e.2 then w ||| oneBit e.1 else w) 0#32

/-- Whether any of the eight registers from `i` on has bit `b` set. -/
def anyPortBit (s : State) (i b : Nat) : Bool := (List.range 8).any (fun p => regBit s (i + p) b)

/-- CASC_DEGRADED as a level (06, `UMX.EVENT_LIVE`): head only by rate, coding, port clock or CASC_EN, or a member
present without its FWD bit during a forwarding job. -/
def degradedLive (s : State) : Bool :=
  let c := regBits s Reg.umxStatus 31 30
  c == 2 || c == 3 || (c == 1 && (membersPresent s).any (fun m => !(regBit s Reg.umxStatus (23 + m))))

/-- The levels of the events of a path page (08). -/
def pathLive (s : State) (p : Nat) : Word :=
  levelBits [(0, bpState s p == Bs.locked), (1, bpState s p == Bs.lost), (5, regBit s (bpReg p Reg.bpTcStatus) 31)]

/-- The levels of the page-specific events of a page (03 R119); 0 for events that have none. -/
def pageLive (s : State) (p : Nat) : Word :=
  match p with
  | 0x02 => levelBits [(8, regBits s Reg.txnWatermark 3 0 ≤ freeIds s)]
  | 0x05 => levelBits [(1, s.clocks.bypass), (2, s.clocks.plumb == .noRef)]
  | 0x06 => levelBits [(4, s.power.supplyLow)]
  | 0x0A => levelBits [(0, regBits s Reg.cphWatermark 4 0 ≤ queueCount s Reg.cphQPop),
      (2, (List.range 32).any (fun i => slotState s i == 2)), (8, regBits s Reg.cphWatermark 20 16 ≤ cipherFree s)]
  | 0x0D => levelBits [(0, tempHighLive s), (2, faultMap s false != 0#32 || faultMap s true != 0#32)]
  | 0x0E => levelBits [(1, twinState s == Tw.awaitConfirm), (2, twinState s == Tw.paired),
      (5, twinState s == Tw.steppedDown)]
  | 0x0F => levelBits [(2, cascState s == Cc.orphan), (3, cascState s == Cc.configErr)]
  | 0x10 => levelBits [(0, s.clocks.bypass), (2, atten s != 0), (3, fieldState s == Fs.thermalOff),
      (6, regBits s Reg.fldSurvey 15 8 ≤ regBits s Reg.fldSurveyStatus 7 0), (8, anyPortBit s Reg.fldPortStatus 30),
      (9, regBits s Reg.fldCascStatus 10 8 != 0)]
  | 0x12 => levelBits [(0, anyPortBit s Reg.frxChainStatus 30)]
  | 0x13 => levelBits [(2, degradedLive s)]
  | 0x14 => levelBits [(0, queueCount s Reg.proQPop != 0)]
  | 0x15 => levelBits [(0, regBits s Reg.invWatermark 11 0 ≤ queueCount s Reg.invQPop),
      (8, regBits s Reg.invWatermark 20 16 ≤ nfcFree s)]
  | 0x16 => levelBits [(0, s.card.above)]
  | 0x18 => pathLive s 0
  | 0x19 => pathLive s 1
  | 0x1A => pathLive s 2
  | 0x1B => pathLive s 3
  | 0x1C => levelBits [(0, regBits s Reg.bdaWatermark 9 0 ≤ queueCount s Reg.bdaQPop),
      (1, queueCount s Reg.bdaSubQPop != 0), (3, (List.range 12).any (fun k => regBits s (Reg.bdaSel + k) 31 30 == 3)),
      (8, regBits s Reg.bdaWatermark 20 16 ≤ bcastFree s)]
  | 0x1D => levelBits [(0, queueCount s Reg.ccdQPop != 0)]
  | 0x1E => levelBits [(0, !(sourceOk s))]
  | 0x20 => levelBits [(1, radioState s == 5), (3, radioState s == 11)]
  | 0x22 => levelBits [(0, regBits s Reg.vlqWatermark 5 0 ≤ queueCount s Reg.vlqQPop),
      (1, getReg s Reg.vlqDoneMap != 0#32), (8, regBits s Reg.vlqWatermark 21 16 ≤ freeSlots s)]
  | 0x28 => levelBits [(0, (masonAt s 0).state == .halted), (2, (masonAt s 0).state == .stopped)]
  | 0x29 => levelBits [(0, (masonAt s 1).state == .halted), (2, (masonAt s 1).state == .stopped)]
  | 0x2A => levelBits [(0, (masonAt s 2).state == .halted), (2, (masonAt s 2).state == .stopped)]
  | 0x2B => levelBits [(0, (masonAt s 3).state == .halted), (2, (masonAt s 3).state == .stopped)]
  | 0x2C => levelBits [(0, (masonAt s 4).state == .halted), (2, (masonAt s 4).state == .stopped)]
  | 0x30 => getReg s Reg.gioIn &&& 0xFFF#32
  | _ => 0#32

/-- EVENT_LIVE of a page: its own levels, FAULT and REJECT (03 R118). -/
def eventLive (s : State) (p : Nat) : Word :=
  pageLive s p ||| levelBits [(30, getReg s (pageReg p 8) != 0#32), (29, regBit s (pageReg p 0xA) 31)]

/-! ## Requests (03 R121 to R123) -/

/-- The enabled events of a page: EVENT and EVENT_EN. -/
def pageRequest (s : State) (p : Nat) : Word := getReg s (pageReg p 4) &&& getReg s (pageReg p 5)

/-- The targets an interrupt is routed to: HIRQ0_N, HIRQ1_N, mason 4. -/
inductive IrqTarget where
  | hirq0 | hirq1 | mason4
  deriving DecidableEq, Repr

/-- The EVENT_ROUTE code of an HIRQ target. -/
def IrqTarget.code (t : IrqTarget) : Nat :=
  match t with
  | .hirq0 => 1
  | .hirq1 => 2
  | .mason4 => 3

/-- Whether a page has a request routed to a target. -/
def pageRequests (s : State) (t : IrqTarget) (p : Nat) : Bool :=
  let e := pageRequest s p
  let route := getReg s (pageReg p 6)
  inDirectory p && pageUp s p &&
    match t with
    | .mason4 => bitAt route 16 && e != 0#32
    | _ => (bitsOf route 3 2 == t.code && bitsOf e 31 29 != 0) || (bitsOf route 1 0 == t.code && bitsOf e 28 0 != 0)

/-- IRQ.PEND for a target: the pages from `base` on with a request. -/
def irqPend (s : State) (t : IrqTarget) (base : Nat) : Word :=
  BitVec.ofNat 32 ((List.range 32).foldl (fun n k => if pageRequests s t (base + k) then n + 2 ^ k else n) 0)

/-- The target of IRQ.VEC[n]; IRQ.PEND[2n] and PEND[2n + 1] are its words. -/
def irqTarget (n : Nat) : IrqTarget := if n = 0 then .hirq0 else if n = 1 then .hirq1 else .mason4

/-- IRQ.VEC of a target. -/
def irqVec (s : State) (t : IrqTarget) : Word :=
  match allPages.find? (pageRequests s t) with
  | none => oneBit 31
  | some p => BitVec.ofNat 32 p

/-- The level of an HIRQ ball: driven low, driven high or released (03 R123). -/
inductive IrqLine where
  | low | high | released
  deriving DecidableEq, Repr

/-- The line of HIRQ0_N or HIRQ1_N. -/
def irqLine (s : State) (t : IrqTarget) : IrqLine :=
  let n := t.code - 1
  if regBit s Reg.irqLineCtrl (16 + n) && allPages.any (pageRequests s t) then .low
  else if regBit s Reg.irqLineCtrl n then .released else .high

/-- PAGE_STATUS of a page (03 R117): with its domain off, only LOCKED. -/
def pageStatusWord (s : State) (p : Nat) : Word :=
  let locked := fieldWord 29 29 (bit01 (regBit s (pageReg p 2) 31))
  if !(pageUp s p || waitsReady s (pageDomain p)) then locked
  else
    locked ||| levelBits [(31, s.doors.running.any (fun c => c.page == p)), (30, true), (28, regBit s (pageReg p 2) 0),
      (2, regBit s (pageReg p 0xA) 31), (1, getReg s (pageReg p 8) != 0#32), (0, pageRequest s p != 0#32)]

/-- EVT, the event input of mason 4 (13 R519): a request routed to it. The event inputs of masons 0 to 3 are internal
wiring (03 R121) and their state is a free value. -/
def masonEvt (s : State) : Bool := allPages.any (pageRequests s .mason4)

end Sys2Proof.Machine
end

