-- ==== Sys2Proof/Machine/Timers.lean ====
section
/-!
DEFINITION. Sys2Proof/Machine/Timers.lean: the sixteen timers (14 R527 to R542). A tick comes as a command; the count
and every register keep their home in the register storage, both halves of a linked count in CNT.
-/
namespace Sys2Proof.Machine

/-- The page of timer `n`. -/
def timerPage (n : Nat) : Nat := 0x07 + n / 8

/-- The index of template offset `off` of timer `n` (14 R541). -/
def timerReg (n off : Nat) : Nat := timerPage n * 256 + 0x18 + 15 * (n % 8) + off

/-- The timer and template offset of a register index. -/
def timerOf (i : Nat) : Option (Nat × Nat) :=
  if (i / 256 = 7 ∨ i / 256 = 8) ∧ 0x18 ≤ i % 256 ∧ i % 256 < 0x18 + 120
  then some ((i / 256 - 7) * 8 + (i % 256 - 0x18) / 15, (i % 256 - 0x18) % 15) else none

/-- Whether timer `n` is half of a linked pair (14 R531). -/
def timerLinked (s : State) (n : Nat) : Bool := regBit s (timerReg (n / 2 * 2) 0) 29

/-- Whether it is the high half of one. -/
def highHalf (s : State) (n : Nat) : Bool := n % 2 == 1 && timerLinked s n

/-- EN of a timer. -/
def timerEn (s : State) (n : Nat) : Bool := regBit s (timerReg n 0) 31

/-- Whether a timer runs as a counter of its own. -/
def timerRuns (s : State) (n : Nat) : Bool := live s && timerEn s n && !(highHalf s n)

/-- The count: 32 bits of a linked pair. -/
def timerCount (s : State) (n : Nat) : Nat :=
  if timerLinked s n then regBits s (timerReg n 1) 15 0 + 0x10000 * regBits s (timerReg (n + 1) 1) 15 0
  else regBits s (timerReg n 1) 15 0

/-- TOP, or TOP32 of a pair. -/
def timerTop (s : State) (n : Nat) : Nat :=
  if timerLinked s n then regBits s (timerReg n 11) 31 0 else regBits s (timerReg n 2) 15 0

/-- CMP, or CMP32 of a pair. -/
def timerCmp (s : State) (n : Nat) : Nat :=
  if timerLinked s n then regBits s (timerReg n 12) 31 0 else regBits s (timerReg n 3) 15 0

/-- Set the count. -/
def setTimerCount (n c : Nat) (s : State) : State :=
  if timerLinked s n then
    s |> setReg (timerReg n 1) (BitVec.ofNat 32 (c % 0x10000))
      |> setReg (timerReg (n + 1) 1) (BitVec.ofNat 32 (c / 0x10000 % 0x10000))
  else setReg (timerReg n 1) (BitVec.ofNat 32 (c % 0x10000)) s

/-- Apply a pin action to the output level (14 R539): 1 set, 2 clear, 3 toggle. -/
def pinAction (n act : Nat) (s : State) : State :=
  if !(regBit s (timerReg n 6) 31) then s
  else if act = 1 then setRegBit (timerReg n 7) 30 s
  else if act = 2 then clearRegBit (timerReg n 7) 30 s
  else if act = 3 then setRegBits (timerReg n 7) 30 30 (1 - regBits s (timerReg n 7) 30 30) s
  else s

/-- The match event of a timer, which commit condition TIMER n waits for (14 R534, R536, R539, R542). -/
def timerMatch (n : Nat) (s : State) : State :=
  s |> raiseEvent (timerPage n) (n % 8) |> conditionEvent (0x10 + n) |> pinAction n (regBits s (timerReg n 6) 1 0)

/-- The overflow event of a timer (14 R528, R539, R542). -/
def timerOverflow (n : Nat) (s : State) : State :=
  s |> raiseEvent (timerPage n) (8 + n % 8) |> pinAction n (regBits s (timerReg n 6) 3 2)

/-- Replace what the timers hold. -/
def setTimers (t : TimerUnit) (s : State) : State := { s with timers := t }

/-- The prescaler of a timer restarts (14 R527). -/
def restartPrescaler (n : Nat) (s : State) : State :=
  setTimers { s.timers with base := s.timers.base.set n s.now, ticks := s.timers.ticks.set n 0 } s

/-- Whether the next prescaler period of a timer has elapsed: 2^PRESC Keystone clocks, of which a carrier cycle holds eight (14
R527). -/
def tickDue (s : State) (n : Nat) : Bool :=
  (s.timers.ticks.getD n 0 + 1) * 2 ^ regBits s (timerReg n 0) 19 16 ≤ 8 * (s.now - s.timers.base.getD n 0)

/-- One tick of a running timer (14 R528, R534): the overflow first, then the match of the count it leaves. -/
def timerTick (n : Nat) (s : State) : State :=
  if !(timerRuns s n) || !(tickDue s n) then s
  else
    let s := setTimers { s.timers with ticks := s.timers.ticks.set n (s.timers.ticks.getD n 0 + 1) } s
    let c := timerCount s n
    let cmp := timerCmp s n
    if timerTop s n ≤ c then
      let t := s |> setTimerCount n 0 |> timerOverflow n
      let t := if regBit s (timerReg n 0) 30 then clearRegBit (timerReg n 0) 31 t else t
      if cmp = 0 then timerMatch n t else t
    else
      let t := setTimerCount n (c + 1) s
      if cmp = c + 1 then timerMatch n t else t

/-- TICK (14 R527, R528): a prescaler period of the timer has elapsed. -/
def execTick (timer : Fin 16) (s : State) : Out := .next (timerTick timer.val s)

/-- OVERFLOW (14 R528): the tick that finds the count at TOP or above; no effect while the count is below. -/
def execOverflow (timer : Fin 16) (s : State) : Out :=
  .next (if timerTop s timer.val ≤ timerCount s timer.val then timerTick timer.val s else s)

/-- MATCH (14 R534): the tick after which the count equals CMP; no effect where the next tick leaves another count. -/
def execMatchEvent (timer : Fin 16) (s : State) : Out :=
  .next (
    let c := timerCount s timer.val
    if (if timerTop s timer.val ≤ c then 0 else c + 1) = timerCmp s timer.val then timerTick timer.val s else s)

/-- CMP counts as passed: it lies less than half the modulus behind the count (14 R534). -/
def cmpPassed (s : State) (n : Nat) : Bool :=
  let m := timerTop s n + 1
  let d := (((timerCount s n : Int) - (timerCmp s n : Int)) % (m : Int)).toNat
  decide (d < (m + 1) / 2)

/-- Replace the number of edges counted. -/
def setEdges (n k : Nat) (s : State) : State := { s with timers := { s.timers with edges := s.timers.edges.set n k } }

/-- The capture input of a timer is looked at afresh: its present level will be the accepted one (14 R537). -/
def retakeInput (n : Nat) (s : State) : State :=
  setTimers { s.timers with accepted := s.timers.accepted.set n none, differing := s.timers.differing.set n 0 } s

/-- EN of a timer is set (14 R527, R537, R539): the prescaler and the edge counter restart and the output level is loaded from
INIT. -/
def timerStarted (n : Nat) (s : State) : State :=
  let s := s |> setEdges n 0 |> retakeInput n |> restartPrescaler n
  if regBit s (timerReg n 6) 31 then setRegBits (timerReg n 7) 30 30 (regBits s (timerReg n 6) 30 30) s else s

/-- What follows a write of a timer register, given the word it replaced (14 R527 to R539). -/
def timerWritten (n off : Nat) (old : Word) (s : State) : State :=
  let w := getReg s (timerReg n off)
  if off = 0 then
    let s := if bitAt w 31 then (if bitAt old 31 then restartPrescaler n s else timerStarted n s) else s
    if bitAt w 28 && !(bitAt old 28) then s |> setEdges n 0 |> retakeInput n else s
  else if off = 5 then
    if bitsOf w 27 24 = bitsOf old 27 24 then s else retakeInput n s
  else if off = 6 then
    if bitAt w 31 && !(bitAt old 31) then setRegBits (timerReg n 7) 30 30 (regBits s (timerReg n 6) 30 30) s else s
  else if (off = 3 ∧ !(timerLinked s n)) ∨ (off = 12 ∧ timerLinked s n) then
    if w ≠ old ∧ timerRuns s n ∧ cmpPassed s n then timerMatch n s else s
  else if off = 8 then
    s |> setReg (timerReg n 8) 0#32 |> setTimerCount n w.toNat
  else s

/-- Whether template offsets 8 to 13 behave as reserved registers (14 R533). -/
def timerReserved (s : State) (n off : Nat) : Bool :=
  8 ≤ off && off ≤ 13 && !(n % 2 == 0 && timerLinked s n)

/-- Whether a write of word `w` to a timer register is refused with LOCKED (14 R531). -/
def timerWriteLocked (s : State) (n off : Nat) (w : Word) : Bool :=
  (timerLinked s n && (off == 1 || off == 2 || off == 3 || off == 5))
    || (highHalf s n && (off == 0 || off == 6))
    || (off == 0 && n % 2 == 0 && bitAt w 29 != timerLinked s n && (timerEn s n || timerEn s (n + 1)))

/-- The key of HI_SNAP (0) or LO_SNAP (1) of a pair for a requester set. -/
def snapOf (set n half : Nat) : Nat := set * 64 + n / 2 * 2 + half

/-- The word a requester set reads at a timer register, where it is not the stored word (14 R532, R533, R541). -/
def timerWord (s : State) (set n off : Nat) : Option Word :=
  if timerReserved s n off then some 0#32
  else if off = 7 then
    some (setMsb (timerEn s n || (highHalf s n && timerEn s (n - 1))) (getReg s (timerReg n 7)))
  else if off = 8 then some (BitVec.ofNat 32 (timerCount s n))
  else if off = 9 then some (keyGet s.timers.snaps (snapOf set n 0) 0#32)
  else if off = 10 then some (keyGet s.timers.snaps (snapOf set n 1) 0#32)
  else none
where
  /-- The word with bit 31 as given. -/
  setMsb (b : Bool) (w : Word) : Word := withBits w 31 31 (bit01 b)

/-- A read of CNT of a linked half captures the other half for the requester's set (14 R532). -/
def captureHalf (set n off : Nat) (s : State) : State :=
  if off = 1 ∧ timerLinked s n then
    let other := if n % 2 = 0 then n + 1 else n - 1
    { s with timers := { s.timers with
        snaps := keySet s.timers.snaps (snapOf set n (n % 2)) (BitVec.ofNat 32 (regBits s (timerReg other 1) 15 0)) } }
  else s

/-- The EN bits of all timers (14 R541). -/
def timerEnMask (s : State) : Word :=
  (List.range 16).foldl (fun w n => if timerEn s n then w ||| oneBit n else w) 0#32

/-- GLOBAL_START or GLOBAL_STOP (14 R540): the timers named whose EN has not the written state, high halves apart. -/
def globalTimers (on : Bool) (mask : Word) (s : State) : State :=
  (List.range 16).foldl (fun t n =>
    if bitAt mask n && timerEn s n != on && !(highHalf s n) then
      if on then t |> setRegBit (timerReg n 0) 31 |> timerStarted n else clearRegBit (timerReg n 0) 31 t
    else t) s

/-- Whether a timer captures a change to `level` (14 R537): EDGE selects rising, falling or both. -/
def captureKind (s : State) (n : Nat) (level : Bool) : Bool :=
  match regBits s (timerReg n 5) 31 30 with
  | 0 => level
  | 1 => !level
  | _ => true

/-- An accepted edge of the selected kind is counted; every EDGE_DIV + 1 of them the count is captured (14 R537, R538). -/
def captureEdge (n : Nat) (s : State) : State :=
  let k := s.timers.edges.getD n 0 + 1
  if k ≤ regBits s (timerReg n 5) 7 0 then setEdges n k s
  else
    let off := if timerLinked s n then 13 else 4
    let s := s |> setEdges n 0 |> setReg (timerReg n off) (BitVec.ofNat 32 (timerCount s n))
      |> raiseEvent (timerPage n) (16 + n % 8)
    let s := if regBit s (timerReg n 7) 29 then setRegBit (timerReg n 7) 28 s else s
    setRegBit (timerReg n 7) 29 s

/-- One synchronised sample of the ball CAP_CFG.INPUT names (14 R537): a level is accepted after FILTER equal samples in a
row. -/
def captureSample (n : Nat) (level : Bool) (s : State) : State :=
  let t := s.timers
  match t.accepted.getD n none with
  | none => setTimers { t with accepted := t.accepted.set n (some level), differing := t.differing.set n 0 } s
  | some a =>
    if a = level then setTimers { t with differing := t.differing.set n 0 } s
    else if t.differing.getD n 0 + 1 < regBits s (timerReg n 5) 19 16 then
      setTimers { t with differing := t.differing.set n (t.differing.getD n 0 + 1) } s
    else
      let s := setTimers { t with accepted := t.accepted.set n (some level), differing := t.differing.set n 0 } s
      if captureKind s n level then captureEdge n s else s

/-- TIMER_CAPTURE (14 R537, R538): samples of the capture input at consecutive Keystone clocks. -/
def execTimerCapture (timer : Fin 16) (samples : List Bool) (s : State) : Out :=
  .next (
    if !(timerRuns s timer.val) || !(regBit s (timerReg timer.val 0) 28) then s
    else samples.foldl (fun t level => captureSample timer.val level t) s)

/-- A soft reset of a timer page: edge counters and snapshots of its timers. -/
def resetTimers (p : Nat) (s : State) : State :=
  let s := (List.range 16).foldl (fun t n => if timerPage n = p then t |> setEdges n 0 |> retakeInput n |> restartPrescaler n else t) s
  { s with timers := { s.timers with
      snaps := s.timers.snaps.filter (fun x => !(timerPage (x.1 % 64 / 2 * 2) == p)) } }

end Sys2Proof.Machine
end

