-- ==== Sys2Proof/Machine/Gio.lean ====
section
/-!
DEFINITION. Sys2Proof/Machine/Gio.lean: the general ports (19 R649 to R651).
-/
namespace Sys2Proof.Machine

/-- GIO.FUNC[n]. -/
def gioFuncOf (s : State) (n : Nat) : Word := getReg s (Reg.gioFunc + n)

/-- Whether a function code is allowed for ball `n` (19 R649). -/
def gioFuncOk (s : State) (n f : Nat) : Bool :=
  match f with
  | 0 => true
  | 1 => true
  | 2 => true
  | 3 => true
  | 4 => 8 ≤ n && n ≤ 10
  | 5 => 4 ≤ n && n ≤ 6
  | 6 => n ≤ 1 && !(debugLocked s)
  | _ => false

/-- The level of the highest-numbered timer whose PIN names ball `n` and whose OUT_EN is set (14 R539); low without
one. -/
def timerLevel (s : State) (n : Nat) : Bool :=
  (List.range 16).foldl (fun l k =>
    if regBit s (timerReg k 6) 31 && regBits s (timerReg k 6) 27 24 == n then regBit s (timerReg k 7) 30 else l) false

/-- VSW is in transmit (10 R409, R410). -/
def vswHigh (s : State) : Bool :=
  domainOn s 7 && Ra.turnTx ≤ radioState s && radioState s ≤ Ra.turnRx

/-- The level of an ANT ball (19 R649): VSW, port B for the packet in hand, the DAB input behind listening slot 0. -/
def antLevel (s : State) (n : Nat) : Bool :=
  match n with
  | 4 => vswHigh s
  | 5 => domainOn s 7 && (match s.radio.rx with
    | none => false
    | some r => r.portB)
  | _ => match slotPath s 0 with
    | none => false
    | some p => domainOn s 6 && bpMode s p == 3 && regBit s (bpReg p Reg.bpStatus) 24

/-- The level the device's own source gives ball `n`, where the model holds it: HOST, MASON4, TIMER and ANT (19 R649); the
bits of the audio output and of the console are not modelled. -/
def gioSource (s : State) (n : Nat) : Option Bool :=
  match bitsOf (gioFuncOf s n) 3 0 with
  | 1 => some (regBit s Reg.gioOut n)
  | 2 => some ((masonAt s 4).latch.getLsbD n)
  | 3 => some (timerLevel s n)
  | 5 => some (antLevel s n)
  | _ => none

/-- The level a driven ball must have: an open-drain ball is driven low only (19 R650). -/
def gioDriven (s : State) (n : Nat) : Option Bool :=
  match gioSource s n with
  | none => none
  | some b => if b && bitAt (gioFuncOf s n) 6 then none else some b

/-- Whether an edge to `level` is of the kind GIO.FUNC[n].EDGE selects (19 R651). -/
def edgeKind (s : State) (n : Nat) (level : Bool) : Bool :=
  match bitsOf (gioFuncOf s n) 9 8 with
  | 1 => level
  | 2 => !level
  | 3 => true
  | _ => false

/-- EDGE (19 R651): the synchronised level of a ball changes; a ball the device drives has the level of its source. -/
def execEdge (ball : Fin 12) (level : Bool) (s : State) : Out :=
  .next (if !(domainOn s 9) || regBit s Reg.gioIn ball.val == level || gioDriven s ball.val == some (!level) then s
    else
      let s := setRegBits Reg.gioIn ball.val ball.val (bit01 level) s
      if edgeKind s ball.val level then raiseEvent 0x30 ball.val s else s)

end Sys2Proof.Machine
end

