-- ==== Sys2Proof/Machine/MemoryPort.lean ====
section
/-!
DEFINITION. Sys2Proof/Machine/MemoryPort.lean: the memory port (02 R84 to R97): the execute-in-place window and its
prefetch buffer, flash commands through the MPT door, and the frames of the external coprocessor on MSEL1_N. What the
flash answers comes with the command that ends its frame.
-/
namespace Sys2Proof.Machine

/-- Replace the memory port. -/
def setPort (p : PortUnit) (s : State) : State := { s with port := p }

/-- A coprocessor frame of mason 4: none in progress, waiting for the port, or on it. -/
def copFrame (s : State) : Option Bool :=
  match (masonAt s 4).stall with
  | some (.frame _ _ _ onPort) => some onPort
  | _ => none

/-- A frame is on MSEL1_N: of mason 4's instruction, or of a send released after its verdict. -/
def copOnPort (s : State) : Bool := copFrame s == some true || s.port.sending.isSome

/-- A frame is on the port: nothing else starts until it ends (02 R92, R96). -/
def portBusy (s : State) : Bool := flashOnPort s || copOnPort s || s.port.fillOn

/-- What a frame on MSEL1_N begins with (02 R94): the operand count in bits 7..5 and the function in bits 4..0, then the
operand words, the one that was on top of the stack last. -/
def copHead (f : Fin 32) (ops : List Word) : List Byte :=
  BitVec.ofNat 8 (32 * ops.length + f.val) :: ops.flatMap (fun w => beBytes 4 w.toNat)

/-- What a flash frame begins with (02 R90, R92): before the first one of a command a frame of 8 cycles with every lane
high; the command byte; the address, most significant byte first. -/
def flashHead (j : FlashJob) : List Byte :=
  let flags := leField j.desc 1 1
  (if j.first then List.replicate 8 0xFF#8 else []) ++ j.desc.take 1 ++
    (if flags / 2 % 2 = 0 then [] else beBytes (if flags / 4 % 2 = 1 then 4 else 3) (leField j.desc 4 4))

/-- What a line fill begins with (02 R86): the command byte, unless continuous reading omits it, and a 24-bit address. -/
def fillHead (s : State) (n : Nat) : List Byte :=
  (if s.port.commandDue then [BitVec.ofNat 8 (regBits s Reg.mptXipCtrl 23 16)] else []) ++ beBytes 3 (64 * n)

/-- A flash door frame starts. -/
def startFlash (j : FlashJob) (s : State) : State :=
  setPort { s.port with flash := some { j with first := false, due := false, onPort := true }, head := flashHead j } s

/-- The line fill asked for starts. -/
def startFill (s : State) : State :=
  match s.port.fill with
  | some (n, _) => setPort { s.port with fillOn := true, head := fillHead s n } s
  | none => s

/-- A frame starts on MSEL1_N: the oldest send released after a verdict, else that of mason 4's instruction; with none, the
line fill asked for. -/
def startCopFrame (s : State) : State :=
  match s.port.sends with
  | (f, ops) :: t =>
    setPort { s.port with sends := t, sending := some (f, ops), copNow := s.now, head := copHead f ops } s
  | [] => match (masonAt s 4).stall with
    | some (.frame f ops n false) =>
      s |> setPort { s.port with copNow := s.now, head := copHead f ops }
        |> setMason 4 { masonAt s 4 with stall := some (.frame f ops n true) }
    | _ => startFill s

/-- The port, when it is free, passes to what waits for it (02 R92, R96): a flash door frame that is due, else a coprocessor
frame, else a line fill (notes/assumptions/51.md). -/
def grantPort (s : State) : State :=
  if portBusy s then s
  else match s.port.flash with
  | some j => if j.due then startFlash j s else startCopFrame s
  | none => startCopFrame s

/-- The port is released by a flash door frame or a coprocessor frame: the next window access sends its command phase (02
R86). -/
def releasePort (s : State) : State := setPort { s.port with commandDue := true } s

/-- A frame of the memory port carries data bytes past a check-value unit (14 R543, stream 1), read or written. -/
def portFrame (out : Bool) (data : List Byte) (s : State) : State :=
  s |> chkFeed 1 (if out then 2 else 1) data |> chkFrameEnd 1

/-! ## The window (02 R86, R87) -/

/-- The buffered line `n`. -/
def lineOf (s : State) (n : Nat) : Option (List Byte) := keyFind s.port.lines n

/-- A line becomes the most recently used of four. -/
def useLine (n : Nat) (data : List Byte) (p : PortUnit) : PortUnit :=
  { p with lines := ((n, data) :: p.lines.filter (fun l => l.1 != n)).take 4 }

/-- A miss asks for line `n`. -/
def missLine (n : Nat) (p : PortUnit) : PortUnit :=
  match p.fill with
  | none => { p with fill := some (n, true) }
  | some (k, d) =>
    if k = n then { p with fill := some (k, true) }
    else if p.misses.contains n then { p with fill := some (k, d) } else { p with misses := p.misses ++ [n] }

/-- A read of the window needs line `n`: a line that is buffered is the most recently used, another is asked for. -/
def touchLine (n : Nat) (s : State) : State :=
  match lineOf s n with
  | some data => setPort (useLine n data s.port) s
  | none => grantPort (setPort (missLine n s.port) s)

/-- A mason reads the window at a flash address (02 R86, R87): the word, or none while the read is held. With the window
disabled the spec states no value, and the word is free. -/
def xipRead (a : Nat) (s : State) : State × Option Word :=
  if flashOnPort s then (s, none)
  else if !(regBit s Reg.mptXipCtrl 31) then (useFree s, some (freeWordOf s))
  else (touchLine (a / 64) s, (lineOf s (a / 64)).map (fun data => leWord (data.drop (a % 64 / 4 * 4))))

/-- The fetch of the program word at an address through the window asks for its line (02 R88). -/
def fetchWord (m : Fin 5) (a : Nat) (s : State) : State :=
  if fetchesFlash s m && !(flashOnPort s) && regBit s Reg.mptXipCtrl 31 then touchLine (packageAddr a / 64) s else s

/-- The fetch of the instruction at PC: its first word, and its second once the first says that it has one. -/
def fetchInstr (m : Fin 5) (s : State) : State :=
  let pc := (masonAt s m).pc
  let s := fetchWord m pc s
  if fetched s m pc && wordsOf (progWord s m pc) == 2 then fetchWord m (pc + 1) s else s

/-- What is filled after line `n` (02 R87): a waiting miss, else the next line when a miss asked for this one. -/
def nextFill (n : Nat) (demand : Bool) (p : PortUnit) : PortUnit :=
  match p.misses with
  | k :: t => { p with fill := some (k, true), misses := t }
  | [] => { p with fill := if demand && n + 1 < 0x40000 && (keyFind p.lines (n + 1)).isNone then some (n + 1, false) else none }

/-- LINE_FILL (02 R87): the 64 bytes of the line on MSEL0_N arrive. -/
def execLineFill (data : List Byte) (s : State) : Out :=
  .next (match s.port.fill with
    | none => s
    | some (n, demand) =>
      if !(live s) || !s.port.fillOn || data.length != 64 then s
      else
        let s := portFrame false data s
        grantPort (setPort (nextFill n demand
          { useLine n data s.port with fillOn := false, commandDue := !(regBit s Reg.mptXipCtrl 30) }) s))

/-! ## Flash commands (02 R90 to R92) -/

/-- Whether the fields common to both flash descriptors are out of range (02 R90). -/
def flashHeadBad (d : List Byte) : Bool :=
  let flags := leField d 1 1
  let addr := leField d 4 4
  16 ≤ flags || 16 ≤ leField d 2 1 || (flags % 2 == 1 && leField d 2 1 != 0) || leField d 3 1 != 0
    || (flags / 2 % 2 == 0 && addr != 0) || (flags / 4 % 2 == 0 && 0x1000000 ≤ addr) || !(zeroField d 14 2)

/-- Whether a FLASH_FRAME descriptor is BAD_ARG (02 R90). -/
def flashFrameBad (s : State) (d : List Byte) : Bool :=
  let a := leField d 8 4
  let n := leField d 12 2
  flashHeadBad d || (if leField d 1 1 / 8 % 2 = 1 then a != 0 || n != 0
    else a % 8 != 0 || n == 0 || 4096 < n || mortarEnd < a + n || descOff s a n)

/-- Whether a FLASH_POLL descriptor is BAD_ARG (02 R91). -/
def flashPollBad (d : List Byte) : Bool :=
  let every := leField d 10 2
  let limit := leField d 12 2
  flashHeadBad d || leField d 1 1 % 2 == 1 || leField d 1 1 / 8 % 2 == 1 || every == 0 || 1000 < every || limit == 0
    || 60000 < limit

/-- A flash door command (02 R90 to R92). -/
def doorFlash (poll : Bool) (req : Requester) (word : Word) (s : State) : State :=
  let a := 16 * bitsOf word 15 0
  let s := if descOff s a 16 then s else settleRange a 16 s
  let d := mortarBytes s a 16
  doorWrite req 0x04 word
    (firstRefusal [(descOff s a 16 || (if poll then flashPollBad d else flashFrameBad s d), Oc.badArg),
      (s.port.flash.isSome, Oc.queueFull)]) none
    (fun id _ t => grantPort (setPort { t.port with
      flash := some { id := id, poll := poll, desc := d, first := true, due := true, onPort := false, since := t.now,
                      lastEnd := t.now } } t)) s

/-- MPT door command FLASH_FRAME (02 R90). -/
def doorFlashFrame (req : Requester) (word : Word) (s : State) : State := doorFlash false req word s

/-- MPT door command FLASH_POLL (02 R91). -/
def doorFlashPoll (req : Requester) (word : Word) (s : State) : State := doorFlash true req word s

/-- FLASH_FRAME. -/
def execFlashFrame (req : Requester) (tag : Byte) (arg : BitVec 16) (s : State) : Out :=
  .next (doorIssue 0x04 doorFlashFrame req (doorWord tag 0x10 arg) s)

/-- FLASH_POLL. -/
def execFlashPoll (req : Requester) (tag : Byte) (arg : BitVec 16) (s : State) : Out :=
  .next (doorIssue 0x04 doorFlashPoll req (doorWord tag 0x11 arg) s)

/-- A flash door command ends (02 R92): the prefetch buffer is invalidated, the next window access sends its command
phase, and what waits for the port follows. -/
def endFlash (j : FlashJob) (oc : Nat) (s : State) : State :=
  s |> setPort { s.port with lines := [], commandDue := true, flash := none } |> finishCmd j.id oc |> grantPort

/-- The byte FLASH_POLL looks for has come (02 R91). -/
def pollHit (d : List Byte) (b : Byte) : Bool := (b &&& d.getD 8 0#8) == (d.getD 9 0#8 &&& d.getD 8 0#8)

/-- FLASH_FRAME_END (02 R90, R91): MSEL0_N rises after the last byte of a door frame; `data` is what a read frame
brought, LEN bytes of it, or the one byte of a poll. -/
def execFlashFrameEnd (data : List Byte) (s : State) : Out :=
  .next (match s.port.flash with
    | none => s
    | some j =>
      let a := leField j.desc 8 4
      let n := leField j.desc 12 2
      let flags := leField j.desc 1 1
      if !j.onPort then s
      else if j.poll then
        match data with
        | [b] =>
          let s := s |> portFrame false [b] |> setRegBits Reg.mptFlashStatus 7 0 b.toNat
          if pollHit j.desc b then endFlash j Oc.done s
          else grantPort (releasePort (setPort { s.port with flash := some { j with onPort := false, lastEnd := s.now } } s))
        | _ => s
      else if flags / 8 % 2 = 1 then endFlash j Oc.done s
      else if flags % 2 = 1 then
        if rangeBusy s a n then s
        else
        let s := settleRange a n s
        endFlash j Oc.done (portFrame true (mortarBytes s a n) s)
      else if data.length = n then endFlash j Oc.done (engineWrite a data (portFrame false data s))
      else s)

/-- POLL_INTERVAL (02 R91): INTERVAL_US after the end of a poll's frame the next one is due. -/
def execPollInterval (s : State) : Out :=
  .next (match s.port.flash with
    | some j =>
      if j.poll && !j.onPort && !j.due && passedUs s j.lastEnd (leField j.desc 10 2) then
        grantPort (setPort { s.port with flash := some { j with due := true } } s)
      else s
    | none => s)

/-- POLL_TIMEOUT (02 R91): TIMEOUT_MS has passed since the door write. -/
def execPollTimeout (s : State) : Out :=
  .next (match s.port.flash with
    | some j => if j.poll && passedMs s j.since (leField j.desc 12 2) then endFlash j 0x40 s else s
    | none => s)

/-- A soft reset of MPT drops its command, which has ended (03 R116); what waited for the port follows. -/
def resetPort (s : State) : State :=
  grantPort (setPort { s.port with lines := [], commandDue := true, flash := none } s)

end Sys2Proof.Machine
end

