-- ==== Sys2Proof/Machine/Startup.lean ====
section
/-!
DEFINITION. Sys2Proof/Machine/Startup.lean: resets, Start-up and its end, the regulatory region, the lock fuses, copies
to and from MRAM, and the stop image (18, 12 R483, R484, 11 R445, 01 R32).
-/
namespace Sys2Proof.Machine

/-- Replace the boot unit, the NVL unit. -/
def setBoot (b : Boot) (s : State) : State := { s with bootUnit := b }
def setNvl (n : NvlUnit) (s : State) : State := { s with nvl := n }

/-! ## Resets (18 R624, R625) -/

/-- Fuses of a lock with the bits of a number blown (12 R483). -/
def blownFuses (fuses : BitVec 12) (lock bits : Nat) : BitVec 12 := fuses ||| BitVec.ofNat 12 (bits % 8 * 8 ^ lock)

/-- The fuses after the BLOW in progress, if any, has been cut off: its bits are programmed in order, and how many were is left
open (12 R483). -/
def cutFuses (s : State) : BitVec 12 :=
  match s.nvl.blows with
  | [] => s.ident.fuses
  | (_, lock) :: _ => blownFuses s.ident.fuses lock (2 ^ (Config.freeNat s.freeIndex % 4) - 1)

/-- The device enters reset: what PD0, the fuses and MRAM hold is kept, everything else is as at State.reset (18 R625).
Mortar is undefined (01 R30). -/
def enterReset (cause : Nat) (s : State) : State :=
  { State.reset with
    pending := s.pending
    now := s.now
    freeIndex := s.freeIndex + bit01 (!s.nvl.blows.isEmpty)
    rtc := s.rtc
    ident := { s.ident with jobs := [], rngOk := false, fuses := cutFuses s }
    mem := { State.reset.mem with mram := s.mem.mram, mramPoison := s.mem.mramPoison }
    bootUnit := { State.reset.bootUnit with
      cause := if s.phase = .inReset then s.bootUnit.cause else cause
      bootFails := s.bootUnit.bootFails
      boot0 := s.bootUnit.boot0
      fwIndex := s.bootUnit.fwIndex } }

/-- BOOT_FAILS is written to MRAM (01 R32, 18 R627). -/
def setBootFails (n : Nat) (s : State) : State :=
  s |> mramRewrite 0x0DB000 (leBytes 4 n) |> fun t => setBoot { t.bootUnit with bootFails := n } t

/-- A failed boot (18 R627): it is counted, and the device resets with CAUSE 4; the reset before it has ended (R624). -/
def failedBoot (s : State) : State :=
  enterReset 4 (setBootFails (min 3 (s.bootUnit.bootFails + 1)) { s with phase := .run })

/-- A double trap of mason 0 (17 R620, 18 R627): before START_DONE it is a failed boot. -/
def mason0Fails (s : State) : State := if s.boot = .startUp then failedBoot s else enterReset 4 s

/-- RESET_N (18 R624): held low for 10 µs or more. -/
def execResetN (s : State) : Out :=
  .next (let t := enterReset 2 s
    setBoot { t.bootUnit with holdReset := true } t)

/-- SUPPLY (15 R579, R559): VSUP below 2.85 V, VD18 out of 1.70 to 1.90 V, or the main oscillator stopped; the device resets with
CAUSE 3. A VD18 excursion raises PWR.FAULT.BUCK, which is read after the reset. In Stop the supplies only feed PD0. -/
def execSupply (vd18 : Option Byte) (s : State) : Out :=
  .next (if s.phase = .stopped || vd18.any (fun v => 170 ≤ v.toNat && v.toNat ≤ 190) then s
    else
      let t := enterReset 3 s
      match vd18 with
      | none => t
      | some v => raiseFault 0x06 0 v.toNat t)

/-- POWER_UP (18 R624, 15 R570, 11 R449): VSUP reaches 2.85 V. After a loss of PD0 the counters restart at 0. -/
def execPowerUp (lost : Bool) (s : State) : Out :=
  .next (let t := enterReset 1 s
    if lost then
      let t := { t with rtc := { State.reset.rtc with baseNow := s.now, monoNow := s.now } }
      t |> setBoot { t.bootUnit with cause := 1 } |> restoreBuckets true
    else t)

/-- DEV.STATUS (18 R634). -/
def devStatusWord (s : State) : Word :=
  let b := s.bootUnit
  let st := match s.boot with
    | .startUp => 1
    | .run => 2
    | .recovery => 3
  fieldWord 31 28 st ||| fieldWord 27 27 (bit01 b.idGen) ||| fieldWord 26 25 b.image ||| fieldWord 24 23 b.bootFails
    ||| fieldWord 22 20 b.cause ||| fieldWord 19 18 b.recovery ||| fieldWord 12 0 (capAt 8191 b.rejects)

/-! ## The regulatory region and the OEM key (11 R445, 12 R484) -/

/-- The registers of the regulatory region, in the order the model keeps them in MRAM (notes/assumptions/19.md). -/
def regionRegs : List Nat := Reg.regField :: (List.range 24).map (fun k => Reg.regSubLo + k)

/-- Address of the region: a mark that it has been written, then its words. -/
def regionAddr : Nat := 0x0DA000

/-- The region has been written to MRAM; otherwise it is as delivered (11 R446). -/
def regionWritten (s : State) : Bool := mramWord s regionAddr == 1

/-- The region as MRAM holds it: all 0 where a word is uncorrectable (17 R613), else what was written, else as
delivered. -/
def regionWords (s : State) : List Word :=
  if mramRangePoison s regionAddr 4096 then regionRegs.map (fun _ => 0#32)
  else if regionWritten s then
    (List.range 25).map (fun k => BitVec.ofNat 32 (mramWord s (regionAddr + 4 + 4 * k)))
  else regionRegs.map regReset

/-- The REG registers are loaded (11 R445). -/
def loadRegion (s : State) : State :=
  let s := if mramRangePoison s regionAddr 4096 then persistFault regionAddr s else s
  (regionRegs.zip (regionWords s)).foldl (fun t p => setReg p.1 p.2 t) s

/-- A changed region is written. -/
def writeRegion (s : State) : State :=
  let now := regionRegs.map (getReg s)
  if now = regionWords s then s
  else mramRewrite regionAddr (leBytes 4 1 ++ wordsBytes now ++ List.replicate 4 0#8) s

/-- REG.PAGE_CTRL.LOCK is set. -/
def lockRegion (s : State) : State := setRegBit (pageReg 0x23 2) 31 s

/-- Whether the region fields can be written (11 R445): in Start-up with the fuse intact and the page not locked. -/
def regionOpen (s : State) : Bool :=
  s.boot == .startUp && !(s.ident.locks.getLsbD 2) && !(regBit s (pageReg 0x23 2) 31)

/-- REG.STATUS. -/
def regStatusWord (s : State) : Word :=
  fieldWord 31 31 (bit01 (s.ident.locks.getLsbD 2)) ||| fieldWord 30 30 (bit01 (regionOpen s))

/-- Address of the OEM key (01 R32). -/
def oemAddr : Nat := 0x0DB010

/-- The OEM key registers are loaded (12 R484): 0 where a word is uncorrectable (17 R613). -/
def loadOem (s : State) : State :=
  let bad := mramRangePoison s oemAddr 64
  let s := if bad then persistFault oemAddr s else s
  (List.range 16).foldl (fun t k =>
    let w := if bad then 0#32 else BitVec.ofNat 32 (beNat (mramBytes t (oemAddr + 4 * k) 4))
    setReg (if k < 8 then Reg.nvlOemX + k else Reg.nvlOemY + (k - 8)) w t) s

/-- The OEM key is written. -/
def writeOem (s : State) : State :=
  let key := (List.range 16).flatMap (fun k =>
    beBytes 4 (getReg s (if k < 8 then Reg.nvlOemX + k else Reg.nvlOemY + (k - 8))).toNat)
  if mramBytes s oemAddr 64 = key ∧ mramRangePoison s oemAddr 64 = false then s else mramRewrite oemAddr key s

/-- Whether the OEM key can be written (12 R484). -/
def oemOpen (s : State) : Bool := s.boot == .startUp && !(s.ident.locks.getLsbD 3)

/-! ## DEV's doors (18 R630, R634) -/

/-- START_DONE takes effect (18 R630). -/
def startDone (id : Nat) (s : State) : State :=
  let s := s |> writeRegion |> writeOem |> lockRegion |> chkOpenEnd |> setBootFails 0
  { s with boot := .run } |> finishCmd id Oc.done

/-- DEV door command START_DONE: while the identity is being generated it waits (18 R630). -/
def doorStartDone (req : Requester) (word : Word) (s : State) : State :=
  doorWrite req 0x00 word (firstRefusal [(s.boot != .startUp, 0x40), (bitsOf word 15 0 != 0, Oc.badArg)]) none
    (fun id _ t =>
      if t.bootUnit.idGen then setBoot { t.bootUnit with startDoneIds := t.bootUnit.startDoneIds ++ [id] } t
      else startDone id t) s

/-- START_DONE. -/
def execStartDone (req : Requester) (tag : Byte) (arg : BitVec 16) (s : State) : Out :=
  .next (doorIssue 0x00 doorStartDone req (doorWord tag 0x10 arg) s)

/-- DEV door command RESET (18 R624): the device resets, and the command leaves no outcome. -/
def doorReset (req : Requester) (word : Word) (s : State) : State :=
  doorWrite req 0x00 word (firstRefusal [(bitsOf word 15 0 != 0, Oc.badArg)]) none (fun _ _ t => enterReset 5 t) s

/-- RESET. -/
def execReset (req : Requester) (tag : Byte) (arg : BitVec 16) (s : State) : Out :=
  .next (doorIssue 0x00 doorReset req (doorWord tag 0x11 arg) s)

/-! ## Copies (18 R633) -/

/-- Whether DST, SRC and LENGTH are out of range: multiples of 8, inside one open region of MRAM, and in Mortar that is
there. -/
def copyBad (s : State) : Bool :=
  let dst := regBits s Reg.nvlDst 20 0
  let src := regBits s Reg.nvlSrc 20 0
  let n := regBits s Reg.nvlLength 16 0
  let open_ := (0x080000 ≤ dst && dst + n ≤ 0x0C0000) || (0x0C0000 ≤ dst && dst + n ≤ 0x0D0000)
  dst % 8 != 0 || src % 8 != 0 || n % 8 != 0 || n < 8 || 65536 < n || !open_ || destBad s src n

/-- A copy joins those in progress. -/
def startCopy (write : Bool) (id : Nat) (s : State) : State :=
  let c : NvlCopy := { id := id, write := write, dst := regBits s Reg.nvlDst 20 0, src := regBits s Reg.nvlSrc 20 0,
                       left := regBits s Reg.nvlLength 16 0 }
  setNvl { s.nvl with copies := s.nvl.copies ++ [c] } s

/-- NVL door commands MRAM_WRITE and MRAM_READ (18 R633). -/
def doorMramWrite (req : Requester) (word : Word) (s : State) : State :=
  doorWrite req 0x0C word (firstRefusal [(bitsOf word 15 0 != 0 || copyBad s, Oc.badArg)]) none
    (fun id _ t => startCopy true id t) s
def doorMramRead (req : Requester) (word : Word) (s : State) : State :=
  doorWrite req 0x0C word (firstRefusal [(bitsOf word 15 0 != 0 || copyBad s, Oc.badArg)]) none
    (fun id _ t => startCopy false id t) s

/-- MRAM_WRITE. -/
def execMramWrite (req : Requester) (tag : Byte) (arg : BitVec 16) (s : State) : Out :=
  .next (doorIssue 0x0C doorMramWrite req (doorWord tag 0x10 arg) s)

/-- MRAM_READ. -/
def execMramRead (req : Requester) (tag : Byte) (arg : BitVec 16) (s : State) : Out :=
  .next (doorIssue 0x0C doorMramRead req (doorWord tag 0x11 arg) s)

/-- One word of a copy: the source is read immediately before the destination is written (18 R633). -/
def copyWord (c : NvlCopy) (s : State) : State :=
  if c.write then
    let s := settleWord (c.src / 8) s
    if bankOff s c.src then s |> countBankOff |> mramRewrite c.dst (List.replicate 8 0#8)
    else mramRewrite c.dst (mortarBytes s c.src 8) s
  else if bankOff s c.src then countBankOff s
  else engineWrite c.src (mramBytes s c.dst 8) s

/-- The words a copy has left, in ascending order. -/
def copyRest (fuel : Nat) (c : NvlCopy) (s : State) : State :=
  match fuel with
  | 0 => s
  | f + 1 =>
    if c.left < 8 then s
    else copyRest f { c with dst := c.dst + 8, src := c.src + 8, left := c.left - 8 } (copyWord c s)

/-- A copy advances by one word while time passes, but for its last word (notes/assumptions/20.md). -/
def copyTick (s : State) : State :=
  match s.nvl.copies with
  | [] => s
  | c :: rest =>
    if c.left ≤ 8 then s
    else
      let s := copyWord c s
      setNvl { s.nvl with copies := { c with dst := c.dst + 8, src := c.src + 8, left := c.left - 8 } :: rest } s

/-- MRAM_COPY_DONE (18 R633): the copy writes what is left and ends DONE. -/
def execMramCopyDone (s : State) : Out :=
  .next (match s.nvl.copies with
    | [] => s
    | c :: rest =>
      if !(live s) then s
      else s |> copyRest (c.left / 8) c |> (fun t => setNvl { t.nvl with copies := rest } t) |> finishCmd c.id Oc.done)

/-! ## Fuses (12 R483, R484) -/

/-- Blow bits of a lock; REG is locked once its fuse reads blown (12 R483). -/
def blowBits (lock bits : Nat) (s : State) : State :=
  let s := setIdent { s.ident with fuses := blownFuses s.ident.fuses lock bits } s
  if s.ident.locks.getLsbD 2 then lockRegion s else s

/-- The commands of NVL end with nothing said of what they have done so far; a BLOW is cut off (12 R483). -/
def dropNvl (s : State) : State :=
  let s := match s.nvl.blows with
    | [] => s
    | (_, lock) :: _ => useFree (blowBits lock (2 ^ (Config.freeNat s.freeIndex % 4) - 1) s)
  setNvl NvlUnit.reset s

/-- NVL door command BLOW (12 R484): each one, refused or not, clears the arm value; REG_LOCK first writes the region
to MRAM. -/
def doorBlow (req : Requester) (word : Word) (s : State) : State :=
  let lock := bitsOf word 7 0
  let armed := getReg s Reg.nvlBlowArm == BitVec.ofNat 32 (0xB10E0000 + bitsOf word 15 0)
  let s := if doorFresh req 0x0C word s then setReg Reg.nvlBlowArm 0#32 s else s
  doorWrite req 0x0C word
    (firstRefusal [(s.boot != .startUp, 0x40), (bitsOf word 15 8 != 0 || lock == 0 || 3 < lock || !armed, Oc.badArg)]) none
    (fun id _ t =>
      let t := if lock = 2 then writeRegion t else t
      setNvl { t.nvl with blows := t.nvl.blows ++ [(id, lock)] } t) s

/-- BLOW. -/
def execBlow (req : Requester) (tag : Byte) (arg : BitVec 16) (s : State) : Out :=
  .next (doorIssue 0x0C doorBlow req (doorWord tag 0x30 arg) s)

/-- BLOW_DONE (12 R483, R484): the bits of the lock that have taken are blown and verified; with all three blown it ends DONE,
else BLOW_FAILED. REG is locked once its fuse reads blown. -/
def execBlowDone (bits : BitVec 3) (s : State) : Out :=
  .next (match s.nvl.blows with
    | [] => s
    | (id, lock) :: rest =>
      if !(live s) then s
      else
        let s := s |> setNvl { s.nvl with blows := rest } |> blowBits lock bits.toNat
        finishCmd id (if s.ident.fuses.toNat / 2 ^ (3 * lock) % 8 = 7 then Oc.done else 0x41) s)

/-! ## The stop image (15 R577, 01 R32) -/

/-- Bits of a register row that the image holds: its RW and RWL fields. -/
def RegRow.imageMask (r : RegRow) : Word :=
  r.fields.foldl (fun w f => if f.acc = .rw ∨ f.acc = .rwl then w ||| maskOf f.msb f.lsb else w) 0#32

/-- The RW and RWL bits of a register: PAGE_CTRL has none on the pages whose ENABLE is RO (03 R114). -/
def imageMask (i : Nat) : Word :=
  if i % 256 = 2 ∧ !(softResets (i / 256)) then 0#32
  else match rowAt i with
    | none => 0#32
    | some (r, _) => r.imageMask

/-- The registers of a page that hold RW or RWL fields, in offset order. -/
def imageRegsOf (p : Nat) : List Nat :=
  match pageRow p with
  | none => []
  | some r => ((List.range (r.last + 1)).map (pageReg p)).filter (fun i => imageMask i != 0#32)

/-- The registers of the stop image: those of the PD1 pages, in page order. -/
def stopRegs : List Nat := (allPages.filter (fun p => pageDomain p == 1)).flatMap imageRegsOf

/-- Address of the stop image. -/
def stopAddr : Nat := 0x0DC000

/-- Write the stop image. -/
def writeStopImage (s : State) : State :=
  let words := stopRegs.map (fun i => getReg s i &&& imageMask i)
  let bytes := wordsBytes words
  mramRewrite stopAddr (leBytes 4 0x53544F50 ++ leBytes 4 words.length ++ leBytes 4 (crc32c bytes).toNat
    ++ leBytes 4 0 ++ bytes ++ (if words.length % 2 = 0 then [] else List.replicate 4 0#8)) s

/-- The words of the stop image, if it passes its check (01 R32, 17 R613). -/
def stopWords (s : State) : Option (List Word) :=
  let n := stopRegs.length
  let bytes := mramBytes s (stopAddr + 16) (4 * n)
  if mramRangePoison s stopAddr (16 + 4 * n) then none
  else if mramWord s stopAddr = 0x53544F50 ∧ mramWord s (stopAddr + 4) = n
      ∧ mramWord s (stopAddr + 8) = (crc32c bytes).toNat then some (packWords bytes)
  else none

/-- Apply the stop image at a wake: RW and RWL fields only. -/
def applyStopImage (s : State) : State :=
  match stopWords s with
  | none => persistFault stopAddr s
  | some ws => (stopRegs.zip ws).foldl (fun t p =>
      setReg p.1 ((getReg t p.1 &&& ~~~(imageMask p.1)) ||| (p.2 &&& imageMask p.1)) t) s

end Sys2Proof.Machine
end

