-- ==== Sys2Proof/Machine/Mason.lean ====
section
/-!
DEFINITION. Sys2Proof/Machine/Mason.lean: how a mason runs one instruction (13 R502 to R519): when it is issued, which
trap is taken in its place, traps and double traps. A command names the mason and the instruction; it has an effect when
the words of that instruction stand at the mason's PC.
-/
namespace Sys2Proof.Machine

/-- Trap causes (13 R518); the vector is twice the cause. -/
abbrev Tc.undefined : Nat := 1
abbrev Tc.overflow : Nat := 2
abbrev Tc.underflow : Nat := 3
abbrev Tc.illegal : Nat := 4
abbrev Tc.bitAddress : Nat := 5
abbrev Tc.address : Nat := 6
abbrev Tc.copAbsent : Nat := 8
abbrev Tc.returnStack : Nat := 9

/-- What an instruction takes and may trap for (13 R504): its words, entries popped and pushed, whether execution goes on
behind it, and the causes that hold for it where it stands. -/
structure InstrNeeds where
  words : List (BitVec 14)
  pops : Nat := 0
  pushes : Nat := 0
  falls : Bool := true
  badTarget : Bool := false
  undefined : Bool := false
  absent : Bool := false
  illegal : Bool := false
  badBit : Bool := false
  noRoom : Bool := false

/-- The power domain of a mason (13 R488). -/
def masonDomain (m : Fin 5) : Nat :=
  match m with
  | 0 => 1
  | 1 => 4
  | 2 => 6
  | 3 => 7
  | 4 => 9

/-- A breakpoint matches the next instruction (13 R523). -/
def bpMatches (s : State) (m : Fin 5) (i : Nat) : Bool :=
  let w := getReg s (pageReg (0x28 + m.val) (Reg.msBp + i))
  bitAt w 31 && bitsOf w 13 0 == (masonAt s m).pc

/-- A breakpoint halts the mason before its next instruction: once before a sequence of repetitions, and not after a
RESUME at that address (13 R523, R524). -/
def bpStops (s : State) (m : Fin 5) (i : Nat) : Bool :=
  let u := masonAt s m
  !(u.skipBp) && (u.rep == 0 || u.repFirst) && bpMatches s m i

/-- An event entry is due on mason 4 (13 R519); on masons 0 to 3 the event input is internal wiring. -/
def eventDue (s : State) (m : Fin 5) : Bool :=
  let u := masonAt s m
  u.ectrl && !u.tact && !u.eact && u.rep == 0 && (m != 4 || masonEvt s)

/-- The mason is between two instructions and goes on: it is running, and its island has its clock (15 R558). -/
def masonFree (s : State) (m : Fin 5) : Bool :=
  let u := masonAt s m
  domainOn s (masonDomain m) && u.state == .running && u.stall.isNone && !(testRuns s (0x28 + m.val))
    && islandRuns s (pageReg (0x28 + m.val) 0)

/-- Whether the instruction with these words is the next the mason issues. A long form whose first word lies at 0x3FFF
has no second word. -/
def canIssue (s : State) (m : Fin 5) (ws : List (BitVec 14)) : Bool :=
  let pc := (masonAt s m).pc
  masonFree s m && !(m == 4 && eventDue s m) && !((List.range 4).any (bpStops s m))
    && wordsAt s m pc (ws.take (0x4000 - pc))

/-- What no instruction behind REP may be (13 R515): REP, LOOP, LOOPI, LBRK, MTS to LS, LE, LC or RLEFT, a branch or
another control transfer. -/
def repBad (w : BitVec 14) : Bool :=
  let n := w.toNat
  let mts := n - 0x0800
  (0x0A40 ≤ n && n ≤ 0x0A7F) || n == 0x0A80 || n == 0x0940 || n == 0x0980 || n == 0x09C0 || n == 0x0A00 || n == 0x0AC0
    || n == 0x0B00 || n == 0x0B40 || (0x0800 ≤ n && n < 0x0840 && (mts == 6 || (16 ≤ mts && mts < 28)))
    || (0x2000 ≤ n && n < 0x3000) || n == 0x3080 || (0x3100 ≤ n && n < 0x3200) || (0x3400 ≤ n && n < 0x3580)
    || (0x3600 ≤ n && n < 0x3700)

/-- The trap that is taken in place of an instruction (13 R509, R518): the first cause in the order of the table. A
repeated instruction that REP may not name is an illegal sequence when RTT or RESUME repeats it. -/
def trapOf (u : MasonUnit) (k : InstrNeeds) : Option Nat :=
  let len := k.words.length
  let past := k.falls && u.pc + len == 0x4000 && u.rep ≤ 1 && (loopEnd 4 u.pc u).2.isNone
  if k.badTarget || past || 0x4000 < u.pc + len then some Tc.address
  else if k.undefined then some Tc.undefined
  else if k.absent then some Tc.copAbsent
  else if k.illegal || (u.rep != 0 && k.words.head?.any repBad) then some Tc.illegal
  else if k.badBit then some Tc.bitAddress
  else if u.depth < k.pops then some Tc.underflow
  else if 16 < u.depth - k.pops + k.pushes then some Tc.overflow
  else if k.noRoom then some Tc.returnStack
  else none

/-! ## Traps (13 R518, 17 R620) -/

/-- The pages of the island of masons 1 to 3: Field, Broadcast, Valve. -/
def islandPage (m : Fin 5) (p : Nat) : Bool :=
  match pageRow p with
  | none => false
  | some r => r.cls == m.val + 2

/-- Jobs of an island whose commands end FAILED are dropped with them (17 R620). -/
def dropIslandJobs (m : Fin 5) (s : State) : State :=
  let s := { s with doors := { s.doors with tests := s.doors.tests.filter (fun t => !(islandPage m t.page)) } }
  match m with
  | 1 =>
    s |> closeRun Oc.failed |> (fun t => setNfc { t.nfc with table := [] } t)
      |> (fun t => setFld { t.fld with solves := [], load := none, switchId := none } t)
      |> (fun t => setFrx { t.frx with capture := none } t)
  | 2 => (List.range 4).foldl (fun t p => bpEndAll p Oc.failed false t) s
  | 3 => setLink { s.link with slots := s.link.slots.map (fun o => if o.live then OutSlot.free else o) } s
  | _ => s

/-- A double trap of mason 1, 2 or 3 (17 R620): the commands of its island end FAILED with detail 0xFF_FFFF, and the
mason is loaded again; the third within 60 s leaves it STOPPED. -/
def firmwareFails (m : Fin 5) (cause : Nat) (s : State) : State :=
  let pages := (s.doors.running.filter (fun c => islandPage m c.page)).map (·.page)
  let s := s |> dropIslandJobs m |> finishWhere (fun c => islandPage m c.page) Oc.failed
  let s := pages.foldl (fun t p => setRegBits (pageReg p 9) 23 0 0xFFFFFF t) s
  let s := s |> raiseFault 0x0D 2 (m.val + 256 * cause)
  let recent := ((masonAt s m).doubles.filter (fun t => s.now < t + 60 * 13560000)) ++ [s.now]
  let stop := 3 ≤ recent.length
  let s := freezeMason m (if stop then .stopped else .loading) s
  let s := setMason m { masonAt s m with doubles := recent } s
  if stop then raiseEvent (0x28 + m.val) 2 s else countReg Reg.itgFwRestarts 1 s

/-- A trap while a trap handler is active (13 R518). -/
def doubleTrap (m : Fin 5) (cause : Nat) (s : State) : State :=
  let u := masonAt s m
  let s := masonFault m 5 (0x10000 * cause + u.pc) s
  match m with
  | 0 => s |> raiseFault 0x0D 2 (256 * cause) |> mason0Fails
  | 4 => s |> setMason 4 { u with state := .stopped } |> raiseEvent 0x2C 2
  | _ => firmwareFails m cause s

/-- Trap entry (13 R518): the instruction has no effect; the repetitions not done go to RLEFT. -/
def takeTrap (m : Fin 5) (cause : Nat) (s : State) : State :=
  let u := masonAt s m
  if u.tact then doubleTrap m cause s
  else
    let u := { u with
      tact := true
      tcause := cause
      tpc := u.pc
      tpcLast := u.pc
      traps := capAt 255 (u.traps + 1)
      rleft := if u.rep = 0 then u.rleft else BitVec.ofNat 32 u.rep
      rep := 0
      repFirst := false
      skipBp := false
      tlb := u.lbase
      lbase := u.ld
      cycle := u.cycle + 2
      pc := 2 * cause
      stepLeft := u.stepLeft - 1 }
    s |> setMason m u |> raiseEvent (0x28 + m.val) 1 |> atBoundary m

/-- The mason meets the instruction with these needs at PC: it traps, or `f` carries it out. Products due land first
(13 R510). A command for an instruction that is not the next one has no effect, but that a fetch through the window asks for
what it misses (02 R88). -/
def runInstr (m : Fin 5) (needs : MasonUnit → InstrNeeds) (f : MasonUnit → State → State) (s : State) : State :=
  let u := (masonAt s m).landed
  let k := needs u
  if !(canIssue s m k.words) then (if masonFree s m then fetchInstr m s else s)
  else
    let s := setMason m u (fetchInstr m s)
    match trapOf u k with
    | some c => takeTrap m c s
    | none => f u s

/-- The word of an instruction with a field. -/
def opWord (base field : Nat) : BitVec 14 := BitVec.ofNat 14 (base + field)

/-- An instruction of one word that only moves words on the operand stack: it pops, then pushes what `g` gives. -/
def stackInstr (m : Fin 5) (word : BitVec 14) (pops pushes cycles : Nat) (g : MasonUnit → List Word) (s : State) : State :=
  runInstr m (fun _ => { words := [word], pops := pops, pushes := pushes })
    (fun u t => endInstr m ((u.pop pops).pushAll (g u)) (u.pc + 1) false cycles none t) s

/-- A free bit. -/
def freeBit (s : State) : Bool := (freeWordOf s).getLsbD 0

end Sys2Proof.Machine
end

