-- ==== Sys2Proof/Machine/MasonAlu.lean ====
section
/-!
DEFINITION. Sys2Proof/Machine/MasonAlu.lean: the stack, arithmetic and literal instructions, the multiplier, the CRC
steps and the special registers (13 R500, R501, R504, R510, R512, R513). Entry 0 of the stack is its top.
-/
namespace Sys2Proof.Machine

/-- A sign-extended field as a word. -/
def sxWord {n : Nat} (v : BitVec n) : Word := v.signExtend 32

/-- NOP. -/
def execNop (m : Fin 5) (s : State) : Out := .next (stackInstr m 0x0000#14 0 0 1 (fun _ => []) s)

/-- DUP (a — a a). -/
def execDup (m : Fin 5) (s : State) : Out := .next (stackInstr m 0x0040#14 1 2 1 (fun u => [u.top 0, u.top 0]) s)

/-- DROP (a —). -/
def execDrop (m : Fin 5) (s : State) : Out := .next (stackInstr m 0x0080#14 1 0 1 (fun _ => []) s)

/-- SWAP (a b — b a). -/
def execSwap (m : Fin 5) (s : State) : Out := .next (stackInstr m 0x00C0#14 2 2 1 (fun u => [u.top 0, u.top 1]) s)

/-- OVER (a b — a b a). -/
def execOver (m : Fin 5) (s : State) : Out :=
  .next (stackInstr m 0x0100#14 2 3 1 (fun u => [u.top 1, u.top 0, u.top 1]) s)

/-- ROT (a b c — b c a). -/
def execRot (m : Fin 5) (s : State) : Out :=
  .next (stackInstr m 0x0140#14 3 3 1 (fun u => [u.top 1, u.top 0, u.top 2]) s)

/-- NIP (a b — b). -/
def execNip (m : Fin 5) (s : State) : Out := .next (stackInstr m 0x0180#14 2 1 1 (fun u => [u.top 0]) s)

/-- PICK n: entry n is copied to the top; it needs n + 1 entries. -/
def execPick (m : Fin 5) (n : Fin 16) (s : State) : Out :=
  .next (runInstr m (fun _ => { words := [opWord 0x01C0 n.val], pops := n.val + 1, pushes := n.val + 2 })
    (fun u t => endInstr m (u.push (u.top n.val)) (u.pc + 1) false 1 none t) s)

/-- ADD (a b — a + b). -/
def execAdd (m : Fin 5) (s : State) : Out := .next (stackInstr m 0x0200#14 2 1 1 (fun u => [u.top 1 + u.top 0]) s)

/-- SUB (a b — a − b). -/
def execSub (m : Fin 5) (s : State) : Out := .next (stackInstr m 0x0240#14 2 1 1 (fun u => [u.top 1 - u.top 0]) s)

/-- AND. -/
def execAndOp (m : Fin 5) (s : State) : Out := .next (stackInstr m 0x0280#14 2 1 1 (fun u => [u.top 1 &&& u.top 0]) s)

/-- OR. -/
def execOrOp (m : Fin 5) (s : State) : Out := .next (stackInstr m 0x02C0#14 2 1 1 (fun u => [u.top 1 ||| u.top 0]) s)

/-- XOR. -/
def execXorOp (m : Fin 5) (s : State) : Out := .next (stackInstr m 0x0300#14 2 1 1 (fun u => [u.top 1 ^^^ u.top 0]) s)

/-- NOT. -/
def execNotOp (m : Fin 5) (s : State) : Out := .next (stackInstr m 0x0340#14 1 1 1 (fun u => [~~~(u.top 0)]) s)

/-- NEG. -/
def execNeg (m : Fin 5) (s : State) : Out := .next (stackInstr m 0x0380#14 1 1 1 (fun u => [0#32 - u.top 0]) s)

/-- ADDI s. -/
def execAddi (m : Fin 5) (imm : BitVec 6) (s : State) : Out :=
  .next (stackInstr m (opWord 0x03C0 imm.toNat) 1 1 1 (fun u => [u.top 0 + sxWord imm]) s)

/-- SHL n. -/
def execShl (m : Fin 5) (n : Fin 32) (s : State) : Out :=
  .next (stackInstr m (opWord 0x0400 n.val) 1 1 1 (fun u => [u.top 0 <<< n.val]) s)

/-- SHR n: logical. -/
def execShr (m : Fin 5) (n : Fin 32) (s : State) : Out :=
  .next (stackInstr m (opWord 0x0440 n.val) 1 1 1 (fun u => [u.top 0 >>> n.val]) s)

/-- SAR n: arithmetic. -/
def execSar (m : Fin 5) (n : Fin 32) (s : State) : Out :=
  .next (stackInstr m (opWord 0x0480 n.val) 1 1 1 (fun u => [(u.top 0).sshiftRight n.val]) s)

/-- ROL n. -/
def execRol (m : Fin 5) (n : Fin 32) (s : State) : Out :=
  .next (stackInstr m (opWord 0x04C0 n.val) 1 1 1 (fun u => [(u.top 0).rotateLeft n.val]) s)

/-- SHLV (a n — a shifted by n[4:0]). -/
def execShlv (m : Fin 5) (s : State) : Out :=
  .next (stackInstr m 0x0500#14 2 1 1 (fun u => [u.top 1 <<< bitsOf (u.top 0) 4 0]) s)

/-- SHRV. -/
def execShrv (m : Fin 5) (s : State) : Out :=
  .next (stackInstr m 0x0540#14 2 1 1 (fun u => [u.top 1 >>> bitsOf (u.top 0) 4 0]) s)

/-- SARV. -/
def execSarv (m : Fin 5) (s : State) : Out :=
  .next (stackInstr m 0x0580#14 2 1 1 (fun u => [(u.top 1).sshiftRight (bitsOf (u.top 0) 4 0)]) s)

/-- LIT s, the short form. -/
def execLit (m : Fin 5) (imm : BitVec 6) (s : State) : Out :=
  .next (stackInstr m (opWord 0x05C0 imm.toNat) 0 1 1 (fun _ => [sxWord imm]) s)

/-- LITU u. -/
def execLitu (m : Fin 5) (imm : BitVec 6) (s : State) : Out :=
  .next (stackInstr m (opWord 0x0600 imm.toNat) 0 1 1 (fun _ => [imm.setWidth 32]) s)

/-! ## The multiplier (R510) -/

/-- The product of the top two entries: its 64 bits land in MHI:MLO at the end of the third cycle after issue. -/
def mulInstr (m : Fin 5) (word : BitVec 14) (f : Word → Word → BitVec 64) (s : State) : State :=
  runInstr m (fun _ => { words := [word], pops := 2 })
    (fun u t =>
      let p := f (u.top 1) (u.top 0)
      let u := u.pop 2
      endInstr m { u with products := u.products ++
        [{ due := u.cycle + 4, lo := p.extractLsb' 0 32, hi := p.extractLsb' 32 32 }] } (u.pc + 1) false 1 none t) s

/-- MUL: signed. -/
def execMul (m : Fin 5) (s : State) : Out :=
  .next (mulInstr m 0x0640#14 (fun a b => a.signExtend 64 * b.signExtend 64) s)

/-- MULU: unsigned. -/
def execMulu (m : Fin 5) (s : State) : Out :=
  .next (mulInstr m 0x0680#14 (fun a b => a.setWidth 64 * b.setWidth 64) s)

/-- PRODUCT_LANDS (R510, R524): the oldest product is written to MLO and MHI once its cycle has come, or while the
mason's own cycles do not count. -/
def execProductLands (m : Fin 5) (s : State) : Out :=
  .next (
    let u := masonAt s m
    match u.products with
    | [] => s
    | p :: rest =>
      if p.due ≤ u.cycle || u.state != .running || u.stall.isSome then
        setMason m { u with mlo := p.lo, mhi := p.hi, products := rest } s
      else s)

/-! ## CRC steps and bit reversal (R512, R513) -/

/-- CRCB (c x — c′). -/
def execCrcb (m : Fin 5) (s : State) : Out :=
  .next (stackInstr m 0x06C0#14 2 1 1
    (fun u => [crcBytes (crcOfSel u.crcSel) (u.top 1) (leBytes 1 (u.top 0).toNat)]) s)

/-- CRCW (c x — c′): the bytes of x in the order of memory. -/
def execCrcw (m : Fin 5) (s : State) : Out :=
  .next (stackInstr m 0x0700#14 2 1 2
    (fun u => [crcBytes (crcOfSel u.crcSel) (u.top 1) (leBytes 4 (u.top 0).toNat)]) s)

/-- BREV: bit i to bit 31 − i. -/
def execBrev (m : Fin 5) (s : State) : Out := .next (stackInstr m 0x0740#14 1 1 1 (fun u => [reflectIn 32 (u.top 0)]) s)

/-- A word with bit i of each byte moved to bit 7 − i. -/
def reverseBytes (w : Word) : Word :=
  leWord ((leBytes 4 w.toNat).map (fun b => BitVec.ofNat 8 (reflectIn 8 (b.setWidth 32)).toNat))

/-- BREVB. -/
def execBrevb (m : Fin 5) (s : State) : Out := .next (stackInstr m 0x0780#14 1 1 1 (fun u => [reverseBytes (u.top 0)]) s)

/-! ## Special registers (R500, R501) -/

/-- MFS n. -/
def execMfs (m : Fin 5) (n : Fin 64) (s : State) : Out :=
  .next (stackInstr m (opWord 0x07C0 n.val) 0 1 1 (fun u => [sprRead m u n.val]) s)

/-- MTS n: to an RO or reserved number, or with a reserved encoding, it pops its operand and raises FAULT.SPR. -/
def execMts (m : Fin 5) (n : Fin 64) (s : State) : Out :=
  .next (runInstr m (fun _ => { words := [opWord 0x0800 n.val], pops := 1 })
    (fun u t =>
      let w := u.top 0
      let pc := u.pc
      let u := u.pop 1
      match sprWrite u n.val w with
      | some v => endInstr m v (pc + 1) false 1 none t
      | none => endInstr m u (pc + 1) false 1 none (masonFault m 3 pc t)) s)

/-! ## Comparisons and long literals (R504) -/

/-- SLT: 1 if a < b, signed. -/
def execSlt (m : Fin 5) (s : State) : Out :=
  .next (stackInstr m 0x0B80#14 2 1 1 (fun u => [if (u.top 1).slt (u.top 0) then 1#32 else 0#32]) s)

/-- SLTU: 1 if a < b, unsigned. -/
def execSltu (m : Fin 5) (s : State) : Out :=
  .next (stackInstr m 0x0BC0#14 2 1 1 (fun u => [if (u.top 1).ult (u.top 0) then 1#32 else 0#32]) s)

/-- SEQ: 1 if a = b. -/
def execSeq (m : Fin 5) (s : State) : Out :=
  .next (stackInstr m 0x0C00#14 2 1 1 (fun u => [if u.top 1 = u.top 0 then 1#32 else 0#32]) s)

/-- LIT K, the long form. -/
def execLitLong (m : Fin 5) (k : BitVec 14) (s : State) : Out :=
  .next (runInstr m (fun _ => { words := [0x3000#14, k], pushes := 1 })
    (fun u t => endInstr m (u.push (sxWord k)) (u.pc + 2) false 1 none t) s)

/-- LITX K (a — (a << 14) OR K). -/
def execLitx (m : Fin 5) (k : BitVec 14) (s : State) : Out :=
  .next (runInstr m (fun _ => { words := [0x3040#14, k], pops := 1, pushes := 1 })
    (fun u t => endInstr m ((u.pop 1).push ((u.top 0 <<< 14) ||| k.setWidth 32)) (u.pc + 2) false 1 none t) s)

/-! ## Pointer registers (R504) -/

/-- PADD p, s: PTp += 4 × sx(s). -/
def execPadd (m : Fin 5) (p : Fin 8) (imm : BitVec 6) (s : State) : Out :=
  .next (runInstr m (fun _ => { words := [opWord 0x1800 (64 * p.val + imm.toNat)] })
    (fun u t => endInstr m (u.setPt p.val (u.pt p.val + (sxWord imm <<< 2))) (u.pc + 1) false 1 none t) s)

/-- PGET p, f (— PTp + 4f). -/
def execPget (m : Fin 5) (p : Fin 8) (f : BitVec 6) (s : State) : Out :=
  .next (stackInstr m (opWord 0x1A00 (64 * p.val + f.toNat)) 0 1 1 (fun u => [u.pt p.val + BitVec.ofNat 32 (4 * f.toNat)]) s)

/-- PSET p (a —). -/
def execPset (m : Fin 5) (p : Fin 8) (s : State) : Out :=
  .next (runInstr m (fun _ => { words := [opWord 0x1C00 (64 * p.val)], pops := 1 })
    (fun u t => endInstr m ((u.pop 1).setPt p.val (u.top 0)) (u.pc + 1) false 1 none t) s)

end Sys2Proof.Machine
end

