-- ==== Sys2Proof/Machine/MasonFlow.lean ====
section
/-!
DEFINITION. Sys2Proof/Machine/MasonFlow.lean: jumps, branches, calls, loops, the repeat prefix, the returns from handlers,
waiting and halting instructions, event entry, breakpoints and undefined opcodes (13 R503, R507 to R519, R523).
-/
namespace Sys2Proof.Machine

/-! ## Jumps and branches (R507, R509, R514) -/

/-- A branch with its decision and target: taken at the LE of a level it is an illegal sequence; out of program memory
a bad address. `known` says that its operands are there. -/
def branchNeeds (words : List (BitVec 14)) (pops : Nat) (known taken : Bool) (target : Int) (u : MasonUnit) : InstrNeeds :=
  let go := known && taken
  { words := words
    pops := pops
    falls := known && !taken
    badTarget := go && (target < 0 || 0x3FFF < target)
    illegal := go && u.atLe u.pc }

/-- A class 0b10 branch: condition `c`, popped operands, offset from the next instruction. -/
def branchInstr (m : Fin 5) (c pops : Nat) (off : BitVec 9) (cond : MasonUnit → Bool) (s : State) : State :=
  let target := fun (u : MasonUnit) => (u.pc : Int) + 1 + off.toInt
  runInstr m (fun u => branchNeeds [opWord 0x2000 (0x200 * c + off.toNat)] pops (pops ≤ u.depth) (cond u) (target u) u)
    (fun u t =>
      if cond u then endInstr m (u.pop pops) (target u).toNat true 2 none t
      else endInstr m (u.pop pops) (u.pc + 1) false 1 none t) s

/-- BEQ (a b —). -/
def execBeq (m : Fin 5) (off : BitVec 9) (s : State) : Out :=
  .next (branchInstr m 0 2 off (fun u => u.top 1 == u.top 0) s)

/-- BNE. -/
def execBne (m : Fin 5) (off : BitVec 9) (s : State) : Out :=
  .next (branchInstr m 1 2 off (fun u => u.top 1 != u.top 0) s)

/-- BLT: signed. -/
def execBlt (m : Fin 5) (off : BitVec 9) (s : State) : Out :=
  .next (branchInstr m 2 2 off (fun u => (u.top 1).slt (u.top 0)) s)

/-- BGE: signed. -/
def execBge (m : Fin 5) (off : BitVec 9) (s : State) : Out :=
  .next (branchInstr m 3 2 off (fun u => !((u.top 1).slt (u.top 0))) s)

/-- BLTU. -/
def execBltu (m : Fin 5) (off : BitVec 9) (s : State) : Out :=
  .next (branchInstr m 4 2 off (fun u => (u.top 1).ult (u.top 0)) s)

/-- BGEU. -/
def execBgeu (m : Fin 5) (off : BitVec 9) (s : State) : Out :=
  .next (branchInstr m 5 2 off (fun u => !((u.top 1).ult (u.top 0))) s)

/-- BZ (a —). -/
def execBz (m : Fin 5) (off : BitVec 9) (s : State) : Out :=
  .next (branchInstr m 6 1 off (fun u => u.top 0 == 0#32) s)

/-- BNZ. -/
def execBnz (m : Fin 5) (off : BitVec 9) (s : State) : Out :=
  .next (branchInstr m 7 1 off (fun u => u.top 0 != 0#32) s)

/-- JMP K. -/
def execJmp (m : Fin 5) (k : BitVec 14) (s : State) : Out :=
  .next (runInstr m (fun u => { words := [0x3080#14, k], falls := false, illegal := u.atLe u.pc })
    (fun u t => endInstr m u k.toNat true 2 none t) s)

/-- JMPI (a —). -/
def execJmpi (m : Fin 5) (s : State) : Out :=
  .next (runInstr m (fun u => 
        { words := [0x0940#14], pops := 1, falls := false,
          badTarget := 1 ≤ u.depth && 0x4000 ≤ (u.top 0).toNat, illegal := u.atLe u.pc })
    (fun u t => endInstr m (u.pop 1) (u.top 0).toNat true 2 none t) s)

/-! ## Calls (R508) -/

/-- The pointers a mask names, lowest first. -/
def maskList (mask : Nat) : List Nat := (List.range 8).filter (fun p => mask.testBit p)

/-- The mason with the pointers of a mask and the link entry pushed. -/
def pushLink (mask ret : Nat) (u : MasonUnit) : MasonUnit :=
  ((maskList mask).foldl (fun v p => v.rpush (v.pt p)) u).rpush (BitVec.ofNat 32 (ret % 0x4000 + 0x4000 * mask))

/-- CALL K, saving the pointers in a mask. -/
def execCall (m : Fin 5) (mask : Byte) (k : BitVec 14) (s : State) : Out :=
  .next (
    let n := (maskList mask.toNat).length
    runInstr m (fun u => 
        { words := [opWord 0x3100 mask.toNat, k], falls := false, illegal := u.atLe u.pc,
          noRoom := 32 < u.rdepth + n + 1 })
      (fun u t => endInstr m (pushLink mask.toNat (u.pc + 2) u) k.toNat true (2 + n) none t) s)

/-- CALLI (a —), saving the pointers in a mask. -/
def execCalli (m : Fin 5) (mask : Byte) (s : State) : Out :=
  .next (
    let n := (maskList mask.toNat).length
    runInstr m (fun u => 
        { words := [opWord 0x3600 mask.toNat, 0#14], pops := 1, falls := false,
          badTarget := 1 ≤ u.depth && 0x4000 ≤ (u.top 0).toNat, illegal := u.atLe u.pc, noRoom := 32 < u.rdepth + n + 1 })
      (fun u t => endInstr m (pushLink mask.toNat (u.pc + 2) (u.pop 1)) (u.top 0).toNat true (2 + n) none t) s)

/-- The pointers of a link entry's mask restored, the last pushed first; the number of them. -/
def popLink (u : MasonUnit) : MasonUnit × Nat :=
  let ps := (maskList (bitsOf (u.rtop 0) 21 14)).reverse
  let u := { u with rdepth := u.rdepth - 1 }
  (ps.foldl (fun v p => { v.setPt p (v.rtop 0) with rdepth := v.rdepth - 1 }) u, ps.length)

/-- RET. -/
def execRet (m : Fin 5) (s : State) : Out :=
  .next (runInstr m (fun u => { words := [0x0980#14], falls := false, illegal := u.rdepth == 0 || u.atLe u.pc })
    (fun u t => endInstr m (popLink u).1 (bitsOf (u.rtop 0) 13 0) true (2 + (popLink u).2) none t) s)

/-! ## Returns from handlers (R518, R519) -/

/-- The instruction at PC runs as though REP RLEFT preceded it; a mason halted meanwhile shows the count until RESUME. -/
def repeatLeft (m : Fin 5) (s : State) : State :=
  let u := masonAt s m
  if u.rleft = 0#32 then s
  else if u.state = .running then setMason m { u with rep := u.rleft.toNat, repFirst := true, rleft := 0#32 } s
  else setMason m { u with repHeld := true } s

/-- RTT: the handler's levels close, and the mason resumes at TPC. -/
def execRtt (m : Fin 5) (s : State) : Out :=
  .next (runInstr m (fun u => { words := [0x09C0#14], falls := false, illegal := !u.tact || u.atLe u.pc })
    (fun u t => repeatLeft m
      (endInstr m { u with tact := false, ld := u.lbase, lbase := u.tlb } u.tpc true 2 none t)) s)

/-- RTE: the event handler ends, and the mason resumes at EPC. -/
def execRte (m : Fin 5) (s : State) : Out :=
  .next (runInstr m (fun u => { words := [0x0A00#14], falls := false, illegal := !u.eact || u.atLe u.pc })
    (fun u t => endInstr m { u with eact := false, ld := u.lbase, lbase := u.elb } u.epc true 2 none t) s)

/-! ## The repeat prefix (R515) -/

/-- The count REP n takes: n, or for 0 the top of stack. -/
def repCount (n : Nat) (u : MasonUnit) : Nat := if n = 0 then (u.top 0).toNat else n

/-- An instruction that needs the program word at an address waits for its fetch (02 R88). -/
def withFetched (m : Fin 5) (a : Nat) (need : Bool) (f : State → State) (s : State) : State :=
  if need && !(fetched s m a) then fetchWord m a s else f s

/-- REP n: it waits for the next instruction's fetch. A popped count of 0 skips that one. -/
def execRep (m : Fin 5) (n : Fin 64) (s : State) : Out :=
  .next (
    let after := fun (u : MasonUnit) => u.pc + 1 + wordsOf (progWord s m (u.pc + 1))
    withFetched m ((masonAt s m).pc + 1) (canIssue s m [opWord 0x0A40 n.val]) (runInstr m (fun u =>
        let known := n.val != 0 || 1 ≤ u.depth
        { words := [opWord 0x0A40 n.val], pops := bit01 (n.val == 0),
          badTarget := known && repCount n.val u == 0 && 0x4000 ≤ after u,
          illegal := repBad (progWord s m (u.pc + 1)) || u.atLe u.pc || (known && 63 < repCount n.val u) })
      (fun u t =>
        let v := u.pop (bit01 (n.val == 0))
        if repCount n.val u = 0 then endInstr m v (after u) true 1 none t
        else startRep m v (repCount n.val u) t)) s)

/-! ## Hardware loops (R511, R514) -/

/-- LOOP or LOOPI with count `n` and last instruction `le`: a level opens, or the body is skipped. -/
def loopNeeds (s : State) (m : Fin 5) (words : List (BitVec 14)) (pops : Nat) (known : Bool) (n : Word) (le : Nat)
    (u : MasonUnit) : InstrNeeds :=
  { words := words
    pops := pops
    badTarget := known && n == 0#32 && 0x4000 ≤ le + wordsOf (progWord s m le)
    illegal := 4 ≤ u.ld || le < u.pc + 2 }

/-- The level opens: LS is the next instruction. -/
def loopOpens (s : State) (m : Fin 5) (n : Word) (le : Nat) (u : MasonUnit) (t : State) : State :=
  if n = 0#32 then endInstr m u (le + wordsOf (progWord s m le)) false 1 none t
  else endInstr m { u with ls := u.ls.set u.ld (u.pc + 2), le := u.le.set u.ld le, lc := u.lc.set u.ld n, ld := u.ld + 1 }
    (u.pc + 2) false 1 none t

/-- LOOP (n —): skipping the body needs the word at its end. -/
def execLoopOp (m : Fin 5) (k : BitVec 14) (s : State) : Out :=
  .next (withFetched m k.toNat (canIssue s m [0x3500#14, k] && (masonAt s m).landed.top 0 == 0#32) (fun s => runInstr m (fun u => loopNeeds s m [0x3500#14, k] 1 (1 ≤ u.depth) (u.top 0) k.toNat u)
    (fun u t => loopOpens s m (u.top 0) k.toNat (u.pop 1) t) s) s)

/-- LOOPI n. -/
def execLoopi (m : Fin 5) (n : Fin 64) (k : BitVec 14) (s : State) : Out :=
  .next (withFetched m k.toNat (canIssue s m [opWord 0x3540 n.val, k] && n.val == 0) (fun s =>
    runInstr m (fun u => loopNeeds s m [opWord 0x3540 n.val, k] 0 true (BitVec.ofNat 32 n.val) k.toNat u)
      (fun u t => loopOpens s m (BitVec.ofNat 32 n.val) k.toNat u t) s) s)

/-- LBRK: the innermost level closes. -/
def execLbrk (m : Fin 5) (s : State) : Out :=
  .next (runInstr m (fun u => { words := [0x0A80#14], illegal := u.ld == 0 })
    (fun u t => endInstr m { u with ld := u.ld - 1, lbase := min u.lbase (u.ld - 1) } (u.pc + 1) false 1 none t) s)

/-! ## Waiting and halting (R519, R524, R521) -/

/-- WAIT: it completes at once while EVT is 1. The event inputs of masons 0 to 3 are not specified, and theirs is free. -/
def execWait (m : Fin 5) (s : State) : Out :=
  .next (runInstr m (fun u => { words := [0x0AC0#14], illegal := u.atLe u.pc })
    (fun u t =>
      let evt := if m = 4 then masonEvt t else freeBit t
      let t := if m = 4 then t else useFree t
      if evt then endInstr m u (u.pc + 1) false 1 none t else setMason m { u with state := .waiting } t) s)

/-- WAIT_END: EVT becomes 1 and WAIT completes. -/
def execWaitEnd (m : Fin 5) (s : State) : Out :=
  .next (
    let u := masonAt s m
    if u.state == .waiting && domainOn s (masonDomain m) && !(testRuns s (0x28 + m.val)) && (m != 4 || masonEvt s) then
      endInstr m { u with state := .running } (u.pc + 1) false 1 none s
    else s)

/-- HALT, the instruction: undefined while the debug lock is blown. -/
def execHalt (m : Fin 5) (s : State) : Out :=
  .next (runInstr m (fun u => { words := [0x0B00#14], falls := !(debugLocked s), undefined := debugLocked s, illegal := u.atLe u.pc })
    (fun u t => endInstr m u (u.pc + 1) true 1 (some 3) t) s)

/-- BRK. -/
def execBrk (m : Fin 5) (s : State) : Out :=
  .next (runInstr m (fun u => { words := [0x0B40#14], falls := !(debugLocked s), undefined := debugLocked s, illegal := u.atLe u.pc })
    (fun u t => endInstr m u (u.pc + 1) true 1 (some 4) t) s)

/-- EVENT_ENTRY (R519). -/
def execEventEntry (m : Fin 5) (s : State) : Out :=
  .next (
    let u := masonAt s m
    if masonFree s m && eventDue s m then
      setMason m { u with cycle := u.cycle + 2, epc := u.pc, eact := true, elb := u.lbase, lbase := u.ld, pc := 0x14, skipBp := false } s
    else s)

/-- BREAKPOINT (R523): breakpoint `i` matches the next instruction. -/
def execBreakpoint (m : Fin 5) (i : Fin 4) (s : State) : Out :=
  .next (
    if masonFree s m && !(m == 4 && eventDue s m) && bpStops s m i.val then haltMason m (5 + i.val) s else s)

/-! ## Undefined opcodes (R503, R516) -/

/-- Whether a coprocessor slot is present on a mason (R516). -/
def slotPresent (m : Fin 5) (slot : Nat) : Bool :=
  match slot with
  | 0 => true
  | 1 => m == 0
  | 2 => m == 2 || m == 3
  | 3 => m == 1
  | 4 => m == 2
  | 5 => m == 3
  | _ => true

/-- Whether a class 0b00 word is assigned (R503, R504): PICK to 15, ADDI, the shifts to 31, the literals, MFS, MTS and
REP take a field; the others none. -/
def shortAssigned (w : Nat) : Bool :=
  let op := w / 64
  let f := w % 64
  if 0x31 ≤ op then false
  else if op = 0x07 then f < 16
  else if 0x10 ≤ op ∧ op ≤ 0x13 then f < 32
  else if op = 0x0F ∨ op = 0x17 ∨ op = 0x18 ∨ op = 0x1F ∨ op = 0x20 ∨ op = 0x29 then true
  else f == 0

/-- Whether a coprocessor word of a slot that is present is assigned, or belongs to firmware. -/
def copAssigned (m : Fin 5) (slot f k : Nat) : Bool :=
  match slot with
  | 0 => f ≤ 1 && k ≤ 4
  | 6 => if f = 3 then k < 256 else f ≤ 4 && k == 0
  | 7 => m != 4 || k == 0
  | _ => true

/-- Whether a class 0b11 instruction is assigned. -/
def longAssigned (m : Fin 5) (w k : Nat) : Bool :=
  let major := w / 64 % 64
  let f := w % 64
  if major ≤ 2 then f == 0
  else if 4 ≤ major ∧ major ≤ 7 then true
  else if major = 8 ∨ major = 9 then f == 0
  else if major = 0x0A ∨ major = 0x0B then f < 4
  else if major = 0x0C then f ≤ 5 && k < 0x1000
  else if 0x10 ≤ major ∧ major ≤ 0x13 then k < 0x1000
  else if major = 0x14 then f == 0
  else if major = 0x15 then true
  else if 0x18 ≤ major ∧ major ≤ 0x1B then k == 0
  else if 0x3C ≤ major then copAssigned m (w / 32 % 8) (w % 32) k
  else false

/-- Whether the words of an instruction are assigned. -/
def assignedWords (m : Fin 5) (w k : BitVec 14) : Bool :=
  match w.toNat / 4096 with
  | 0 => shortAssigned w.toNat
  | 1 => if w.toNat / 512 = 15 then false else w.toNat / 512 != 14 || w.toNat % 64 == 0
  | 2 => true
  | _ => longAssigned m w.toNat k.toNat

/-- A word of the coprocessor block that names a slot absent on the mason. -/
def slotAbsent (m : Fin 5) (w : BitVec 14) : Bool := 0x3F00 ≤ w.toNat && !(slotPresent m (w.toNat / 32 % 8))

/-- UNDEFINED_OPCODE (R503): the mason meets an encoding that is not assigned, or a slot it does not have. -/
def execUndefinedOpcode (m : Fin 5) (s : State) : Out :=
  .next (
    let pc := (masonAt s m).pc
    let w := progWord s m pc
    let k := progWord s m (pc + 1)
    let absent := slotAbsent m w
    let undefined := !absent && !(assignedWords m w k)
    if !absent && !undefined then (if masonFree s m then fetchInstr m s else s)
    else runInstr m (fun _ => { words := if wordsOf w = 2 then [w, k] else [w], falls := false, undefined := undefined, absent := absent })
      (fun _ t => t) s)

end Sys2Proof.Machine
end

