-- ==== Sys2Proof/Machine/MasonDoors.lean ====
section
/-!
DEFINITION. Sys2Proof/Machine/MasonDoors.lean: HALT, RESUME, STEP and RELOAD at the MS doors, and the end of a program
load (13 R521, R524, R525, R33).
-/
namespace Sys2Proof.Machine

/-- MS door command HALT (R524): in RESET or LOADING it waits for the next mason reset. -/
def doorHalt (m : Fin 5) (req : Requester) (word : Word) (s : State) : State :=
  let st := (masonAt s m).state
  doorWrite req (0x28 + m.val) word
    (firstRefusal [(m != 4, 0x40), (st == .noImage || st == .stopped, 0x43), (bitsOf word 15 0 != 0, Oc.badArg)]) none
    (fun id _ t =>
      let u := masonAt t m
      if u.state = .halted then finishCmd id Oc.done t
      else
        let t := setMason m { u with haltIds := u.haltIds ++ [id] } t
        if u.state = .waiting then haltMason m 1 t
        else if u.state = .running ∧ u.stall = none then atBoundary m t
        else t) s

/-- HALT, the command. -/
def execHaltCommand (req : Requester) (m : Fin 5) (tag : Byte) (arg : BitVec 16) (s : State) : Out :=
  .next (doorIssue (0x28 + m.val) (doorHalt m) req (doorWord tag 0x10 arg) s)

/-- A halted mason goes on from PC (R523, R524): no breakpoint matches there again, and a sequence halted before its
first repetition runs as RLEFT says. -/
def resumeMason (m : Fin 5) (s : State) : State :=
  let u := masonAt s m
  let u := if u.repHeld then
      { u with rep := max 1 u.rleft.toNat, repFirst := true, rleft := 0#32, repHeld := false }
    else u
  setMason m { u with state := .running, haltWhy := 0, skipBp := true } s

/-- MS door command RESUME. -/
def doorResume (m : Fin 5) (req : Requester) (word : Word) (s : State) : State :=
  doorWrite req (0x28 + m.val) word
    (firstRefusal [(m != 4, 0x40), ((masonAt s m).state != .halted, 0x41), (bitsOf word 15 0 != 0, Oc.badArg)]) none
    (fun id _ t => t |> resumeMason m |> finishCmd id Oc.done) s

/-- RESUME. -/
def execResume (req : Requester) (m : Fin 5) (tag : Byte) (arg : BitVec 16) (s : State) : Out :=
  .next (doorIssue (0x28 + m.val) (doorResume m) req (doorWord tag 0x11 arg) s)

/-- MS door command STEP n. -/
def doorStep (m : Fin 5) (req : Requester) (word : Word) (s : State) : State :=
  doorWrite req (0x28 + m.val) word
    (firstRefusal [(m != 4, 0x40), ((masonAt s m).state != .halted, 0x41), (bitsOf word 15 0 == 0, Oc.badArg)]) none
    (fun id _ t =>
      let t := resumeMason m t
      setMason m { masonAt t m with stepId := some id, stepLeft := bitsOf word 15 0 } t) s

/-- STEP. -/
def execStep (req : Requester) (m : Fin 5) (tag : Byte) (arg : BitVec 16) (s : State) : Out :=
  .next (doorIssue (0x28 + m.val) (doorStep m) req (doorWord tag 0x12 arg) s)

/-- MS door command RELOAD (R521): the mason is held in reset while its image is loaded again. -/
def doorReload (m : Fin 5) (req : Requester) (word : Word) (s : State) : State :=
  doorWrite req (0x28 + m.val) word
    (firstRefusal [(m != 4, 0x40), (bitsOf word 15 0 != 0, Oc.badArg)]) none
    (fun id _ t =>
      let t := if (masonAt t m).state = .loading then t else grantPort (freezeMason m .loading t)
      setMason m { masonAt t m with reloadIds := (masonAt t m).reloadIds ++ [id] } t) s

/-- RELOAD. -/
def execReload (req : Requester) (m : Fin 5) (tag : Byte) (arg : BitVec 16) (s : State) : Out :=
  .next (doorIssue (0x28 + m.val) (doorReload m) req (doorWord tag 0x13 arg) s)

/-- The first poisoned word of the firmware region of MRAM (01 R31). -/
def firmwareBad (s : State) : Option Nat := s.mem.mramPoison.find? (fun w => 8 * w < 0x080000)

/-- PROGRAM_LOAD_DONE (R521, 01 R33, 17 R613): mason 4's image decides for it. The firmware of masons 1 to 3 fails to load
when a word of it is uncorrectable, which `good` says; the mason then stays STOPPED. -/
def execProgramLoadDone (m : Fin 5) (good : Bool) (s : State) : Out :=
  .next (
    if (masonAt s m).state ≠ .loading ∨ !(domainOn s (masonDomain m) || s.power.starting.getLsbD (masonDomain m)) then s
    else if m = 4 then endLoad4 s
    else match firmwareBad s, good with
    | some w, false =>
      s |> raiseFault 0x0D 1 (8 * w) |> setMason m { masonAt s m with state := .stopped } |> raiseEvent (0x28 + m.val) 2
    | none, false => s
    | _, true => resetMason m s)

end Sys2Proof.Machine
end

