-- ==== Sys2Proof/Machine/Broadcast.lean ====
section
/-!
DEFINITION. Sys2Proof/Machine/Broadcast.lean: the commands of the broadcast paths (08): acquisition, loss and frame
boundaries, gain, service following and swaps, SCAN and CHECK, and the audio output.
-/
namespace Sys2Proof.Machine

/-! ## What a path measures (08 R329 to R332, R341) -/

/-- SCORE in 0.5 dB (08 R341): for FM less 0.5 dB for each 16 counts of the multipath figure. -/
def scoreOf (mode : Nat) (r : PathReport) : Nat :=
  if mode = 2 then r.snr.toNat - r.detail.toNat / 16 else r.snr.toNat

/-- QUAL0.DETAIL: the multipath figure for FM, the failing blocks for DAB, else 0. -/
def detailOf (mode : Nat) (r : PathReport) : Nat :=
  if mode = 2 then r.detail.toNat else if mode = 3 then capAt 120 r.detail.toNat else 0

/-- How far the stereo blend is from full mono, in 0.5 dB, 24 for full stereo (08 R332). -/
def stereoBlend (s : State) (p : Nat) (r : PathReport) : Nat :=
  if bpMode s p = 2 ∧ r.pilot = true ∧ regBit s (bpReg p Reg.bpFilter) 29 = false then
    capAt 24 (scoreOf 2 r - regBits s (bpReg p Reg.bpFilter) 7 0)
  else 0

/-- The bandwidth in force in kHz (08 R329): FILTER.FM_BW or AM_BW, or with 0 there what the path last chose; 0 in the other
modes and before the first choice. -/
def bandwidth (s : State) (p : Nat) : Nat :=
  let w := getReg s (bpReg p Reg.bpFilter)
  let fixed := if bpMode s p = 2 then bitsOf w 15 8 else bitsOf w 23 20
  if bpMode s p ≠ 1 ∧ bpMode s p ≠ 2 then 0 else if fixed ≠ 0 then fixed else (pathAt s p).width

/-- The path chooses its bandwidth from the adjacent-channel energy, within the range of its mode (08 R329). -/
def chooseWidth (p : Nat) (r : PathReport) (s : State) : State :=
  let n := if bpMode s p = 2 then max 56 (min 236 r.width) else if bpMode s p = 1 then max 2 (min 9 r.width) else 0
  setPath p { pathAt s p with width := n, widthAt := s.now } s

/-- The quality a path measures (08 QUAL0, QUAL1, STATUS.STEREO), since when an FM path's SCORE is below 3 dB (R325), and a
trim out of its range (R330). -/
def setQuality (p : Nat) (r : PathReport) (s : State) : State :=
  let score := scoreOf (bpMode s p) r
  let low := if bpMode s p = 2 ∧ score < 6 then some ((pathAt s p).lowSince.getD s.now) else none
  s |> setReg (bpReg p Reg.bpQual0)
        (fieldWord 31 24 r.level.toNat ||| fieldWord 23 16 score ||| fieldWord 15 8 (detailOf (bpMode s p) r))
    |> setRegBits (bpReg p Reg.bpQual1) 31 16 r.foffset.toNat
    |> setRegBits (bpReg p Reg.bpStatus) 26 26 (bit01 (0 < stereoBlend s p r))
    |> setPath p { pathAt s p with lowSince := low }
    |> (if r.trim = 0 then id else raiseFault (0x18 + p) 0 r.trim.val)

/-! ## Gain (08 R328) -/

/-- The gain that is asked of a path, in half dB: AGC.GAIN with MANUAL set, else what its own control asks. -/
def gainAsked (s : State) (p : Nat) (own : Byte) : Nat :=
  let w := getReg s (bpReg p Reg.bpAgc)
  2 * capAt 60 (if bitAt w 31 then bitsOf w 23 16 else own.toNat)

/-- A path takes a gain, in half dB. -/
def setGain (p g : Nat) (s : State) : State :=
  s |> setPath p { pathAt s p with gain := g, gainAt := s.now } |> setRegBits (bpReg p Reg.bpQual1) 15 8 (g / 2)

/-- The gain after a step that may be made now: in DAB any, within a null symbol of 1.297 ms; else at most 0.5 dB, every 1 ms
in FM and 10 ms in AM and TIMECODE. -/
def gainNext (s : State) (p asked : Nat) : Option Nat :=
  let u := pathAt s p
  if bpMode s p = 3 then
    (if !(bpSync s p) || !(passedUs s u.markNow 1297) then some asked else none)
  else if !(passedMs s u.gainAt (if bpMode s p = 2 then 1 else 10)) then none
  else some (if u.gain < asked then u.gain + 1 else if asked < u.gain then u.gain - 1 else asked)

/-- SYNTHESISER_SETTLED (08 R324 step 2): the gain has converged. -/
def execSynthesiserSettled (path : Fin 4) (gain : Byte) (s : State) : Out :=
  .next (if domainOn s 6 && bpState s path.val == Bs.settling then
      s |> setBpState path.val Bs.searching |> setGain path.val (gainAsked s path.val gain)
    else s)

/-- Whether the carrier lies where the path can lock: within 200 Hz for AM (08 R331), 25 kHz for DAB (R334). -/
def offsetHeld (s : State) (p : Nat) (r : PathReport) : Bool :=
  if bpMode s p = 1 then r.foffset.toInt.natAbs ≤ 200
  else if bpMode s p = 3 then r.foffset.toInt.natAbs ≤ 25000 else true

/-- LOCKED (08 R324 step 3, R325): from SEARCHING, or back from LOST; an AM path has SYNC at once. -/
def pathLocked (p : Nat) (r : PathReport) (s : State) : State :=
  if domainOn s 6 && (bpState s p == Bs.searching || bpState s p == Bs.lost) && offsetHeld s p r then
    s |> audioWatch (setBpState p Bs.locked) |> setQuality p r
      |> (fun t => setPath p { pathAt t p with markNow := t.now } t)
      |> (if bpMode s p = 1 then setRegBits (bpReg p Reg.bpStatus) 27 27 1 else id)
      |> (if bpMode s p = 4 then setRegBits (bpReg p Reg.bpTcStatus) 30 30 1 else id)
      |> raiseEvent (0x18 + p) 0
  else s

/-- LOCKED. -/
def execLocked (path : Fin 4) (report : PathReport) (s : State) : Out := .next (pathLocked path.val report s)

/-- FRAME_SYNC (08 R324 step 4, R333, R336): SYNC becomes 1; FM has block sync, TIMECODE its minute. -/
def frameSync (p : Nat) (s : State) : State :=
  if domainOn s 6 && bpState s p == Bs.locked && !(bpSync s p) then
    s |> setRegBits (bpReg p Reg.bpStatus) 27 27 1
      |> (if bpMode s p = 2 then setRegBits (bpReg p Reg.bpStatus) 25 25 1 else id)
      |> (if bpMode s p = 4 then setRegBits (bpReg p Reg.bpTcStatus) 31 31 1 else id)
  else s

/-- FRAME_SYNC. -/
def execFrameSync (path : Fin 4) (s : State) : Out := .next (frameSync path.val s)

/-- RDS_SYNC_LOST (08 R326, R333): the carrier stays locked; without RDS an FM path has no SYNC. -/
def execRdsSyncLost (path : Fin 4) (s : State) : Out :=
  .next (if domainOn s 6 && bpMode s path.val == 2 && bpState s path.val == Bs.locked then
    s |> setRegBits (bpReg path.val Reg.bpStatus) 25 25 0 |> setRegBits (bpReg path.val Reg.bpStatus) 27 27 0 else s)

/-- The words a swap stages (08 R345). -/
def swapWrites (s : State) (l p k : Nat) : List (Nat × Word) :=
  [(bpReg l Reg.bpRole, fieldWord 31 30 2),
   (bpReg p Reg.bpRole, fieldWord 31 30 1 ||| fieldWord 29 28 k ||| (getReg s (bpReg l Reg.bpRole) &&& oneBit 27)),
   (bpReg p Reg.bpService, getReg s (bpReg l Reg.bpService)),
   (bpReg p Reg.bpFilter, getReg s (bpReg l Reg.bpFilter)),
   (bpReg p Reg.bpAgc, getReg s (bpReg l Reg.bpAgc)),
   (bpReg p Reg.bpFollow, getReg s (bpReg l Reg.bpFollow)),
   (Reg.ccdSlotBind + k, withBits (getReg s (Reg.ccdSlotBind + k)) 1 0 p)]

/-- Mason 2 stages a swap and commits it on the frame boundary of `cond` (08 R345, R347); none while no identifier is
free or the slot's pause lasts. -/
def stageSwap (l p cond : Nat) (lead : Int) (s : State) : State :=
  let k := bpSlot s l
  if s.now < keyGet s.bcast.noSwap k 0 then s
  else match openTxn (.mason 2) false s with
  | (_, _, none) => s
  | (u, _, some t) =>
    u |> setTxn t { txnAt u t with phase := .waiting, cond := 0x40 + cond, regs := swapWrites s l p k, preparedAt := s.now }
      |> setBcast { s.bcast with swap := some { txn := t, listener := l, scanner := p, slot := k, lead := lead } }

/-- A swap was applied (08 R346): both paths count it, the slot's records carry the swap mark, its audio crossfades
with the new delay (R353), its candidates go to the new listening path (R342), its selections are resolved there. -/
def swapApplied (t : Nat) (s : State) : State :=
  match s.bcast.swap with
  | none => s
  | some w =>
    if w.txn ≠ t then s
    else
      let cands := (List.range 16).map (fun i => getReg s (bpReg w.listener Reg.bpCand + i))
      let bars := s.bcast.barred.filterMap (fun b =>
        if b.1 / 16 = w.listener then some (16 * w.scanner + b.1 % 16, b.2) else none)
      let s := s |> raiseEvent (0x18 + w.listener) 2 |> raiseEvent (0x18 + w.scanner) 2
        |> countReg (bpReg w.listener Reg.bpSwaps) 1 |> countReg (bpReg w.scanner Reg.bpSwaps) 1
        |> clearCandidates w.listener |> clearCandidates w.scanner
      let s := cands.zipIdx.foldl (fun u c => setReg (bpReg w.scanner Reg.bpCand + c.2) c.1 u) s
      let s := if audSlot s = w.slot then
          s |> setDelay (intField 15 ((audDelay s (getReg s Reg.audAlign) : Nat) + w.lead))
            |> audioFade fadeCross
        else s
      s |> setBcast { s.bcast with
            swap := none
            barred := bars ++ s.bcast.barred
            verifying := none
            swapMarks := [0x30, 0x31, 0x32, 0x33, 0x34, 0x35].map (fun k => 256 * w.slot + k) ++
              s.bcast.swapMarks.filter (fun m => !(m / 256 == w.slot)) }
        |> resolveSlot w.scanner

/-- Whether the loss condition of a path can hold (08 R325): the carrier loop out of lock for 100 ms; SCORE below 3 dB for
200 ms; no null symbol for 288 ms; five second markers missing. -/
def lossDue (s : State) (p : Nat) : Bool :=
  let u := pathAt s p
  match bpMode s p with
  | 1 => passedMs s u.markNow 100
  | 2 => match u.lowSince with
    | some t => passedMs s t 200
    | none => false
  | 3 => passedMs s u.markNow 288
  | _ => passedMs s u.markNow 5000

/-- LOST (08 R325, R347): SYNC falls and delivery stops; a swap waiting on this path's boundary is aborted and
committed again on the scan path's. -/
def pathLost (p : Nat) (s : State) : State :=
  if !(domainOn s 6) || bpState s p != Bs.locked || !(lossDue s p) then s
  else
    let s := s |> audioWatch (setBpState p Bs.lost) |> setRegBits (bpReg p Reg.bpStatus) 27 25 0
      |> setReg (bpReg p Reg.bpTcStatus) 0#32 |> countReg (bpReg p Reg.bpLosses) 1 |> raiseEvent (0x18 + p) 1
    match s.bcast.swap with
    | none => s
    | some w =>
      if w.listener = p ∧ (txnAt s w.txn).cond = 0x40 + p then
        s |> abortTxn w.txn Ab.requesterAbort |> stageSwap p w.scanner w.scanner w.lead
      else s

/-- LOST. -/
def execLost (path : Fin 4) (s : State) : Out := .next (pathLost path.val s)

/-- Switched diversity (08 R335): every 16th frame is received on the other input, and the path stays there when that
frame's SCORE is at least 1 dB higher than that of the frame before it. -/
def switchInput (p score : Nat) (s : State) : State :=
  if bpMode s p ≠ 3 ∨ !(regBit s (bpReg p Reg.bpTune) 23) then s
  else
    let frame := regBits s (bpReg p Reg.bpStatus) 15 0
    let flip := setRegBits (bpReg p Reg.bpStatus) 24 24 (bit01 (!(regBit s (bpReg p Reg.bpStatus) 24)))
    if frame % 16 = 15 then flip (setPath p { pathAt s p with homeScore := score } s)
    else if frame % 16 = 0 ∧ score < (pathAt s p).homeScore + 2 then flip s
    else s

/-- FRAME_BOUNDARY (08 R326, R329, R335; 09 R366, R367): in AM every 100 ms from lock. FM with RDS, and AM, choose their
bandwidth. -/
def frameBoundary (p : Nat) (r : PathReport) (s : State) : State :=
  if !(domainOn s 6) || !(bpSync s p) || (bpMode s p == 1 && !(passedMs s (pathAt s p).markNow 100)) then s
  else
    let n := (regBits s (bpReg p Reg.bpStatus) 15 0 + 1) % 65536
    s |> conditionEvent (0x40 + p) |> setRegBits (bpReg p Reg.bpStatus) 15 0 n |> setQuality p r
      |> (fun t => setPath p { pathAt t p with markNow := t.now } t)
      |> switchInput p (scoreOf (bpMode s p) r)
      |> (if bpMode s p = 1 ∨ bpMode s p = 2 then chooseWidth p r else id)
      |> (if bpMode s p = 4 then
            setRegBits (bpReg p Reg.bpTcStatus) 29 24 (capAt 60 (regBits s (bpReg p Reg.bpTcStatus) 29 24 + 1))
          else id)
      |> resolveSlot p

/-- FRAME_BOUNDARY. -/
def execFrameBoundary (path : Fin 4) (report : PathReport) (s : State) : Out := .next (frameBoundary path.val report s)

/-- AGC_STEP (08 R328, R329): the quality is measured, the gain takes a step where one is due, RF gain reduction follows
AGC.TOP, and an FM path without RDS chooses its bandwidth every 100 ms. -/
def agcStep (p : Nat) (gain : Byte) (r : PathReport) (s : State) : State :=
  if !(domainOn s 6) || bpState s p < Bs.settling then s
  else
    let s := setQuality p r s
    let s := match gainNext s p (gainAsked s p gain) with
      | some g => setGain p g s
      | none => s
    let s := setPath p { pathAt s p with rfReduced := 2 * regBits s (bpReg p Reg.bpAgc) 7 0 < r.level.toNat } s
    if bpMode s p = 2 ∧ regBit s (bpReg p Reg.bpStatus) 25 = false ∧ passedMs s (pathAt s p).widthAt 100 = true then chooseWidth p r s
    else s

/-- AGC_STEP. -/
def execAgcStep (path : Fin 4) (gain : Byte) (report : PathReport) (s : State) : Out :=
  .next (agcStep path.val gain report s)

/-! ## Service following (08 R342 to R348) -/

/-- Candidates decoded for the service of a listening path are added to its list, 16 at most (08 R342). -/
def addCandidate (p freq : Nat) (s : State) : State :=
  let at_ := fun i => getReg s (bpReg p Reg.bpCand + i)
  if (List.range 16).any (fun i => bitAt (at_ i) 31 && bitsOf (at_ i) 21 0 == freq) then s
  else match (List.range 16).find? (fun i => !(bitAt (at_ i) 31)) with
  | none => s
  | some i => setReg (bpReg p Reg.bpCand + i) (fieldWord 31 31 1 ||| fieldWord 21 0 freq) s

/-- Whether a listening path follows a service. -/
def follows (s : State) (p : Nat) : Bool :=
  bpRole s p == 1 && regBit s (bpReg p Reg.bpRole) 27 && getReg s (bpReg p Reg.bpService) != 0#32

/-- Add decoded candidates to a path that follows. -/
def addCandidates (p : Nat) (freqs : List Nat) (s : State) : State :=
  if follows s p then freqs.foldl (fun t f => addCandidate p f t) s else s

/-- The scan path retunes to candidate `i` of path `l` for a check (08 R343): MODE and INPUT of the slot's path. -/
def tuneToCandidate (p l i : Nat) (s : State) : State :=
  let freq := regBits s (bpReg l Reg.bpCand + i) 21 0
  let s := setReg (bpReg p Reg.bpTune) (withBits (getReg s (bpReg l Reg.bpTune)) 21 0 freq) s
  s |> conflict (bpReg p Reg.bpTune) none |> restartPath p |> setBpState p Bs.searching

/-- Whether a score makes a candidate better than the slot's path (08 R343). -/
def betterCheck (s : State) (l score : Nat) : Bool :=
  let f := getReg s (bpReg l Reg.bpFollow)
  bitsOf f 7 0 ≤ score &&
    (bpState s l == Bs.lost || regBits s (bpReg l Reg.bpQual0) 23 16 + bitsOf f 23 16 ≤ score)

/-- After every eighth check the image trim is measured; a trim out of range raises FAULT.FRONT_END (08 R330). -/
def imageTrim (p : Nat) (ok : Bool) (s : State) : State :=
  let n := (pathAt s p).checks + 1
  let s := setPath p { pathAt s p with checks := n % 8 } s
  if n < 8 then s
  else
    let s := countReg (bpReg p Reg.bpTrims) 1 s
    if ok then s else raiseFault (0x18 + p) 0 3 s

/-- The path whose role is SCAN. -/
def scanPath (s : State) : Option Nat := (List.range 4).find? (fun p => bpRole s p == 2)

/-- The candidates of all following slots that may be checked, as path times 16 plus entry. -/
def visitList (s : State) : List Nat :=
  ((List.range 4).filter (follows s)).flatMap (fun l =>
    ((List.range 16).map (16 * l + ·)).filter (fun c =>
      let w := getReg s (bpReg l Reg.bpCand + c % 16)
      bitAt w 31 && !(bitAt w 30)))

/-- The candidate that is checked next: they are visited in turn (08 R343). -/
def nextVisit (s : State) : Option Nat :=
  match (visitList s).find? (fun c => s.bcast.visit < c) with
  | some c => some c
  | none => (visitList s).head?

/-- How long a check measures, in ms: two frames for DAB, else 10 (08 R343, R350). -/
def measureMs (mode : Nat) : Nat := if mode = 3 then 192 else 10

/-- CANDIDATE_CHECK (08 R343): the next candidate is tuned to and measured, its SCORE is recorded, and CHECKS better checks
in a row (one while the slot's path is LOST) make it preferred. `imageOk` says that the image trim, when it is measured, is
in range. -/
def candidateCheck (r : PathReport) (imageOk : Bool) (s : State) : State :=
  match scanPath s, nextVisit s with
  | some p, some c =>
    let l := c / 16
    let i := c % 16
    if !(domainOn s 6) || !(domainOn s 5) || !((pathAt s p).jobs.isEmpty) || testRuns s (0x18 + p)
        || s.bcast.verifying.isSome || s.bcast.swap.isSome
        || !(passedMs s s.bcast.checkNow (measureMs (bpMode s l))) then s
    else
      let score := scoreOf (bpMode s l) r
      let good := betterCheck s l score
      let n := if good then keyGet s.bcast.better c 0 + 1 else 0
      let enough := good && (bpState s l == Bs.lost || regBits s (bpReg l Reg.bpFollow) 11 8 ≤ n)
      s |> tuneToCandidate p l i |> setRegBits (bpReg l Reg.bpCand + i) 29 22 score |> imageTrim p imageOk
        |> (fun t => setBcast { t.bcast with
              better := keySet t.bcast.better c n
              visit := c
              checkNow := t.now
              verifyNow := if enough then t.now else t.bcast.verifyNow
              verifying := if enough then some (l, i) else t.bcast.verifying } t)
  | _, _ => s

/-- CANDIDATE_CHECK. -/
def execCandidateCheck (report : PathReport) (imageOk : Bool) (s : State) : Out := .next (candidateCheck report imageOk s)

/-- The delay that a swap would give the audio lies in its range, where the slot feeds the audio output (08 R344, R353), and
decoding the selections twice keeps within the limit (09 R367). -/
def verifyFits (s : State) (l : Nat) (lead : Int) : Bool :=
  let delay : Int := (audDelay s (getReg s Reg.audAlign) : Nat) + lead
  (audSlot s != bpSlot s l || (0 ≤ delay && delay ≤ 14400)) && decodeLoad s ≤ decodeLimit

/-- Whether the scan path is LOCKED with SYNC on the service that path `l` follows (08 R344): the programme identification
of its last two groups; for DAB the service in the fast information channel, with every subchannel the slot has selected. -/
def verifyIdent (s : State) (p l : Nat) : Bool :=
  let service := (getReg s (bpReg l Reg.bpService)).toNat
  let sels := (List.range 4).filter (fun j => selState s (bpSlot s l) j == 2)
  bpState s p == Bs.locked && bpSync s p &&
    (if bpMode s p = 2 then (pathAt s p).idents == [service, service]
     else if bpMode s p = 3 then
      (keyFind (pathAt s p).dab.services service).isSome && sels.all (fun j =>
        (ficResolve (pathAt s p).dab service (regBit s (selReg (bpSlot s l) j) 29)
          (regBits s (selReg (bpSlot s l) j) 11 0)).isSome)
     else true)

/-- A candidate is BARRED for 60 s (08 R344). -/
def barCandidate (l i : Nat) (s : State) : State :=
  s |> setRegBits (bpReg l Reg.bpCand + i) 30 30 1
    |> setBcast { s.bcast with barred := keySet s.bcast.barred (16 * l + i) s.now }

/-- VERIFY (08 R344, R345, R347): the scan path holds a preferred candidate until the checks pass, when it is swapped in on
the boundary of the listening path, or of the scan path if the listening one is LOST, or for 2 s, when it is BARRED.
`matched` says that the data offset, and the audio offset where it is needed, have been found. -/
def verify (matched : Bool) (lead : Int) (s : State) : State :=
  match s.bcast.verifying with
  | none => s
  | some (l, i) =>
    match scanPath s with
    | none => setBcast { s.bcast with verifying := none } s
    | some p =>
      if !(domainOn s 6) || s.bcast.swap.isSome then s
      else
        let done := setBcast { s.bcast with verifying := none, better := keyErase s.bcast.better (16 * l + i) } s
        if matched && verifyIdent s p l && verifyFits s l lead && follows s l then
          stageSwap l p (if bpState s l = Bs.lost then p else l) lead done
        else if passedMs s s.bcast.verifyNow 2000 then barCandidate l i done
        else s

/-- VERIFY. -/
def execVerify (matched : Bool) (lead : Int) (s : State) : Out := .next (verify matched lead s)

/-- BARRED_EXPIRY (08 R344): 60 s after it was barred. -/
def execBarredExpiry (path : Fin 4) (candidate : Fin 16) (s : State) : Out :=
  let c := 16 * path.val + candidate.val
  .next (match keyFind s.bcast.barred c with
    | some t =>
      if domainOn s 6 && passedMs s t 60000 then
        s |> setRegBits (bpReg path.val Reg.bpCand + candidate.val) 30 30 0
          |> setBcast { s.bcast with barred := keyErase s.bcast.barred c }
      else s
    | none => s)

/-- CROSSFADE_END (08 R346, R352): the ramp or crossfade in progress has taken its time. -/
def execCrossfadeEnd (s : State) : Out :=
  .next (if domainOn s 6 && s.bcast.fadeUntil ≤ s.now then setRegBits Reg.audStatus 26 26 0 s else s)

/-! ## SCAN and CHECK (08 R349 to R351) -/

/-- Refusals of SCAN and CHECK that depend on the device alone (08 R349). -/
def bpStateRefusals (s : State) (p : Nat) : List (Bool × Nat) := [(bpRole s p == 1, 0x40), (!(domainOn s 5), 0x41)]

/-- Whether SCAN's argument is outside its ranges (08 R351). -/
def scanArgBad (arg : Nat) : Bool :=
  let step := arg / 256
  match arg % 16 with
  | 0 => !(1 ≤ step && step ≤ 20)
  | 1 => !(1 ≤ step && step ≤ 20)
  | 2 => !(5 ≤ step && step ≤ 20)
  | 3 => !(step == 0)
  | _ => true

/-- An accepted SCAN or CHECK joins the path's commands. -/
def bpSubmit (p : Nat) (scan : Bool) (arg : Nat) (id ticket : Nat) (s : State) : State :=
  let job : BpJob := { id := id, ticket := ticket, scan := scan, arg := arg, tune := getReg s (bpReg p Reg.bpCheckTune),
                       started := false, startNow := s.now, stations := 0, point := 0 }
  s |> setPath p { pathAt s p with jobs := (pathAt s p).jobs ++ [job] } |> bpStart p

/-- BP door command SCAN. -/
def doorScan (p : Nat) (req : Requester) (word : Word) (s : State) : State :=
  doorWrite req (0x18 + p) word
    (firstRefusal (bpStateRefusals s p ++ [(scanArgBad (bitsOf word 15 0), Oc.badArg),
      (bcastFree s == 0, Oc.queueFull)]))
    (some (0x18 + p)) (bpSubmit p true (bitsOf word 15 0)) s

/-- SCAN. -/
def execScan (req : Requester) (path : Fin 4) (tag : Byte) (arg : BitVec 16) (s : State) : Out :=
  .next (doorIssue (0x18 + path.val) (doorScan path.val) req (doorWord tag 0x10 arg) s)

/-- The band code of a SCAN. -/
def BpJob.band (j : BpJob) : Nat := j.arg % 16

/-- The 38 channel centres 5A to 13F of band III, in 100 Hz (ETSI EN 300 401; notes/assumptions/58.md). -/
def bandThree : List Nat :=
  [1749280, 1766400, 1783520, 1800640, 1819360, 1836480, 1853600, 1870720, 1889280, 1906400, 1923520, 1940640, 1959360,
   1976480, 1993600, 2010720, 2029280, 2046400, 2063520, 2080640, 2099360, 2116480, 2133600, 2150720, 2169280, 2186400,
   2203520, 2220640, 2239360, 2256480, 2273600, 2290720, 2307840, 2324960, 2342080, 2357760, 2374880, 2392000]

/-- Point `n` of a SCAN's band in 100 Hz: the lower edge of the band plus n steps, none beyond the upper edge (08 R320,
R351). -/
def scanFreq (arg n : Nat) : Option Nat :=
  let step := arg / 256
  let at_ := fun (lo hi unit : Nat) => if lo + n * step * unit ≤ hi then some (lo + n * step * unit) else none
  match arg % 16 with
  | 0 => at_ 400 2880 10
  | 1 => at_ 5220 17100 10
  | 2 => at_ 640000 1080000 100
  | _ => bandThree[n]?

/-- SCAN_POINT (08 R351): the next point of the band is measured; at or above the least SCORE it is identified and gives a
station entry; after the last point, or 120 stations, the end entry is queued and SCAN ends DONE. -/
def scanPoint (p : Nat) (r : PathReport) (ident : BitVec 16) (s : State) : State :=
  if !(domainOn s 6) || !(domainOn s 5) then s
  else
    let s := bpStart p s
    match (pathAt s p).jobs with
    | [] => s
    | j :: t =>
      match scanFreq j.arg j.point with
      | none => s
      | some freq =>
        if !j.scan || !j.started then s
        else
          let mode := [1, 1, 2, 3].getD (j.arg % 16) 0
          let score := scoreOf mode r
          let pass := j.arg / 16 % 16 * 6 ≤ score
          let pop := bpReg p Reg.bpQPop
          let s := if pass then
              s |> queueUnreserve pop 1
                |> queuePush pop [fieldWord 31 24 0x21 ||| fieldWord 23 22 j.band ||| fieldWord 21 0 freq,
                     fieldWord 31 24 r.level.toNat ||| fieldWord 23 16 score
                       ||| fieldWord 15 0 (if mode = 1 then 0 else ident.toNat),
                     fieldWord 31 16 j.ticket]
            else s
          let j := { j with stations := j.stations + bit01 pass, point := j.point + 1 }
          let s := setPath p { pathAt s p with jobs := j :: t } s
          if (scanFreq j.arg j.point).isNone then s |> scanEnd p j 0 |> bpEndHead p Oc.done
          else if 120 ≤ j.stations then s |> scanEnd p j 1 |> bpEndHead p Oc.done
          else s

/-- SCAN_POINT. -/
def execScanPoint (path : Fin 4) (report : PathReport) (ident : BitVec 16) (s : State) : Out :=
  .next (scanPoint path.val report ident s)

/-- BP door command CHECK. -/
def doorCheck (p : Nat) (req : Requester) (word : Word) (s : State) : State :=
  doorWrite req (0x18 + p) word
    (firstRefusal (bpStateRefusals s p ++ [(bitsOf word 15 0 != 0, Oc.badArg), (bcastFree s == 0, Oc.queueFull),
      (resultFull s (0x18 + p) [0x11], Oc.resultFull)]))
    (some (0x18 + p)) (bpSubmit p false 0) s

/-- CHECK. -/
def execCheck (req : Requester) (path : Fin 4) (tag : Byte) (arg : BitVec 16) (s : State) : Out :=
  .next (doorIssue (0x18 + path.val) (doorCheck path.val) req (doorWord tag 0x11 arg) s)

/-- CHECK_RESULT (08 R350): after 10 ms, or two frames of DAB, of measuring, the result block is delivered and the path
goes back to what it did; AM has no identity. -/
def checkResult (p : Nat) (r : PathReport) (ident : BitVec 16) (s : State) : State :=
  if !(domainOn s 6) || !(domainOn s 5) then s
  else match (pathAt s p).jobs with
  | [] => s
  | j :: _ =>
    let mode := bitsOf j.tune 31 28
    if j.scan || !j.started || !(passedMs s j.startNow (measureMs mode)) then s
    else
      let words := [j.tune &&& (maskOf 31 28 ||| maskOf 21 0),
        fieldWord 31 24 r.level.toNat ||| fieldWord 23 16 (scoreOf mode r)
          ||| fieldWord 15 0 (if mode = 2 ∨ mode = 3 then ident.toNat else 0)]
      s |> deliverResult { page := 0x18 + p, ticket := j.ticket, poison := false, words := words }
        |> bpEndHead p Oc.done

/-- CHECK_RESULT. -/
def execCheckResult (path : Fin 4) (report : PathReport) (ident : BitVec 16) (s : State) : Out :=
  .next (checkResult path.val report ident s)

/-! ## Audio output (08 R352, R353) -/

/-- RATE, WIDTH and FORMAT of an AUD.CTRL word. -/
def audFormat (w : Word) : Word := w &&& maskOf 28 24

/-- AUDIO_FORMAT_CHANGE (08 R352): after the mute ramp the written format is in force, and the output ramps back up. -/
def execAudioFormatChange (s : State) : Out :=
  .next (if domainOn s 6 && s.bcast.audio != audFormat (getReg s Reg.audCtrl) && s.bcast.fadeUntil ≤ s.now then
      let s := setDelay (audDelay s (getReg s Reg.audAlign)) s
      audioFade fadeUp (setBcast { s.bcast with audio := audFormat (getReg s Reg.audCtrl) } s)
    else s)

/-- A write of AUD.ALIGN was applied over `old`: DELAY goes on from what it has reached (08 R353). -/
def audAlignWritten (old : Word) (s : State) : State := setDelay (audDelay s old) s

/-- A write of AUD.CTRL was applied over `old` (08 R352, R353): a new format or MUTE ramps, a new SLOT crossfades, sets
DELAY to BASE, and may end SOURCE_OK. -/
def audCtrlWritten (old : Word) (s : State) : State :=
  let new := getReg s Reg.audCtrl
  let s := if bitsOf old 30 29 = bitsOf new 30 29 then s
    else
      let was := sourceOk (setReg Reg.audCtrl old s)
      let s := setDelay (regBits s Reg.audAlign 14 0) s
      if was && !(sourceOk s) then raiseEvent 0x1E 0 s else s
  if audFormat old ≠ audFormat new ∨ (bitAt new 23 && !(bitAt old 23)) = true then audioFade fadeDown s
  else if (bitAt old 23 && !(bitAt new 23)) = true then audioFade fadeUp s
  else if bitsOf old 30 29 ≠ bitsOf new 30 29 then audioFade fadeCross s
  else s

end Sys2Proof.Machine
end

