-- ==== Sys2Proof/Machine/TimeCode.lean ====
section
/-!
DEFINITION. Sys2Proof/Machine/TimeCode.lean: the symbols of the LW time codes and their minute frames (08 R336, 09 R371,
R380). The symbols are those of R336; where the bits of a minute stand is taken from the public descriptions of DCF77, MSF,
WWVB and JJY (notes/assumptions/59.md).
-/
namespace Sys2Proof.Machine

/-- A symbol of one second: a bit, for MSF with its B bit; a marker; the missing second of DCF77. -/
inductive TcSymbol where
  | bit (a b : Bool)
  | marker
  | missing
  deriving DecidableEq, Repr

/-- The symbol of a second, from the tenths of it in which the carrier is reduced, or off (08 R336). -/
def tcSymbol (format : Nat) (w : BitVec 10) : Option TcSymbol :=
  if format = 0 then
    (if w = 1#10 then some (.bit false false) else if w = 3#10 then some (.bit true false)
     else if w = 0#10 then some .missing else none)
  else if format = 1 then
    (if w = 0x1F#10 then some .marker
     else if w &&& 0x3F9#10 = 1#10 then some (.bit (w.getLsbD 1) (w.getLsbD 2)) else none)
  else if format = 2 then
    (if w = 3#10 then some (.bit false false) else if w = 0x1F#10 then some (.bit true false)
     else if w = 0xFF#10 then some .marker else none)
  else
    (if w = 0x300#10 then some (.bit false false) else if w = 0x3E0#10 then some (.bit true false)
     else if w = 0x3FC#10 then some .marker else none)

/-- The A bit of second `n`; a marker and a missing second are 0. -/
def tcBit (ss : List (Option TcSymbol)) (n : Nat) : Bool :=
  match ss.getD n none with
  | some (.bit a _) => a
  | _ => false

/-- The B bit of second `n`. -/
def tcBitB (ss : List (Option TcSymbol)) (n : Nat) : Bool :=
  match ss.getD n none with
  | some (.bit _ b) => b
  | _ => false

/-- The sum of the weights of the seconds that are 1. -/
def tcSum (ss : List (Option TcSymbol)) (l : List (Nat × Nat)) : Nat :=
  l.foldl (fun t e => if tcBit ss e.1 then t + e.2 else t) 0

/-- The number of 1 bits in seconds `lo` to `hi`. -/
def tcOnes (ss : List (Option TcSymbol)) (lo hi : Nat) : Nat :=
  ((List.range (hi + 1 - lo)).filter (fun k => tcBit ss (lo + k))).length

/-- The markers of a format. -/
def tcMarkers (format : Nat) : List Nat :=
  if format = 0 then [] else if format = 1 then [0] else [0, 9, 19, 29, 39, 49, 59]

/-- Whether second `n` stands where its format wants it: markers, the missing second 59, and the fixed bits. -/
def tcPlaced (format : Nat) (ss : List (Option TcSymbol)) (n : Nat) : Bool :=
  match ss.getD n none with
  | none => false
  | some .marker => (tcMarkers format).contains n
  | some .missing => n == 59
  | some (.bit a _) =>
    !((tcMarkers format).contains n) && !(format == 0 && n == 59)
      && (!(format == 0 && n == 20) || a) && (!(format == 0 && n == 0) || !a)
      && (!(format == 1 && (n == 52 || n == 59)) || !a) && (!(format == 1 && 53 ≤ n && n ≤ 58) || a)

/-- The parity checks of a format. -/
def tcParities (format : Nat) (ss : List (Option TcSymbol)) : List Bool :=
  if format = 0 then [tcOnes ss 21 28 % 2 == 0, tcOnes ss 29 35 % 2 == 0, tcOnes ss 36 58 % 2 == 0]
  else if format = 1 then
    [(54, 17, 24), (55, 25, 35), (56, 36, 38), (57, 39, 51)].map (fun q =>
      (tcOnes ss q.2.1 q.2.2 + bit01 (tcBitB ss q.1)) % 2 == 1)
  else if format = 3 then
    [tcOnes ss 12 18 % 2 == bit01 (tcBit ss 36), tcOnes ss 1 8 % 2 == bit01 (tcBit ss 37)]
  else []

/-- Symbols that fail in a minute: one that cannot be read or stands in the wrong place, and one for each parity check that
fails (08 R336). -/
def tcBad (format : Nat) (ss : List (Option TcSymbol)) : Nat :=
  ((List.range 60).filter (fun n => !(tcPlaced format ss n))).length + ((tcParities format ss).filter (!·)).length

/-- Days before a month of year `year` (2000 and later). -/
def monthDays (year month : Nat) : Nat :=
  ([0, 31, 59, 90, 120, 151, 181, 212, 243, 273, 304, 334].getD (month - 1) 0) + (if year % 4 = 0 ∧ 2 < month then 1 else 0)

/-- Seconds since 2000-01-01 of a year of the century, a day of it counted from 1, an hour and a minute. -/
def yearSeconds (year day hour minute : Nat) : Int :=
  (((365 * year + (year + 3) / 4 : Nat) : Int) + ((day : Nat) : Int) - 1) * 86400 + ((hour * 3600 + minute * 60 : Nat) : Int)

/-- The UTC, in seconds since 2000-01-01, of the minute marker that ends a frame: DCF77 and MSF state the minute that
follows, in CET or CEST and in UK time; WWVB and JJY the minute of the frame, in UTC and 9 h ahead of it (09 R380). -/
def tcUtc (format : Nat) (ss : List (Option TcSymbol)) : Int :=
  if format = 0 then
    yearSeconds (tcSum ss [(50, 1), (51, 2), (52, 4), (53, 8), (54, 10), (55, 20), (56, 40), (57, 80)])
      (monthDays (tcSum ss [(50, 1), (51, 2), (52, 4), (53, 8), (54, 10), (55, 20), (56, 40), (57, 80)])
          (tcSum ss [(45, 1), (46, 2), (47, 4), (48, 8), (49, 10)])
        + tcSum ss [(36, 1), (37, 2), (38, 4), (39, 8), (40, 10), (41, 20)])
      (tcSum ss [(29, 1), (30, 2), (31, 4), (32, 8), (33, 10), (34, 20)])
      (tcSum ss [(21, 1), (22, 2), (23, 4), (24, 8), (25, 10), (26, 20), (27, 40)])
      - (if tcBit ss 17 then 7200 else 3600)
  else if format = 1 then
    let year := tcSum ss [(17, 80), (18, 40), (19, 20), (20, 10), (21, 8), (22, 4), (23, 2), (24, 1)]
    yearSeconds year
      (monthDays year (tcSum ss [(25, 10), (26, 8), (27, 4), (28, 2), (29, 1)])
        + tcSum ss [(30, 20), (31, 10), (32, 8), (33, 4), (34, 2), (35, 1)])
      (tcSum ss [(39, 20), (40, 10), (41, 8), (42, 4), (43, 2), (44, 1)])
      (tcSum ss [(45, 40), (46, 20), (47, 10), (48, 8), (49, 4), (50, 2), (51, 1)])
      - (if tcBitB ss 58 then 3600 else 0)
  else
    let day := tcSum ss [(22, 200), (23, 100), (25, 80), (26, 40), (27, 20), (28, 10), (30, 8), (31, 4), (32, 2), (33, 1)]
    let hour := tcSum ss [(12, 20), (13, 10), (15, 8), (16, 4), (17, 2), (18, 1)]
    let minute := tcSum ss [(1, 40), (2, 20), (3, 10), (5, 8), (6, 4), (7, 2), (8, 1)]
    let year := if format = 2 then tcSum ss [(45, 80), (46, 40), (47, 20), (48, 10), (50, 8), (51, 4), (52, 2), (53, 1)]
      else tcSum ss [(41, 80), (42, 40), (43, 20), (44, 10), (45, 8), (46, 4), (47, 2), (48, 1)]
    yearSeconds year day hour minute + 60 - (if format = 3 then 32400 else 0)

/-- Whether a frame announces a leap second, and whether summer time is in force. -/
def tcFlags (format : Nat) (ss : List (Option TcSymbol)) : Bool × Bool :=
  if format = 0 then (tcBit ss 19, tcBit ss 17)
  else if format = 1 then (false, tcBitB ss 58)
  else if format = 2 then (tcBit ss 56, tcBit ss 58)
  else (tcBit ss 53, tcBit ss 40)

/-- The bits of the frame as two words: bit s at bit s mod 32 of word s / 32 (09 R371). -/
def tcWords (bit : Nat → Bool) : List Word :=
  [0, 1].map (fun k => BitVec.ofNat 32 ((List.range 32).foldl (fun v i => if bit (32 * k + i) then v + 2 ^ i else v) 0))

end Sys2Proof.Machine
end

