-- ==== Sys2Proof/Machine/BcastData.lean ====
section
/-!
DEFINITION. Sys2Proof/Machine/BcastData.lean: broadcast data (09): RDS groups, FIBs, subchannels and data groups,
time-code minutes and PSK frames, selections, and the votes of the concordance unit on messages and time.
-/
namespace Sys2Proof.Machine

/-! ## Voting a message (09 R373 to R379) -/

/-- The slot whose records the concordance unit takes from path `p` (09 R386). -/
def boundSlot (s : State) (p : Nat) : Option Nat :=
  match listenSlot s p with
  | none => none
  | some k => if k < 3 ∧ regBits s (Reg.ccdSlotBind + k) 1 0 = p then some k else none

/-- MAP_A of entry `e`. -/
def mapA (s : State) (e : Nat) : Word := getReg s (Reg.ccdMapA + 2 * e)

/-- MAP_B of entry `e`. -/
def mapB (s : State) (e : Nat) : Word := getReg s (Reg.ccdMapB + 2 * e)

/-- Stream of entry `e`. -/
def mapStream (s : State) (e : Nat) : Nat := bitsOf (mapA s e) 30 28

/-- Entry `e` is in use with kind `kind`, its stream and the message vote too. -/
def mapLive (s : State) (e kind : Nat) : Bool :=
  regBit s Reg.ccdCtrl 31 && bitAt (mapA s e) 31 && bitsOf (mapA s e) 27 26 == kind
    && regBit s (Reg.ccdStream + mapStream s e) 31

/-- A discarded copy is counted. -/
def malformedCopy (s : State) : State := countReg Reg.ccdMalformed 1 s

/-- A complete copy waits for MESSAGE_COPY; longer than 64 bytes it is MALFORMED. -/
def handCopy (e : Nat) (bytes : List Byte) (s : State) : State :=
  if 64 < bytes.length then malformedCopy s
  else setBcast { s.bcast with ready := s.bcast.ready ++ [{ entry := e, bytes := bytes }] } s

/-- Drop the segments of entry `e` on slot `k`. -/
def dropSegments (e k : Nat) (s : State) : State :=
  setBcast { s.bcast with segments := s.bcast.segments.filter (fun g => !(g.entry == e && g.slot == k)) } s

/-- Keep the segments of a copy, or hand it over after the one with REMAIN 0. -/
def keepSegments (e k remain : Nat) (bytes : List Byte) (s : State) : State :=
  let s := dropSegments e k s
  if remain = 0 then handCopy e bytes s
  else setBcast { s.bcast with
    segments := { entry := e, slot := k, remain := remain, bytes := bytes } :: s.bcast.segments } s

/-- One ODA group for entry `e` on slot `k` (09 R373): FIRST starts a copy, a missing or misplaced segment spoils it. -/
def rdsSegment (e k : Nat) (g : RdsGroup) (s : State) : State :=
  let first := g.b.testBit 4
  let remain := g.b % 16
  let data := beBytes 2 g.c ++ beBytes 2 g.d
  match s.bcast.segments.find? (fun x => x.entry == e && x.slot == k) with
  | none => if first then keepSegments e k remain data s else s
  | some x =>
    if first then s |> malformedCopy |> keepSegments e k remain data
    else if remain + 1 = x.remain then keepSegments e k remain (x.bytes ++ data) s
    else s |> malformedCopy |> dropSegments e k

/-- A group offered to the map entries of kind RDS whose AID is registered for its type on the path (09 R373). -/
def rdsCopies (p k : Nat) (g : RdsGroup) (s : State) : State :=
  (List.range 8).foldl (fun t e =>
    if mapLive t e 0 && bitsOf (mapB t e) 15 0 == g.a
        && (pathAt t p).aids.contains (bitsOf (mapA t e) 15 0, groupType g)
    then rdsSegment e k g t else t) s

/-- The registration of an AID in a 3A group, learned on each path (09 R373). -/
def learnAid (p : Nat) (g : RdsGroup) (s : State) : State :=
  if groupType g = 6 then
    let aids := (g.d, g.b % 32) :: (pathAt s p).aids.filter (fun a => !(a.1 == g.d))
    setPath p { pathAt s p with aids := aids } s
  else s

/-- A PSK frame offered to the map entries of kind LW (09 R373): with LW_CRC its last two bytes are checked and
removed. -/
def lwCopies (p : Nat) (bytes : List Byte) (s : State) : State :=
  (List.range 8).foldl (fun t e =>
    if mapLive t e 2 && bpMode t p == 1 && bitsOf (mapB t e) 21 0 == regBits t (bpReg p Reg.bpTune) 21 0
        && bitsOf (mapA t e) 15 0 == regBits t (bpReg p Reg.bpPskSync) 15 0 then
      if !(bitAt (mapA t e) 25) then handCopy e bytes t
      else if 64 < bytes.length ∨ bytes.length < 2 then malformedCopy t
      else
        let body := bytes.take (bytes.length - 2)
        if (crc16 body).toNat = beNat (bytes.drop (bytes.length - 2)) then handCopy e body t else malformedCopy t
    else t) s

/-- A data group offered to the map entries of kind DAB (09 R373). -/
def dabCopies (p address component : Nat) (bytes : List Byte) (s : State) : State :=
  (List.range 8).foldl (fun t e =>
    if mapLive t e 1 && bitsOf (mapA t e) 21 10 == component && bitsOf (mapA t e) 9 0 == address
        && ficBelongs (pathAt t p).dab (mapB t e).toNat component
    then handCopy e bytes t else t) s

/-- A vote decision not yet recorded (09 R376): `second` is the disagreeing copy and its map entry. -/
structure VoteDecision where
  stream : Nat
  seq : Nat
  outcome : Nat
  supersedes : Bool
  late : Bool
  first : List Byte
  firstUsec : Word
  agree : List Nat
  second : Option (Nat × List Byte)
  deriving DecidableEq, Repr

/-- The mask of map entries. -/
def entryMask (es : List Nat) : Nat := es.foldl (fun n e => n ||| 2 ^ e) 0

/-- The record of a decision (09 R379). -/
def voteRecord (s : State) (d : VoteDecision) : List Word :=
  let second := (d.second.map (·.2)).getD []
  let dissent := (d.second.map (fun x => 2 ^ x.1)).getD 0
  [fieldWord 31 24 0x40 ||| fieldWord 23 22 d.outcome ||| fieldWord 21 21 (bit01 d.supersedes)
     ||| fieldWord 20 20 (bit01 d.late) ||| fieldWord 18 16 d.stream,
   fieldWord 31 24 (entryMask d.agree) ||| fieldWord 23 16 dissent ||| fieldWord 15 8 second.length
     ||| fieldWord 7 0 d.first.length,
   BitVec.ofNat 32 d.seq, d.firstUsec, bdaUsec s] ++ packWords d.first ++ packWords second

/-- Queue the record of a decision, with its counter and events (09 R379, R387). -/
def issueDecision (d : VoteDecision) (s : State) : State :=
  if activeSecondary s then s
  else
    let room := queueFree s Reg.ccdQPop ≠ 0
    let s := s |> outcomeRecord (voteRecord s d) |> countReg (Reg.ccdConfirmed + (d.outcome - 1)) 1
    if !room then s
    else if d.outcome = 3 then s |> raiseEvent 0x1D 0 |> raiseEvent 0x1D 1 else raiseEvent 0x1D 0 s

/-- A message closes and is remembered, the last 64 of them (09 R375, R377). -/
def rememberMessage (v : VoteEntry) (outcome : Nat) (s : State) : State :=
  let m : ClosedMsg := { stream := v.stream, seq := v.seq, outcome := outcome, crc := crc32c v.first, first := v.first,
                         agree := v.agree, firstUsec := v.firstUsec }
  setBcast { s.bcast with
    votes := s.bcast.votes.filter (fun w => !(w.stream == v.stream && w.seq == v.seq))
    closed := (m :: s.bcast.closed).take 64 } s

/-- The window of a message ends (09 R375): UNCONFIRMED after one bearer only. -/
def closeVote (v : VoteEntry) (s : State) : State :=
  let d : VoteDecision := { stream := v.stream, seq := v.seq, outcome := 2, supersedes := false, late := false,
                            first := v.first, firstUsec := v.firstUsec, agree := v.agree, second := none }
  let s := if !v.confirmed && !v.disputed then issueDecision d s else s
  rememberMessage v (if v.disputed then 3 else if v.confirmed then 1 else 2) s

/-- Replace the open entry of a message. -/
def setVote (v : VoteEntry) (s : State) : State :=
  setBcast { s.bcast with
    votes := s.bcast.votes.map (fun w => if w.stream = v.stream ∧ w.seq = v.seq then v else w) } s

/-- Drop the pending decision of a message: a later one of the same clock replaces it (09 R376). -/
def withoutDecision (stream seq : Nat) (ds : List VoteDecision) : List VoteDecision :=
  ds.filter (fun d => !(d.stream == stream && d.seq == seq))

/-- A copy of an open message (09 R375). -/
def voteOpen (e : Nat) (bytes : List Byte) (v : VoteEntry) (ds : List VoteDecision) (s : State) :
    State × List VoteDecision :=
  if v.disputed then (s, ds)
  else if bytes = v.first then
    if v.agree.contains e then (countReg Reg.ccdRepeats 1 s, ds)
    else
      let v' := { v with agree := v.agree ++ [e], confirmed := true }
      let d : VoteDecision := { stream := v.stream, seq := v.seq, outcome := 1, supersedes := false, late := false,
                                first := v.first, firstUsec := v.firstUsec, agree := v'.agree, second := none }
      if v.confirmed then (s |> setVote v' |> countReg Reg.ccdRepeats 1, ds) else (setVote v' s, ds ++ [d])
  else
    let pending := ds.any (fun d => d.stream == v.stream && d.seq == v.seq)
    let d : VoteDecision :=
      { stream := v.stream, seq := v.seq, outcome := 3, supersedes := v.confirmed && !pending, late := false,
        first := v.first, firstUsec := v.firstUsec, agree := v.agree, second := some (e, bytes) }
    (setVote { v with disputed := true } s, withoutDecision v.stream v.seq ds ++ [d])

/-- A copy of a closed message that is still remembered (09 R375, R377). -/
def voteClosed (e : Nat) (bytes : List Byte) (m : ClosedMsg) (ds : List VoteDecision) (s : State) :
    State × List VoteDecision :=
  if crc32c bytes = m.crc then (countReg Reg.ccdRepeats 1 s, ds)
  else if m.outcome = 3 then (s, ds)
  else
    let d : VoteDecision :=
      { stream := m.stream, seq := m.seq, outcome := 3, supersedes := true, late := true, first := m.first,
        firstUsec := m.firstUsec, agree := m.agree, second := some (e, bytes) }
    (setBcast { s.bcast with
       closed := s.bcast.closed.map (fun x =>
         if x.stream = m.stream ∧ x.seq = m.seq then { x with outcome := 3 } else x) } s, ds ++ [d])

/-- The first copy of a message opens an entry; 32 open ones close the oldest first (09 R375, R377). -/
def openVote (e stream seq : Nat) (bytes : List Byte) (s : State) : State :=
  let s := if s.bcast.votes.length < 32 then s
    else match s.bcast.votes with
      | [] => s
      | v :: _ => closeVote v s
  let v : VoteEntry := { stream := stream, seq := seq, first := bytes, firstUsec := bdaUsec s, agree := [e],
                         confirmed := false, disputed := false }
  setBcast { s.bcast with votes := s.bcast.votes ++ [v] } s

/-- One copy is voted (09 R374, R375). -/
def voteCopy (c : CopyRec) (acc : State × List VoteDecision) : State × List VoteDecision :=
  let (s, ds) := acc
  let k := mapStream s c.entry
  let cfg := getReg s (Reg.ccdStream + k)
  let off := bitsOf cfg 21 16
  let len := bitsOf cfg 13 12 + 1
  if c.bytes.length < off + len then (malformedCopy s, ds)
  else
    let seq := beNat ((c.bytes.drop off).take len)
    match s.bcast.votes.find? (fun v => v.stream == k && v.seq == seq) with
    | some v => voteOpen c.entry c.bytes v ds s
    | none =>
      match s.bcast.closed.find? (fun m => m.stream == k && m.seq == seq) with
      | some m => voteClosed c.entry c.bytes m ds s
      | none => (openVote c.entry k seq c.bytes s, ds)

/-- The copies of a list in ascending map entry order (09 R376). -/
def byEntry (cs : List CopyRec) : List CopyRec :=
  (List.range 8).flatMap (fun e => cs.filter (fun c => c.entry == e))

/-- MESSAGE_COPY (09 R375, R376): the copies complete by now are voted together, in map entry order, and each message
then gives the record of the state reached. -/
def messageCopy (s : State) : State :=
  if !(domainOn s 6) then s
  else
    let cs := byEntry s.bcast.ready
    let s := setBcast { s.bcast with ready := [] } s
    let (s, ds) := cs.foldl (fun a c => voteCopy c a) (s, [])
    ds.foldl (fun t d =>
      let agree := match t.bcast.votes.find? (fun v => v.stream == d.stream && v.seq == d.seq) with
        | some v => v.agree
        | none => d.agree
      issueDecision { d with agree := agree } t) s

/-- MESSAGE_COPY. -/
def execMessageCopy (s : State) : Out := .next (messageCopy s)

/-- The window of a message is over, on BDA.USEC (09 R375). -/
def voteWindowOver (s : State) (v : VoteEntry) : Bool :=
  regBits s (Reg.ccdStream + v.stream) 30 27 * 1000000 ≤ (bdaUsec s - v.firstUsec).toNat

/-- MESSAGE_WINDOW_END (09 R375, R376): copies complete in the same clock are taken first. -/
def messageWindowEnd (stream : Nat) (seq : Word) (s : State) : State :=
  if !(domainOn s 6) then s
  else
    let s := messageCopy s
    match s.bcast.votes.find? (fun v => v.stream == stream && v.seq == seq.toNat) with
    | none => s
    | some v => if voteWindowOver s v then closeVote v s else s

/-- MESSAGE_WINDOW_END. -/
def execMessageWindowEnd (stream : Fin 8) (seq : Word) (s : State) : Out := .next (messageWindowEnd stream.val seq s)

/-- A write of CCD.STREAM[k] or of a map entry of stream `k` discards its messages without records (09 R378). -/
def streamWritten (k : Nat) (s : State) : State :=
  setBcast { s.bcast with
    votes := s.bcast.votes.filter (fun v => !(v.stream == k))
    closed := s.bcast.closed.filter (fun m => !(m.stream == k)) } s

/-- A write that clears CCD.CTRL.EN discards all messages (09 R378). -/
def ccdCtrlWritten (s : State) : State :=
  if regBit s Reg.ccdCtrl 31 then s
  else setBcast { s.bcast with votes := [], closed := [], ready := [], segments := [] } s

/-! ## Voting time (09 R380 to R384) -/

/-- The real-time counter in 0.1 ms. -/
def counterTenths (s : State) : Nat := rtcCount s * 10000 / 32768

/-- A confirmed time disciplines the counter (09 R382): `c` the confirmed time less the counter, `u` its uncertainty,
both in 0.1 ms. The numbers answered are what was stepped and what was slewed, in 0.1 ms. -/
def discipline (c u : Int) (s : State) : State × Bool × Bool :=
  let limit : Int := (regBits s Reg.ccdTimeCfg 15 8 * 100 : Nat)
  if !(regBit s Reg.ccdCtrl 29) || (c.natAbs : Int) ≤ u then (s, false, false)
  else if (c.natAbs : Int) ≤ limit then (rtcSet (rtcCount s) (c * 100) s, false, true)
  else
    (s |> rtcStep ((rtcCount s : Nat) + c * 32768 / 10000).toNat |> raiseEvent 0x1D 3 |> countReg Reg.ccdTimeSteps 1,
     true, false)

/-- The common part of the reports' intervals. -/
def commonPart (rs : List TimeRec) : Int × Int :=
  match rs with
  | [] => (0, 0)
  | r :: t => t.foldl (fun i q => (max i.1 (q.offset - q.half), min i.2 (q.offset + q.half)))
      (r.offset - r.half, r.offset + r.half)

/-- Mask of slots. -/
def slotMask (rs : List TimeRec) : Nat := rs.foldl (fun n r => n ||| 2 ^ r.slot) 0

/-- Mask of classes. -/
def classMask (rs : List TimeRec) : Nat := rs.foldl (fun n r => n ||| 2 ^ r.cls) 0

/-- Two reports overlap. -/
def overlap (a b : TimeRec) : Bool := a.offset - a.half ≤ b.offset + b.half && b.offset - b.half ≤ a.offset + a.half

/-- The outcome of a vote (09 R381): 1 CONFIRMED, 2 UNCONFIRMED, 3 DISPUTED. -/
def timeOutcome (distinct : Bool) (rs : List TimeRec) : Nat :=
  let (lo, hi) := commonPart rs
  if hi < lo then 3
  else if 2 ≤ rs.length ∧ (!distinct ∨ 2 ≤ ([0, 1, 2].filter (fun c => rs.any (fun r => r.cls == c))).length) then 1
  else 2

/-- Whole ms of an uncertainty in 0.1 ms, rounded up, saturating. -/
def uncMs (u : Int) : Nat := capAt 0xFFFF ((u.toNat + 9) / 10)

/-- The time record (09 R383): of a DISPUTED vote the spec states no voted time, so those words are free. -/
def timeRecord (s : State) (outcome : Nat) (stepped slewed : Bool) (classes agree dissent lto : Nat) (time u : Int)
    (correction : Int) : List Word :=
  let t := time.toNat
  [fieldWord 31 24 0x41 ||| fieldWord 23 22 outcome ||| fieldWord 21 21 (bit01 stepped)
     ||| fieldWord 20 20 (bit01 slewed) ||| fieldWord 18 16 classes ||| fieldWord 10 8 agree ||| fieldWord 6 4 dissent,
   if outcome = 3 then freeWordOf s else BitVec.ofNat 32 (t / 10000),
   if outcome = 3 then freeWordOf (useFree s) &&& (maskOf 25 16 ||| maskOf 15 0)
   else fieldWord 25 16 (t / 10 % 1000) ||| fieldWord 15 0 (uncMs u),
   fieldWord 7 0 lto, BitVec.ofNat 32 (intField 32 (correction / 10))]

/-- A time vote closes and decides (09 R381 to R384, R389). -/
def closeTimeVote (s : State) : State :=
  match s.bcast.reports with
  | [] => s
  | r :: t =>
    let rs := r :: t
    let outcome := timeOutcome (regBit s Reg.ccdCtrl 28) rs
    let (lo, hi) := commonPart rs
    let (c, u) := if outcome = 1 then ((lo + hi) / 2, (hi - lo) / 2) else (r.offset, r.half)
    let agreeing := if outcome = 3 then rs.filter (overlap r) else rs
    let dissent := if outcome = 3 then rs.filter (fun q => !(overlap r q)) else []
    let lto := ((s.bcast.lto.find? (fun x => agreeing.any (fun q => q.slot == x.1))).map (·.2)).getD 0
    let time : Int := (counterTenths s : Nat) + c
    let s := setBcast { s.bcast with reports := [] } s
    let own := !(activeSecondary s)
    let (s, stepped, slewed) := if outcome = 1 ∧ own then discipline c u s else (s, false, false)
    let correction := if stepped || slewed then c else 0
    let view := s.bcast.view
    let s := setBcast { s.bcast with
      view := { outcome := outcome, agree := slotMask agreeing, dissent := slotMask dissent,
                classes := classMask agreeing, lto := lto,
                correction := if stepped || slewed then c else view.correction,
                confirmedAt := if outcome = 1 then some s.now else view.confirmedAt,
                half := if outcome = 1 then u else view.half } } s
    let room := queueFree s Reg.ccdQPop ≠ 0
    let rec' := timeRecord s outcome stepped slewed (classMask agreeing) (slotMask agreeing) (slotMask dissent) lto time
      u correction
    let s := if outcome = 3 then useFreeN 2 s else s
    let s := if outcome = 1 then countReg Reg.ccdTimeConfirmed 1 s else s
    let s := outcomeRecord rec' s
    if own && room then raiseEvent 0x1D 2 s else s

/-- TIME_VOTE_CLOSE (09 R381): WIN_S after the first report. -/
def execTimeVoteClose (s : State) : Out :=
  .next (if domainOn s 6 && passedMs s s.bcast.reportsNow (1000 * regBits s Reg.ccdTimeCfg 3 0) then closeTimeVote s else s)

/-- A slot of which the vote waits for a report: enabled, its path LOCKED in a mode that carries time. -/
def timeSlot (s : State) (k : Nat) : Bool :=
  regBit s (Reg.ccdSlotBind + k) 30 &&
    (match slotPath s k with
     | none => false
     | some p => bpState s p == Bs.locked && (bpMode s p == 2 || bpMode s p == 3 || bpMode s p == 4))

/-- A time report of class `cls` and half-width `half` from path `p` (09 R380, R381): it states `utc` for an instant `age` ago,
all in 0.1 ms. A second one from a slot replaces its first; the vote closes once every slot it waits for has reported. -/
def timeReport (p cls half age : Nat) (utc : Int) (s : State) : State :=
  match boundSlot s p with
  | none => s
  | some k =>
    if !(regBit s Reg.ccdCtrl 30) || !(regBit s (Reg.ccdSlotBind + k) 30) then s
    else
      let r : TimeRec := { slot := k, cls := cls, half := (half : Int),
                           offset := utc - ((counterTenths s : Int) - (age : Int)) }
      let rs := s.bcast.reports
      let rs := if rs.any (fun q => q.slot == k) then rs.map (fun q => if q.slot = k then r else q) else rs ++ [r]
      let s := setBcast { s.bcast with
        reports := rs
        reportsNow := if s.bcast.reports.isEmpty then s.now else s.bcast.reportsNow } s
      if (List.range 3).all (fun j => !(timeSlot s j) || rs.any (fun q => q.slot == j)) then closeTimeVote s else s

/-- The local offset last decoded for the slot of path `p`, most recent first (09 R383). -/
def noteLto (p : Nat) (lto : Option Nat) (s : State) : State :=
  match lto, boundSlot s p with
  | some b, some k =>
    setBcast { s.bcast with lto := (k, b) :: s.bcast.lto.filter (fun x => !(x.1 == k)) } s
  | _, _ => s

/-- CCD.TIME_NOW1.UNC_MS (09 R384). -/
def timeNowUnc (s : State) : Nat :=
  match s.bcast.view.confirmedAt with
  | none => 0xFFFF
  | some at_ => uncMs (s.bcast.view.half + ((cyclesSec (s.now - at_) : Nat) : Int) / 2
      + (((slewLeft s).natAbs : Nat) : Int) / 100)

/-- CCD.TIME_NOW0 to TIME_NOW3 (09 R384): OUTCOME reads 0 before the first CONFIRMED vote. -/
def timeNow (s : State) (i : Nat) : Word :=
  let v := s.bcast.view
  match i with
  | 0 => BitVec.ofNat 32 (rtcCount s / 32768)
  | 1 => fieldWord 25 16 (rtcCount s % 32768 * 1000 / 32768) ||| fieldWord 15 0 (timeNowUnc s)
  | 2 => fieldWord 31 30 (if v.confirmedAt.isNone then 0 else v.outcome) ||| fieldWord 26 24 v.agree ||| fieldWord 22 20 v.dissent
      ||| fieldWord 18 16 v.classes ||| fieldWord 15 8 v.lto
      ||| fieldWord 7 0 (match v.confirmedAt with
          | none => 255
          | some at_ => capAt 255 (cyclesSec (s.now - at_)))
  | _ => BitVec.ofNat 32 (intField 32 (v.correction / 10))

/-! ## Items (09 R362 to R372) -/

/-- Whether path `p` delivers items: its domain is on and it is LOCKED in mode `m`. -/
def delivers (s : State) (p m : Nat) : Bool :=
  domainOn s 6 && bpMode s p == m && bpState s p == Bs.locked && !(testRuns s (0x18 + p))

/-- The slot of a delivering path whose MSG_EN is 1 and which is bound to it. -/
def messageSlot (s : State) (p : Nat) : Option Nat :=
  match boundSlot s p with
  | none => none
  | some k => if regBit s (Reg.ccdSlotBind + k) 31 then some k else none

/-- What the decoders take from each group of a listening path or a scan path (09 R363): the programme identification, the
registration of AIDs, the alternative frequencies of the service followed (08 R342), the local offset. -/
def groupUsed (p : Nat) (g : RdsGroup) (s : State) : State :=
  if bpRole s p = 0 then s
  else
    let s := setPath p { pathAt s p with idents := (g.a :: (pathAt s p).idents).take 2 } s
    s |> learnAid p g
      |> (if (getReg s (bpReg p Reg.bpService)).toNat = g.a then addCandidates p (rdsAlternatives g) else id)
      |> noteLto p (rdsOffset g)

/-- A group with every block corrected (09 R362, R363, R373, R380). -/
def goodGroup (p : Nat) (g : RdsGroup) (s : State) : State :=
  let s := groupUsed p g s
  let s := match listenSlot s p with
    | none => s
    | some k =>
      let s := countReg Reg.bdaGroups 1 s
      if regBit s (Reg.bdaGroupMask + k) (groupType g) then
        dataRecord 0x30 k p (16 * bit01 g.cPrime + g.corrected) (bdaUsec s)
          [fieldWord 31 16 g.a ||| fieldWord 15 0 g.b, fieldWord 31 16 g.c ||| fieldWord 15 0 g.d] s
      else s
  let s := match messageSlot s p with
    | none => s
    | some k => rdsCopies p k g s
  match rdsTime g with
  | none => s
  | some t => timeReport p 0 1000 0 ((t * 10000 : Nat) : Int) s

/-- RDS_GROUP (08 R333, 09 R362): four blocks that passed block sync; a group with a block still in error is counted bad and
not used. -/
def rdsGroup (p : Nat) (a b c d : BitVec 26) (s : State) : State :=
  if !(delivers s p 2) || !(bpSync s p) then s
  else match rdsGroupOf a b c d with
  | none => if bpRole s p = 1 then countReg Reg.bdaGroupsBad 1 s else s
  | some g => goodGroup p g s

/-- RDS_GROUP. -/
def execRdsGroup (path : Fin 4) (a b c d : BitVec 26) (s : State) : Out := .next (rdsGroup path.val a b c d s)

/-- How long ago the null symbol of the present frame began, in 0.1 ms (09 R380). -/
def frameAge (s : State) (p : Nat) : Nat := cyclesUs (s.now - (pathAt s p).markNow) / 100

/-- A FIB that passes its CRC (08 R342, 09 R364, R366, R380): its 30 data bytes. -/
def goodFib (p cif index : Nat) (bytes : List Byte) (s : State) : State :=
  let s := setPath p { pathAt s p with dab := ficLearn bytes (pathAt s p).dab } s
  let s := s |> addCandidates p (ficAlternatives (pathAt s p).dab (getReg s (bpReg p Reg.bpService)).toNat)
    |> noteLto p (ficOffset bytes)
  let s := match listenSlot s p with
    | none => s
    | some k =>
      if regBit s (Reg.bdaSlotCfg + k) 31 then
        dataRecord 0x31 k p (256 * cif + index) (bdaUsec s) (packWords (bytes ++ [0#8, 0#8])) s
      else s
  match ficTime bytes with
  | none => s
  | some (ms, long) => timeReport p 1 (if long then 100 else 5000) (frameAge s p) ((ms * 10 : Nat) : Int) s

/-- FIB (09 R364): 30 data bytes and their CRC. -/
def fib (p cif index : Nat) (bytes : List Byte) (s : State) : State :=
  if !(delivers s p 3) || bytes.length != 32 then s
  else
    let s := countReg Reg.bdaFibs 1 s
    if crcEnds bytes then goodFib p cif index (bytes.take 30) s else countReg Reg.bdaFibCrc 1 s

/-- FIB. -/
def execFib (path : Fin 4) (cif : Fin 4) (index : Fin 3) (bytes : List Byte) (s : State) : Out :=
  .next (fib path.val cif.val index.val bytes s)

/-- Whether a SELECT that resolves at once would take the load past the limit (09 R367). -/
def selectOverload (s : State) (k j : Nat) (packet : Bool) (component : Nat) : Bool :=
  match slotPath s k with
  | none => false
  | some p =>
    match resolveOn s p packet component with
    | none => false
    | some c =>
      decodeLimit < decodeLoad s - (if selState s k j = 2 then slotWeight s k * 8 * regBits s (selReg k j) 21 14 else 0)
        + slotWeight s k * 8 * c.2

/-- An accepted SELECT installs, replaces or removes (09 R365, R366). -/
def selectApply (k j : Nat) (arg : Word) (s : State) : State :=
  if !(bitAt arg 31) then bcastSpaceWatch (setReg (selReg k j) 0#32) s
  else
    let s := s |> setReg (selReg k j) (fieldWord 31 30 1 ||| fieldWord 29 29 (bit01 (bitAt arg 30))
        ||| fieldWord 28 28 (bit01 (bitAt arg 29)) ||| fieldWord 11 0 (bitsOf arg 21 10))
      |> setBcast { s.bcast with aux := s.bcast.aux.set (4 * k + j) (bitsOf arg 9 0) }
    match slotPath s k with
    | none => s
    | some p => resolveSel k p j s

/-- BDA door command SELECT (09 R365, R367). -/
def doorSelect (req : Requester) (word : Word) (s : State) : State :=
  let k := bitsOf word 1 0
  let j := bitsOf word 3 2
  let arg := getReg s Reg.bdaSelArg
  doorWrite req 0x1C word
    (firstRefusal [(bitsOf word 15 4 != 0 || k == 3, Oc.badArg),
      (bitAt arg 31 && selectOverload s k j (bitAt arg 30) (bitsOf arg 21 10), 0x40),
      (bitAt arg 31 && selState s k j == 0 && bcastFree s == 0, Oc.queueFull)])
    none (fun id _ t => t |> selectApply k j arg |> finishCmd id Oc.done) s

/-- SELECT. -/
def execSelect (req : Requester) (tag : Byte) (arg : BitVec 16) (s : State) : Out :=
  .next (doorIssue 0x1C doorSelect req (doorWord tag 0x10 arg) s)

/-- CIF (09 R368): CIF number `index` of the frame, forwarded raw for an ACTIVE audio selection; 24 ms of its rate are 24
bytes for each 8 kbit/s. -/
def cifItem (p j index : Nat) (bytes : List Byte) (s : State) : State :=
  match listenSlot s p with
  | none => s
  | some k =>
    let sel := getReg s (selReg k j)
    if !(delivers s p 3) || bitsOf sel 31 30 != 2 || bitAt sel 29 || bytes.length != 24 * bitsOf sel 21 14 then s
    else subRecord k p (1024 * bitsOf sel 27 22 + 256 * j)
      ((fieldWord 31 16 (cifCounter (pathAt s p).dab index) ||| fieldWord 15 0 bytes.length) :: packWords bytes) s

/-- CIF. -/
def execCif (path : Fin 4) (entry : Fin 4) (index : Fin 4) (bytes : List Byte) (s : State) : Out :=
  .next (cifItem path.val entry.val index.val bytes s)

/-- DATA_GROUP (09 R369, R373): the packets of one MSC data group; a bad or incomplete group is discarded and counted. -/
def dataGroup (p j : Nat) (packets : List (List Byte)) (s : State) : State :=
  match listenSlot s p with
  | none => s
  | some k =>
    let sel := getReg s (selReg k j)
    let addr := s.bcast.aux.getD (4 * k + j) 0
    let address := packetAddress (packets.getD 0 [])
    let mine := if addr = 0 then address ≠ 0 else address = addr
    if !(delivers s p 3) || bitsOf sel 31 30 != 2 || !(bitAt sel 29) || !mine then s
    else match dataField packets with
    | none => countReg Reg.bdaPktCrc 1 s
    | some bytes =>
      let s := countReg Reg.bdaPktGroups 1 s
      let s := match messageSlot s p with
        | none => s
        | some _ => dabCopies p address (bitsOf sel 11 0) bytes s
      if bitAt sel 28 then
        dataRecord 0x33 k p (1024 * bitsOf sel 27 22 + address) (bdaUsec s)
          (fieldWord 15 0 bytes.length :: packWords bytes) s
      else s

/-- DATA_GROUP. -/
def execDataGroup (path : Fin 4) (entry : Fin 4) (packets : List (List Byte)) (s : State) : Out :=
  .next (dataGroup path.val entry.val packets s)

/-- A minute frame that passes (08 R336, R337; 09 R371, R380). -/
def goodMinute (p : Nat) (ss : List (Option TcSymbol)) (ageUs : Nat) (s : State) : State :=
  let format := regBits s (bpReg p Reg.bpTcCfg) 2 0
  let utc := tcUtc format ss
  let flags := tcFlags format ss
  let s := match listenSlot s p with
    | none => s
    | some k =>
      if regBit s (Reg.bdaSlotCfg + k) 30 then
        dataRecord 0x34 k p format (bdaUsec s - BitVec.ofNat 32 ageUs)
          ([BitVec.ofNat 32 (intField 32 utc), fieldWord 1 1 (bit01 flags.1) ||| fieldWord 0 0 (bit01 flags.2)]
            ++ tcWords (tcBit ss) ++ (if format = 1 then tcWords (tcBitB ss) else [0#32, 0#32])) s
      else s
  timeReport p 2 20 (ageUs / 100 + regBits s Reg.ccdTimeCfg 25 16) (utc * 10000) s

/-- TC_MINUTE (08 R336): a complete minute frame is decoded and checked; one that fails is not handed on. -/
def tcMinute (p : Nat) (r : MinuteReport) (s : State) : State :=
  if !(delivers s p 4) || !(bpSync s p) || r.seconds.length != 60 then s
  else
    let tc := bpReg p Reg.bpTcStatus
    let format := regBits s (bpReg p Reg.bpTcCfg) 2 0
    let ss := r.seconds.map (tcSymbol format)
    let bad := tcBad format ss
    let s := s |> setRegBits tc 15 8 (capAt 255 bad) |> setRegBits tc 29 24 0
    if bad ≠ 0 then setRegBits tc 23 16 0 s
    else s |> setRegBits tc 23 16 (capAt 255 (regBits s tc 23 16 + 1)) |> raiseEvent (0x18 + p) 5 |> goodMinute p ss r.ageUs

/-- TC_MINUTE. -/
def execTcMinute (path : Fin 4) (report : MinuteReport) (s : State) : Out := .next (tcMinute path.val report s)

/-- Pack bits into bytes, the first bit most significant, the last byte padded with 0 (09 R372). -/
def packBits (n : Nat) (bits : List Bool) : List Byte :=
  match n with
  | 0 => []
  | k + 1 =>
    BitVec.ofNat 8 ((List.range 8).foldl (fun v i => 2 * v + bit01 (bits.getD i false)) 0) :: packBits k (bits.drop 8)

/-- The data bits of demodulated phases: as they are against the carrier loop, or with DIFF between successive bits (08
R338). The first phase is the one before the data. -/
def pskBits (diff : Bool) (raw : List Bool) : List Bool :=
  (raw.zip (raw.drop 1)).map (fun b => if diff then b.1 != b.2 else b.2)

/-- Bit errors in a sync word received, most significant bit first. -/
def syncErrors (word : Nat) (bits : List Bool) : Nat :=
  ((List.range 16).filter (fun i => bits.getD i false != word.testBit (15 - i))).length

/-- PSK_FRAME (08 R338, 09 R372, R373): the phases of a sync word and of the bits that follow, with the one before. A frame is
accepted with at most SYNC_TOL errors in PSK_SYNC.WORD and FRAME_BITS bits; USEC is taken at the end of that word. -/
def pskFrame (p : Nat) (raw : List Bool) (s : State) : State :=
  let cfg := getReg s (bpReg p Reg.bpPskCfg)
  let n := bitsOf cfg 9 0
  let bits := pskBits (bitAt cfg 27) raw
  if !(delivers s p 1) || !(bitAt cfg 31) || bits.length != 16 + n
      || bitsOf cfg 15 12 < syncErrors (regBits s (bpReg p Reg.bpPskSync) 15 0) bits then s
  else
    let bytes := packBits ((n + 7) / 8) (bits.drop 16)
    let since := n * 1000000 / (25 * 2 ^ bitsOf cfg 30 28)
    let s := match listenSlot s p with
      | none => s
      | some k =>
        if regBit s (Reg.bdaSlotCfg + k) 29 then
          dataRecord 0x35 k p n (bdaUsec s - BitVec.ofNat 32 since) (packWords bytes) s
        else s
    match messageSlot s p with
    | none => s
    | some _ => lwCopies p bytes s

/-- PSK_FRAME. -/
def execPskFrame (path : Fin 4) (raw : List Bool) (s : State) : Out := .next (pskFrame path.val raw s)

end Sys2Proof.Machine
end

