-- ==== Sys2Proof/Machine/SelfTest.lean ====
section
/-!
DEFINITION. Sys2Proof/Machine/SelfTest.lean: SELF_TEST and CALIBRATE (03 R139, R140, R657; 17 R614, R615): which pages
offer them, when they may start, what an URGENT one does to the work in progress, and how they end.
-/
namespace Sys2Proof.Machine

/-- Whether a page offers command 0xF0 or 0xF1. -/
def offersTest (p code : Nat) : Bool :=
  let both := [0x10, 0x12, 0x18, 0x19, 0x1A, 0x1B, 0x20]
  let one := [0x0A, 0x0B, 0x0D, 0x13, 0x14, 0x1C, 0x1D, 0x21, 0x28, 0x29, 0x2A, 0x2B, 0x2C]
  both.contains p || (code == 0xF0 && one.contains p)

/-- The mason of an MS page. -/
def pageMason (p : Nat) : Option (Fin 5) :=
  match p with
  | 0x28 => some 0
  | 0x29 => some 1
  | 0x2A => some 2
  | 0x2B => some 3
  | 0x2C => some 4
  | _ => none

/-- The path of a BP page. -/
def pagePath (p : Nat) : Option (Fin 4) :=
  match p with
  | 0x18 => some 0
  | 0x19 => some 1
  | 0x1A => some 2
  | 0x1B => some 3
  | _ => none

/-- The idle gap of a mason's test (13 R525). -/
def masonIdle (s : State) (m : Fin 5) : Bool :=
  let st := (masonAt s m).state
  st == .reset || st == .noImage || st == .halted
    || (m != 4 && st == .waiting && !(s.doors.running.any (fun c => islandPage m c.page && c.page != 0x28 + m.val)))

/-- The idle gap of a page's subsystem (17 R614, 08 R356, 13 R525): BDA and CCD between items, UMX between replies. -/
def testIdle (s : State) (p : Nat) : Bool :=
  match pageMason p, pagePath p with
  | some m, _ => masonIdle s m
  | _, some b => bpRole s b.val != 1 && (pathAt s b.val).jobs.isEmpty
  | none, none =>
    if p = 0x10 ∨ p = 0x12 ∨ p = 0x14 then s.nfc.table.isEmpty && s.nfc.run.isNone
    else if p = 0x13 then s.frx.reply.isNone
    else if p = 0x20 ∨ p = 0x21 then calGap s
    else if p = 0x0A then (runningJob s false).isNone && (runningJob s true).isNone
    else if p = 0x0B then s.ident.jobs.isEmpty
    else true

/-- Whether an URGENT test of a page finds its frame boundary at this instant (03 R657). At IDN the boundary is the end of
a command, which the command that starts the test reports. -/
def testBoundary (s : State) (p : Nat) : Bool :=
  match pageMason p, pagePath p with
  | some m, _ =>
    let u := masonAt s m
    u.state != .running || (u.stall.isNone && u.rep == 0)
  | _, some b => !(bpSync s b.val)
  | none, none =>
    if p = 0x10 ∨ p = 0x12 ∨ p = 0x14 then (match s.nfc.run with
      | none => true
      | some r => !r.inFrame)
    else if p = 0x13 then s.frx.reply.isNone
    else if p = 0x20 ∨ p = 0x21 then
      let r := radioState s
      r != Ra.detected && r != Ra.capture && !(Ra.rampUp ≤ r && r ≤ Ra.rampDown)
    else if p = 0x0B then s.ident.jobs.isEmpty
    else true

/-- How a contactless job preempted by a test ends (07 R294, R310). -/
def preemptEnd : NfcEnd := { code := 5, status := 0x0B, outcome := Oc.preempted }

/-- What an URGENT test does to the work in progress when it starts (03 R140, R657): contactless jobs end PREEMPTED, and
the command a path runs. -/
def preempt (p : Nat) (s : State) : State :=
  match pagePath p with
  | some b =>
    match (pathAt s b.val).jobs with
    | [] => s
    | j :: _ =>
      if !j.started then s
      else s |> (fun t => if j.scan then scanEnd b.val j 0 t else t) |> bpEndHead b.val Oc.preempted
  | none => if p = 0x10 ∨ p = 0x12 ∨ p = 0x14 then endJobs (fun _ => true) preemptEnd true s else s

/-- What a test does as it starts: a full survey of the ports there are for CALIBRATE at FLD (05 R221), a calibration at VLR
(10 R415). -/
def testEffect (p code : Nat) (s : State) : State :=
  if p = 0x10 ∧ code = 0xF1 then
    let t := setFld { s.fld with survey := [] } s
    setFld { t.fld with surveyFull := (nextSurveyPort t).isSome } t
  else if p = 0x20 ∧ code = 0xF1 then startCal s
  else s

/-- A test starts: it reads ACCEPTED. -/
def startTest (c : TestCmd) (s : State) : State :=
  let start := fun (t : State) => { t with doors := { t.doors with
    tests := t.doors.tests.map (fun u => if u.id = c.id then { u with started := true } else u) } }
  s |> start |> audioTested c.page fadeDown |> showOutcome c.id Oc.accepted |> testEffect c.page c.code

/-- An URGENT test whose boundary is still to come (03 R657): the contactless job in its frame will end there. -/
def testBooked (p : Nat) (s : State) : State :=
  if p = 0x10 ∨ p = 0x12 ∨ p = 0x14 then endAtBoundary preemptEnd s else s

/-- SELF_TEST or CALIBRATE at a door (03 R139, R140). -/
def doorTest (code p : Nat) (req : Requester) (word : Word) (s : State) : State :=
  let urgent := bitAt word 15
  let ms := bitsOf word 14 0
  doorWrite req p word none none
    (fun id _ t =>
      let c : TestCmd := { id := id, page := p, code := code, urgent := urgent,
                           deadline := t.now + (if ms = 0 then 1000 else ms) * 13560, started := false }
      let alone := (testsOf t p).isEmpty
      let t := { t with doors := { t.doors with tests := t.doors.tests ++ [c] } }
      if alone && testIdle t p then startTest c t
      else if alone && urgent && testBoundary t p then t |> preempt p |> startTest c
      else
        let t := showOutcome id Oc.deferred t
        if urgent then testBooked p t else t) s

/-- A door write whose command code the page does not define (R131, R139): refused as a reserved encoding. -/
def doorUndefined (req : Requester) (p : Nat) (word : Word) (s : State) : State :=
  if !(inDirectory p) then (if req = .host then portSticky 4 s else s)
  else if !(pageUp s p) then awayWrite req (pageReg p 0x0D) word s
  else if (pageMason p).isSome && debugLocked s then (if req = .host then portSticky 4 s else s)
  else rejectWrite p req 2 (pageReg p 0x0D) s

/-- SELF_TEST. On a page that does not offer it, code 0xF0 is a reserved encoding (R131, R139). -/
def execSelfTest (req : Requester) (page : Byte) (tag : Byte) (arg : BitVec 16) (s : State) : Out :=
  .next (doorIssue page.toNat (fun r w => if offersTest page.toNat 0xF0 then doorTest 0xF0 page.toNat r w
    else doorUndefined r page.toNat w) req (doorWord tag 0xF0 arg) s)

/-- CALIBRATE. -/
def execCalibrate (req : Requester) (page : Byte) (tag : Byte) (arg : BitVec 16) (s : State) : Out :=
  .next (doorIssue page.toNat (fun r w => if offersTest page.toNat 0xF1 then doorTest 0xF1 page.toNat r w
    else doorUndefined r page.toNat w) req (doorWord tag 0xF1 arg) s)

/-- The deferred test of a page that is served next: the oldest URGENT one, else the oldest. -/
def nextTest (s : State) (p : Nat) : Option TestCmd :=
  if testRuns s p then none
  else match (testsOf s p).find? (·.urgent) with
    | some c => some c
    | none => (testsOf s p).head?

/-- DEFERRED_START (R140, 17 R614): within the deadline. -/
def execDeferredStart (page : Byte) (s : State) : Out :=
  .next (match nextTest s page.toNat with
    | some c => if pageUp s page.toNat && testIdle s page.toNat && s.now < c.deadline then startTest c s else s
    | none => s)

/-- URGENT_START (R657): the page's frame boundary, or, on a path in SYNC and at IDN, the one this command reports. -/
def execUrgentStart (page : Byte) (s : State) : Out :=
  .next (match nextTest s page.toNat with
    | some c =>
      let p := page.toNat
      if pageUp s p && c.urgent && s.now < c.deadline && (testBoundary s p || (pagePath p).isSome || p == 0x0B) then
        s |> preempt p |> startTest c
      else s
    | none => s)

/-- Remove a test and end its command. -/
def closeTest (c : TestCmd) (oc : Nat) (s : State) : State :=
  { s with doors := { s.doors with tests := s.doors.tests.filter (fun u => u.id != c.id) } } |> finishCmd c.id oc

/-- NOT_RUN (R140): the deadline passes before the test starts. -/
def execNotRun (page : Byte) (s : State) : Out :=
  .next (match (testsOf s page.toNat).find? (fun c => !c.started && c.deadline ≤ s.now) with
    | some c => closeTest c Oc.notRun s
    | none => s)

/-- Chains of a mask, as a test of FRX finds them (06 R254): those that fail are marked, those that pass are used again, and
CALIBRATE has trimmed them (R250, R274). -/
def chainsTested (trim : Bool) (mask : Nat) (s : State) : State :=
  (List.range 8).foldl (fun t p =>
    if !(regBit t (Reg.frxChainCfg + p) 31) then t
    else if mask.testBit p then faultChain p t
    else
      let t := setRegBits (Reg.frxChainStatus + p) 29 29 0 t
      if trim then trimmed p t else t) s

/-- What the result of a test means to its page (17 R615): the faults each page defines for a failure, and what a pass
restores (06 R254, 12 R478). `detail` is the mask of failed chains at FRX, the detail of FRONT_END or RNG, the port and
KIND at FLD. -/
def testResult (c : TestCmd) (pass : Bool) (detail : Nat) (s : State) : State :=
  match pagePath c.page with
  | some b => if pass then s else raiseFault (0x18 + b.val) 0 (if c.code = 0xF0 then 0 else detail % 4) s
  | none =>
    if c.page = 0x12 then chainsTested (c.code == 0xF1) (if pass then 0 else detail % 256) s
    else if c.page = 0x0B then
      (if pass then setIdent { s.ident with rngOk := true } s
       else s |> setIdent { s.ident with rngOk := false } |> raiseFault 0x0B 0 (detail % 4))
    else if c.page = 0x10 ∧ !pass then faultPort (detail / 256 % 8) (detail % 4) (setFld { s.fld with surveyFull := false } s)
    else s

/-- Work that a test kept waiting goes on: the commands of a path, transmissions. -/
def afterTest (p : Nat) (s : State) : State :=
  match pagePath p with
  | some b => bpStart b.val s
  | none =>
    if p = 0x20 ∨ p = 0x21 then
      (if radioState s = Ra.listen then serveNext (fun t => t) s else txTryRamp s)
    else s

/-- TEST_COMPLETE (R615): the test ends DONE, or FAILED with the fault its page defines. A calibration at VLR ends with
the synthesiser's (10 R415); one at FLD follows its full survey and trims every driver (05 R221, R241). -/
def execTestComplete (page : Byte) (pass : Bool) (detail : BitVec 24) (trims : List Int) (s : State) : Out :=
  .next (match (testsOf s page.toNat).find? (·.started) with
    | none => s
    | some c =>
      if !(pageUp s c.page) || (c.page == 0x20 && c.code == 0xF1) || (c.page == 0x10 && pass && s.fld.surveyFull) then s
      else
        s |> testResult c pass detail.toNat
          |> (if c.page = 0x10 ∧ c.code = 0xF1 ∧ pass then trimDrivers (List.range 8) trims else id) |> closeTest c (if pass then Oc.done else Oc.failed)
          |> audioTested c.page fadeUp |> afterTest c.page)

end Sys2Proof.Machine
end

