-- ==== Sys2Proof/Machine/Verdict.lean ====
section
/-!
DEFINITION. Sys2Proof/Machine/Verdict.lean: what the verdict of a decryption does to masons bound to it, and decryptions
that end without a good one (12 R461, R476, R477, R485; 04 R186).
-/
namespace Sys2Proof.Machine

/-- The masons. -/
def masonsAll : List (Fin 5) := [0, 1, 2, 3, 4]

/-- The effects held for a job lose it from the jobs they wait for; a failed verdict discards them (12 R476). -/
def settleHeld (id : Nat) (good : Bool) (s : State) : State :=
  setCipher { s.cipher with
    bound := s.cipher.bound.filter (fun b => b.2 != id)
    held := if good then s.cipher.held.map (fun h => { h with jobs := h.jobs.filter (· != id) })
            else s.cipher.held.filter (fun h => !(h.jobs.contains id)) } s

/-- Explicit transactions, still in progress, for which an entry is held for a job (04 R186). -/
def heldTxns (s : State) (id : Nat) : List Nat :=
  (s.cipher.held.filter (fun h => h.jobs.contains id)).filterMap (fun h =>
    match h.effect with
    | .stage t n _ _ => if (txnAt s t.val).serial = n then some t.val else none
    | .stageMortar t n _ _ => if (txnAt s t.val).serial = n then some t.val else none
    | _ => none)

/-- A mason that waits for a verdict learns that one of them has failed. -/
def markFailed (m : Fin 5) (s : State) : State :=
  let u := masonAt s m
  match u.stall with
  | some (.heldFrame f ops n _) => setMason m { u with stall := some (.heldFrame f ops n true) } s
  | some (.heldCommit t tag cond _) => setMason m { u with stall := some (.heldCommit t tag cond true) } s
  | _ => s

/-- A mason stalled on verdicts goes on once all are known: with zeros for the result words, or the reply TAG_FAIL, where
one has failed; otherwise as `go` says (12 R476). -/
def releaseMason (go : Fin 5 → MasonStall → State → State) (m : Fin 5) (s : State) : State :=
  if !(boundJobs s m).isEmpty then s
  else match (masonAt s m).stall with
  | some (.heldFrame f ops n failed) =>
    if failed then endOperation m (List.replicate n 0#32) s else go m (.heldFrame f ops n failed) s
  | some (.heldCommit t tag cond failed) =>
    if failed then endOperation m [txnWord 3 Ab.tagFail tag.toNat] s else go m (.heldCommit t tag cond failed) s
  | _ => s

/-- A write held for a verdict reaches Mortar: an engine's as such, a requester's on a poisoned word is discarded (17 R610). -/
def destWritten (d : DestWrite) (s : State) : State :=
  match d.who with
  | none => engineWrite d.addr d.bytes s
  | some req =>
    let s := settleWord (d.addr / 8) s
    if isPoison s (d.addr / 8) then (if req = .host then s |> portSticky 8 |> portError 0x10 (d.addr / 4 % 0x10000) else s)
    else mortarPutBytes d.addr d.bytes s

/-- Writes held for a job's destination are applied in the order in which they were issued (12 R476). -/
def releaseDest (id : Nat) (s : State) : State :=
  let mine := s.cipher.dest.filter (fun d => d.job == id)
  let s := setCipher { s.cipher with dest := s.cipher.dest.filter (fun d => d.job != id) } s
  mine.foldl (fun t d => destWritten d t) s

/-- A started decryption ends without a good verdict: its implicit transaction aborts with TAG_FAIL, effects held for it
are discarded, explicit transactions with such a staging entry abort, its destination reads zeros (12 R476, R477). -/
def abandonDecrypt (j : CipherJob) (s : State) : State :=
  let masons := masonsAll.filter (fun m => (boundJobs s m).contains j.id)
  let txns := heldTxns s j.id
  let s := txns.foldl (fun t k => abortTxn k Ab.tagFail t) (settleHeld j.id false s)
  let s := masons.foldl (fun t m => markFailed m t) s
  let s := s |> zeroDest j |> releaseDest j.id
  masonsAll.foldl (fun t m => releaseMason (fun _ _ u => u) m t) s

/-- Blocks a job that ends early has processed, and the state after: none before its start, all once only its verdict is open,
else a number between those known to be done and all (notes/assumptions/24.md). -/
def cutBlocks (j : CipherJob) (s : State) : Nat × State :=
  match j.phase with
  | .waiting => (0, s)
  | .verdict => (j.blocks, s)
  | .running => (j.blocks - j.left + Config.freeNat s.freeIndex % (j.left + 1), useFree s)

/-- A job of the table ends early with a status and outcome, delivering its record (12 R461, R485): only a job that has
started holds a queue entry, so the record of one that has not takes a free one. -/
def cutCipher (status oc : Nat) (j : CipherJob) (s : State) : State :=
  match j.kind with
  | .cipher =>
    let started := j.phase != .waiting
    let s := if started && j.decrypt then abandonDecrypt j s else s
    let s := if started then s else queueReserve Reg.cphQPop 1 s
    let n := cutBlocks j s
    n.2 |> cipherDrop j.id |> cipherDeliver j status n.1 |> finishCmd j.id oc
  | _ => s |> cipherDrop j.id |> finishCmd j.id oc

/-- Every job of the table that satisfies `f` ends early. -/
def cutCiphers (f : CipherJob → Bool) (status oc : Nat) (s : State) : State :=
  (s.cipher.jobs.filter f).foldl (fun t j => cutCipher status oc j t) s

end Sys2Proof.Machine
end

