-- ==== Sys2Proof/Machine/WindDown.lean ====
section
/-!
DEFINITION. Sys2Proof/Machine/WindDown.lean: what each subsystem does when its domain is switched off, when it has gone
off, and when its page is soft reset (03 R116; 15 R573; 05 R240, 06 R268, 07 R294, 08 R357, 09 R388, 10 R422, 11 R455,
12 R485, 13 R526, 16 R598).
-/
namespace Sys2Proof.Machine

/-! ## The end of a page's commands -/

/-- Contactless jobs end with DOMAIN_OFF, and with PAGE_RESET (07 R294, R310). -/
def nfcDomainOff : NfcEnd := { code := 6, status := 0x0B, outcome := Oc.domainOff }
def nfcPageReset : NfcEnd := { code := 7, status := 0x0B, outcome := Oc.pageReset }

/-- Forget the self-tests and calibrations of the pages that satisfy `f`. -/
def dropTests (f : Nat → Bool) (s : State) : State :=
  { s with doors := { s.doors with tests := s.doors.tests.filter (fun t => !(f t.page)) } }

/-- Test carriers in progress and waiting are given up; one on the air ramps down (10 R410). -/
def dropCarriers (s : State) : State :=
  let carrier := fun (t : Transmission) => match t.kind with
    | .carrier _ => true
    | _ => false
  let s := setRadio { s.radio with waiting := s.radio.waiting.filter (fun t => !(carrier t)) } s
  match s.radio.tx with
  | none => s
  | some t => if !(carrier t) then s else if t.ramped then txCut 4 s else txAbandon 4 s

/-- Door commands of an MS page in progress are forgotten. -/
def dropMasonDoors (m : Fin 5) (s : State) : State :=
  setMason m { masonAt s m with haltIds := [], stepId := none, stepLeft := 0, reloadIds := [] } s

/-- A soft reset of page `p` ends its accepted commands with PAGE_RESET (03 R116, 07 R294, 12 R461). -/
def endPageCommands (p : Nat) (s : State) : State :=
  let s := dropTests (· == p) s
  let s := match p with
    | 0x04 => resetPort s
    | 0x0A => cutCiphers (fun j => j.kind != .derived) Cs.pageReset Oc.pageReset s
    | 0x0B => s |> setIdent { s.ident with jobs := [] } |> cutCiphers (fun j => j.kind == .derived) Cs.pageReset Oc.pageReset
    | 0x0C => dropNvl s
    | 0x10 => setFld { s.fld with solves := [], load := none, switchId := none } s
    | 0x12 => setFrx { s.frx with capture := none } s
    | 0x14 => s |> endJobs (fun j => j.page == 0x14) nfcPageReset true |> loseSession
    | 0x15 => endJobs (fun j => j.page == 0x15) nfcPageReset true s
    | 0x16 => { s with card := { s.card with relearn := [] } }
    | 0x18 => bpEndAll 0 Oc.pageReset true s
    | 0x19 => bpEndAll 1 Oc.pageReset true s
    | 0x1A => bpEndAll 2 Oc.pageReset true s
    | 0x1B => bpEndAll 3 Oc.pageReset true s
    | 0x20 => dropCarriers (finishWhere (fun c => c.page == 0x20) Oc.pageReset s)
    | 0x22 => setLink { LinkUnit.reset with activeNow := s.link.activeNow, dup := s.link.dup }
                (finishWhere (fun c => c.page == 0x22) Oc.pageReset s)
    | 0x28 => dropMasonDoors 0 s
    | 0x29 => dropMasonDoors 1 s
    | 0x2A => dropMasonDoors 2 s
    | 0x2B => dropMasonDoors 3 s
    | 0x2C => dropMasonDoors 4 s
    | _ => s
  finishWhere (fun c => c.page == p) Oc.pageReset s

/-! ## The wind-down of a domain -/

/-- The mason of a domain, if it has one (01 R14). -/
def domainMason (d : Nat) : Option (Fin 5) :=
  match d with
  | 4 => some 1
  | 6 => some 2
  | 7 => some 3
  | 9 => some 4
  | _ => none

/-- Every driven port ramps down (05 R240). -/
def fieldFall (s : State) : State :=
  let st := fieldState s
  if st = Fs.rampUp ∨ st = Fs.on ∨ st = Fs.rampDown then setFieldState Fs.rampDown s else setFieldState Fs.off s

/-- The radio and link wind down (10 R422, 11 R455): slots end with DOMAIN_OFF, a capture is discarded, a transmission on
the air ramps down at once. -/
def valveWindDown (s : State) : State :=
  let s := s |> setRadio { s.radio with waiting := [], rx := none } |> setLink { s.link with acks := [], inbox := [], markWait := none }
    |> decoderWithdraw 3
  let s := (List.range 32).foldl (fun t k => slotEnd k 0x24 t) s
  match s.radio.tx with
  | none => setRadioState Ra.off s
  | some t => if t.ramped then txCut 0x24 s else s |> txEnd t 0x24 |> setRadioState Ra.off

/-- Step 1 of the switch-off of domain `d` (15 R573): door commands of its pages end with DOMAIN_OFF, transactions not
frozen abort (04 R184), the subsystem winds down. -/
def windDown (d : Nat) (s : State) : State :=
  let s := { s with power := { s.power with
    req := s.power.req &&& ~~~(BitVec.ofNat 10 (2 ^ d)), draining := s.power.draining ||| BitVec.ofNat 10 (2 ^ d)
    drainAt := s.now } }
  let s := abortOnDomain d s
  let s := dropTests (fun p => pageDomain p == d) s
  let s := match d with
    | 2 => cutCiphers (fun j => j.phase == .waiting) Cs.domainOff Oc.domainOff (setIdent { s.ident with jobs := [] } s)
    | 3 => fieldFall (setFld { s.fld with solves := [], load := none, switchId := none } s)
    | 4 => s |> endJobs (fun _ => true) nfcDomainOff false |> loseSession
             |> captureCut |> fun t => setFrx { t.frx with reply := none } t
    | 5 => bcastWindDown true s
    | 6 => bcastWindDown false (decoderWithdraw 2 s)
    | 8 => setDecoder DecoderUnit.reset s
    | 7 => valveWindDown (finishWhere (fun c => pageDomain c.page == 7) Oc.domainOff s)
    | 9 => twinWindDown s
    | _ => s
  -- running cipher jobs drain (12 R485): their commands keep running
  let drains := fun (c : RunCmd) => c.page == 0x0A && s.cipher.jobs.any (fun j => j.id == c.id)
  let s := finishWhere (fun c => pageDomain c.page == d && !(drains c)) Oc.domainOff s
  match domainMason d with
  | none => s
  | some m => grantPort (setCipher { s.cipher with bound := s.cipher.bound.filter (fun b => b.1 != m.val) } (dropMason m s))

/-- Frozen transactions of domain `d` (04 R184). -/
def appliesOn (d : Nat) (s : State) : Nat :=
  (s.txn.ids.filter (fun x => txnFrozen s x && x.needsDomain d)).length

/-- Transfers in flight that DRAIN_LIMIT aborts: cipher jobs, the field's fall, a transmission's ramp, a DETACH (15 R573). -/
def cuttable (d : Nat) (s : State) : Nat :=
  match d with
  | 2 => s.cipher.jobs.length
  | 3 => bit01 (fieldState s == Fs.rampDown)
  | 7 => bit01 s.radio.tx.isSome
  | 9 => bit01 (!(s.twin.queue.isEmpty))
  | _ => 0

/-- Whether domain `d` holds anything in flight. -/
def inFlight (d : Nat) (s : State) : Bool := 0 < appliesOn d s + cuttable d s

/-- Step 3 of the switch-off: what is still in flight is aborted, and counted. -/
def cutDomain (d : Nat) (s : State) : State :=
  let n := cuttable d s
  let s := match d with
    | 2 => cutCiphers (fun _ => true) Cs.domainOff Oc.domainOff s
    | 3 => setFieldState Fs.off s
    | 9 => setTwin { s.twin with queue := [] } s
    | 7 => (match s.radio.tx with
      | none => s
      | some t => txEnd t 0x24 s)
    | _ => s
  if n = 0 then s else s |> countReg Reg.pwrDrainAborts n |> raiseEvent 0x06 1

/-! ## A domain that has gone off -/

/-- The pages of domain `d` are as at reset (01 R21), their queues restart (02 R68). -/
def wipeDomain (d : Nat) (s : State) : State :=
  let s := (allPages.filter (fun p => pageDomain p == d)).foldl (fun t p => wipePage p t) s
  { s with queues := s.queues.filter (fun q => !(pageDomain (q.1 / 256) == d)) }

/-- What the blocks of domain `d` lose (05 R240, 06 R278, 07 R319, 08 R357, 09 R388, 10 R422, 11 R455, 12 R485). The
coupling survey is mason 1's, so it lasts while PD4 is on (05 R225); a stepped-down device stays so (16 R597). -/
def resetBlocks (d : Nat) (s : State) : State :=
  match d with
  | 2 => s |> setCipher CipherUnit.reset |> setIdent { s.ident with rngOk := false, jobs := [] }
  | 3 =>
    let s := endJobs (fun _ => true) nfcDomainOff true s
    let f : FieldUnit :=
      { FieldUnit.reset with surveyValid := s.fld.surveyValid, reference := s.fld.reference, last := s.fld.last,
                             surveyAt := s.fld.surveyAt }
    s |> loseSession |> setFld f |> plumbOff |> cardRelearn
  | 4 =>
    cardRelearn { s with frx := ReceiveUnit.reset, nfc := NfcUnit.reset, fld := FieldUnit.reset }
  | 5 => frontEndOff s
  | 6 => { s with bcast := BcastUnit.reset }
  | 7 => s |> setRadio RadioUnit.reset |> setLink LinkUnit.reset
  | 8 => wipeBank true (setMem { s.mem with bank1Busy := true } s)
  | 9 => s |> leaveCascade |> setTwin { TwinUnit.reset with steppedDown := s.twin.steppedDown,
                                                            unsynced := s.twin.unsynced }
  | _ => s

/-- Step 4 of the switch-off: the domain is off (15 R573). -/
def domainGone (d : Nat) (s : State) : State :=
  let bit := BitVec.ofNat 10 (2 ^ d)
  let s := s |> resetBlocks d |> wipeDomain d
  let s := { s with power := { s.power with on := s.power.on &&& ~~~bit, draining := s.power.draining &&& ~~~bit } }
  let s := if islandPowered s (domainClass d) then s else setIsland (domainClass d) false s
  raiseEvent 0x06 0 s

end Sys2Proof.Machine
end

