-- ==== Sys2Proof/Machine/Power.lean ====
section
/-!
DEFINITION. Sys2Proof/Machine/Power.lean: the power controller: POWER_ON, POWER_OFF and STOP, one at a time and in order
(15 R571 to R576), up to the points at which a domain becomes ready or the device enters Stop.
-/
namespace Sys2Proof.Machine

/-- Replace the power controller. -/
def setPower (p : Power) (s : State) : State := { s with power := p }

/-! ## Dependencies (01 R15 to R18) -/

/-- The domains a domain requires (01 R15). -/
def requires (d : Nat) : List Nat :=
  match d with
  | 3 => [4]
  | 5 => [6]
  | 6 => [8]
  | 7 => [2, 8]
  | _ => []

/-- The switched domains. -/
def switched : List Nat := [2, 3, 4, 5, 6, 7, 8, 9]

/-- Add to a mask what its domains require, as often as `fuel` says. -/
def closeMask (fuel : Nat) (m : BitVec 10) : BitVec 10 :=
  match fuel with
  | 0 => m
  | k + 1 => closeMask k ((switched.filter (fun d => m.getLsbD d)).foldl (fun n d =>
      (requires d).foldl (fun x r => x ||| BitVec.ofNat 10 (2 ^ r)) n) m)

/-- A mask with everything its domains require, directly or not (01 R16). -/
def required (m : BitVec 10) : BitVec 10 := closeMask 3 m

/-- A domain that stays on requires one of the mask (01 R17). -/
def dependentOn (s : State) (m : BitVec 10) : Bool :=
  switched.any (fun d => s.power.on.getLsbD d && !(m.getLsbD d) && (requires d).any (fun r => m.getLsbD r && s.power.on.getLsbD r))

/-- The next domain of a mask to switch on: what it requires is on (15 R572). -/
def nextOn (s : State) (m : BitVec 10) : Option Nat :=
  switched.find? (fun d => (required m).getLsbD d && !(s.power.on.getLsbD d)
    && (requires d).all (fun r => s.power.on.getLsbD r))

/-- The next domain of a mask to switch off: nothing that is on requires it (15 R573). -/
def nextOff (s : State) (m : BitVec 10) : Option Nat :=
  switched.find? (fun d => m.getLsbD d && s.power.on.getLsbD d
    && switched.all (fun e => !(s.power.on.getLsbD e && (requires e).contains d)))

/-! ## The commands (15 R571 to R575) -/

/-- Switch-on of domain `d` begins: its island clock runs, the plumb line acquires (15 R563), its mason loads (01 R33),
Mortar bank 1 is re-initialised (R30). -/
def startDomain (d : Nat) (s : State) : State :=
  let s := setPower { s.power with starting := s.power.starting ||| BitVec.ofNat 10 (2 ^ d), startedAt := s.now } s
  let s := setIsland (domainClass d) true s
  let s := if d = 3 then plumbOn s else s
  let s := if d = 8 then wipeBank true (setMem { s.mem with bank1Busy := true } s) else s
  match domainMason d with
  | none => s
  | some m => setMason m { MasonUnit.reset with state := .loading } s

/-- Remove the command at the head of the queue, which has ended. -/
def dropPowerJob (s : State) : State := setPower { s.power with jobs := s.power.jobs.tail } s

/-- The next step of STOP: every domain off, HRDY goes low and open transactions end (15 R575 step 3, 04 R185). -/
def stopDrained (s : State) : State := { dropTxns s with phase := .stopEntry 3 }

/-- Advance the command at the head as far as it goes without waiting. A POWER_OFF that names PD2 waits while the identity
is being generated (18 R632). The mask of a STOP is whatever is on. -/
def runPower (fuel : Nat) (s : State) : State :=
  match fuel with
  | 0 => s
  | k + 1 =>
    match s.power.jobs with
    | [] => s
    | j :: _ =>
      if s.power.starting ≠ 0#10 ∨ s.power.draining ≠ 0#10 then s
      else if j.turnOn then
        let s := setPower { s.power with req := s.power.req ||| j.mask } s
        match nextOn s j.mask with
        | some d => startDomain d s
        | none => runPower k (s |> dropPowerJob |> finishCmd j.id Oc.done)
      else
        let mask := if j.mask = 0#10 then s.power.on &&& 0x3FC#10 else j.mask
        if dependentOn s mask then runPower k (s |> dropPowerJob |> finishCmd j.id Oc.dependentOn)
        else match nextOff s mask with
        | some d => if d = 2 ∧ s.bootUnit.idGen then s else windDown d s
        | none =>
          if j.mask = 0#10 then (if s.phase = .stopEntry 1 then stopDrained s else s)
          else
            let s := setPower { s.power with req := s.power.req &&& ~~~j.mask } s
            runPower k (s |> dropPowerJob |> finishCmd j.id Oc.done)

/-- Advance the power commands. -/
def powerFollow (s : State) : State := runPower (s.power.jobs.length + 1) s

/-- A command joins the queue. -/
def addPowerJob (j : PowerJob) (s : State) : State :=
  powerFollow (setPower { s.power with jobs := s.power.jobs ++ [j] } s)

/-- PWR commands are refused in Recovery (18 R631, R634). -/
def inRecovery (s : State) : Bool := s.boot == .recovery

/-- ARG of POWER_ON and POWER_OFF: bits 2 to 9 name domains, at least one (15 R571). -/
def domainArgBad (arg : Nat) : Bool := arg % 4 != 0 || 1024 ≤ arg || arg == 0

/-- PWR door command POWER_ON. -/
def doorPowerOn (req : Requester) (word : Word) (s : State) : State :=
  let arg := bitsOf word 15 0
  doorWrite req 0x06 word (firstRefusal [(inRecovery s, 0x43), (domainArgBad arg, Oc.badArg)]) none
    (fun id _ t => addPowerJob { id := id, turnOn := true, mask := BitVec.ofNat 10 arg } t) s

/-- POWER_ON. -/
def execPowerOn (req : Requester) (tag : Byte) (arg : BitVec 16) (s : State) : Out :=
  .next (doorIssue 0x06 doorPowerOn req (doorWord tag 0x10 arg) s)

/-- PWR door command POWER_OFF: transactions that depend on the domains abort as it is accepted (04 R184). -/
def doorPowerOff (req : Requester) (word : Word) (s : State) : State :=
  let arg := bitsOf word 15 0
  let mask := BitVec.ofNat 10 arg
  doorWrite req 0x06 word
    (firstRefusal [(inRecovery s, 0x43), (domainArgBad arg, Oc.badArg), (dependentOn s mask, Oc.dependentOn)]) none
    (fun id _ t =>
      let t := (switched.filter (fun d => mask.getLsbD d && t.power.on.getLsbD d)).foldl (fun u d => abortOnDomain d u) t
      addPowerJob { id := id, turnOn := false, mask := mask } t) s

/-- POWER_OFF. -/
def execPowerOff (req : Requester) (tag : Byte) (arg : BitVec 16) (s : State) : Out :=
  .next (doorIssue 0x06 doorPowerOff req (doorWord tag 0x11 arg) s)

/-- Door commands in progress on every page but PWR end with DOMAIN_OFF as Stop entry begins (15 R575 step 1); the blocks
whose domains stay on give their commands up. -/
def stopCommands (s : State) : State :=
  let s := { finishWhere (fun c => c.page != 0x06) Oc.domainOff s with
    bootUnit := { s.bootUnit with startDoneIds := [] }
    card := { s.card with relearn := [] } }
  let s := s |> dropNvl |> dropTests (fun _ => true)
  let s := cutCiphers (fun j => j.phase == .waiting) Cs.domainOff Oc.domainOff s
  let s := s |> endJobs (fun _ => true) nfcDomainOff true |> bcastWindDown true |> dropCarriers
  let s := s |> setFld { s.fld with solves := [], load := none, switchId := none } |> setIdent { s.ident with jobs := [] }
             |> setFrx { s.frx with capture := none } |> (fun t => grantPort (setPort { t.port with flash := none } t))
  (List.range 32).foldl (fun t k => slotEnd k 0x24 t) (masonsAll.foldl (fun t m => dropMasonDoors m t) s)

/-- PWR door command STOP: while the device runs, Stop entry begins (15 R575). -/
def doorStop (req : Requester) (word : Word) (s : State) : State :=
  doorWrite req 0x06 word
    (firstRefusal [(regBits s Reg.pwrWakeEn 3 0 == 0, 0x41), (!(s.rtc.lfOk), 0x42), (inRecovery s, 0x43),
      (bitsOf word 15 0 != 0, Oc.badArg)]) none
    (fun id _ t =>
      let first := t.power.stopIds.isEmpty
      let t := setPower { t.power with stopIds := t.power.stopIds ++ [id], stopNow := if first then t.now else t.power.stopNow } t
      if first then { stopCommands t with phase := .stopEntry 1 } |> addPowerJob { id := id, turnOn := false, mask := 0#10 }
      else t) s

/-- STOP. -/
def execStop (req : Requester) (tag : Byte) (arg : BitVec 16) (s : State) : Out :=
  .next (doorIssue 0x06 doorStop req (doorWord tag 0x20 arg) s)

/-! ## The end of a drain (15 R573) -/

/-- The domain being switched off. -/
def drainingDomain (s : State) : Option Nat := switched.find? (fun d => draining s d)

/-- DRAIN_END: the domain being switched off holds nothing in flight any more, and goes off. -/
def execDrainEnd (s : State) : Out :=
  .next (match drainingDomain s with
    | none => s
    | some d => if !(live s) || inFlight d s then s else s |> domainGone d |> powerFollow)

/-- DRAIN_LIMIT: that long after the switch-off began, transfers still in flight are aborted with DOMAIN_OFF and counted; an apply window completes. -/
def execDrainLimit (s : State) : Out :=
  .next (match drainingDomain s with
    | none => s
    | some d => if live s && passedUs s s.power.drainAt (regBits s Reg.pwrDrainLimit 9 0) then cutDomain d s else s)

end Sys2Proof.Machine
end

