-- ==== Sys2Proof/Machine/Registers.lean ====
section
/-!
DEFINITION. Sys2Proof/Machine/Registers.lean: what a register reads as (00 R11, R12; 03 R104 to R130): stored registers,
registers that show the present state of a block, snapshots, and the side effects of reading.
-/
namespace Sys2Proof.Machine

/-! ## Header registers (03 R112, R113, R128, R130, R138) -/

/-- PAGE_ID. -/
def pageIdWord (p : Nat) : Word :=
  match pageRow p with
  | none => 0#32
  | some r => fieldWord 31 24 r.cls ||| fieldWord 23 16 p ||| fieldWord 15 0 (r.last + 1)

/-- SNAP_CTRL of a requester set. -/
def snapCtlWord (s : State) (p set : Nat) : Word :=
  let c := snapCtlAt s p set
  fieldWord 23 16 (c.seq % 256) ||| fieldWord 7 0 c.group

/-- DOOR_STATUS of a requester set. -/
def doorStatusWord (s : State) (p set : Nat) : Word :=
  let v := viewAt s p set
  fieldWord 31 24 v.tag ||| fieldWord 23 16 v.cmd ||| fieldWord 15 15 (bit01 v.dup) ||| fieldWord 14 8 v.outcome
    ||| fieldWord 7 0 v.ticket

/-- A header register: shown state, or what is stored. -/
def headerWord (s : State) (set p off : Nat) : Word :=
  match off with
  | 0x0 => pageIdWord p
  | 0x1 => 0x100#32
  | 0x3 => pageStatusWord s p
  | 0x7 => eventLive s p
  | 0xB => snapCtlWord s p set
  | 0xC => txnOwnerWord s p
  | 0xD => 0#32
  | 0xE => doorStatusWord s p set
  | _ => getReg s (pageReg p off)

/-! ## Registers that show a block's state -/

/-- Q_STATUS of the queue at a POP register (07 R317). -/
def queueWord (s : State) (pop : Nat) : Word :=
  fieldWord 31 16 (queueAt s pop).high ||| fieldWord 15 0 (queueCount s pop)

/-- INV.JOBS (07 R289). -/
def invJobsWord (s : State) : Word :=
  fieldWord 20 16 (nfcFree s) ||| fieldWord 15 0 ((s.nfc.run.map (fun r => r.job.ticket)).getD 0)

/-- AUD.STATUS (08 R352 to R354): FADING and DELAY are stored. -/
def audStatusWord (s : State) : Word :=
  let en := regBit s Reg.audCtrl 31
  (getReg s Reg.audStatus &&& 0x04000000#32) ||| fieldWord 14 0 (audDelay s (getReg s Reg.audAlign))
    ||| levelBits [(31, en && domainOn s 9), (30, sourceOk s), (27, en && !(domainOn s 9))]
    ||| fieldWord 29 28 ((slotPath s (audSlot s)).getD 0)

/-- TXN.POOL and TXN.OPEN_MAP (04 R190). -/
def txnPoolWord (s : State) : Word := fieldWord 26 16 (1024 - poolEntries s) ||| fieldWord 14 0 (16384 - poolWords s)
def txnOpenWord (s : State) : Word :=
  levelBits ((List.range 8).map (fun t => (t, (txnAt s t).phase != .free)))

/-- Registers of the Keystone island that show state. -/
def keystoneWord (s : State) (i : Nat) : Option Word :=
  if i = Reg.devStatus then some (devStatusWord s)
  else if i = Reg.devFwVersion then some (Config.firmwareVersion s.bootUnit.fwIndex)
  else if Reg.irqPend ≤ i ∧ i < Reg.irqPend + 6 then
    some (irqPend s (irqTarget ((i - Reg.irqPend) / 2)) (32 * ((i - Reg.irqPend) % 2)))
  else if Reg.irqVec ≤ i ∧ i < Reg.irqVec + 3 then some (irqVec s (irqTarget (i - Reg.irqVec)))
  else if i = Reg.txnPool then some (txnPoolWord s)
  else if i = Reg.txnOpenMap then some (txnOpenWord s)
  else if Reg.txnState ≤ i ∧ i < Reg.txnState + 8 then some (txnStateWord (txnAt s (i - Reg.txnState)))
  else if Reg.txnUse ≤ i ∧ i < Reg.txnUse + 8 then some (txnUseWord (txnAt s (i - Reg.txnUse)))
  else if i = Reg.mptFlashStatus then some (withBits (getReg s i) 31 31 (bit01 s.port.flash.isSome))
  else if i = Reg.clkXtal then some (xtalWord s)
  else if i = Reg.clkPlumbStatus then some (plumbWord s)
  else if i = Reg.clkRtcSec then some (BitVec.ofNat 32 (rtcCount s / 32768))
  else if i = Reg.clkRtcSub then some (BitVec.ofNat 32 (rtcCount s % 32768))
  else if i = Reg.clkRtcCtrl then some (withBits (getReg s i) 30 30 (bit01 s.rtc.valid))
  else if i = Reg.clkRtcTrim then some (intWord s.rtc.trim)
  else if i = Reg.clkSlew then some (intWord (slewLeft s))
  else if i = Reg.clkMono then some (BitVec.ofNat 32 (mono s))
  else if i = Reg.pwrDomains then some (domainsWord s)
  else if i = Reg.tmaGlobalStart ∨ i = Reg.tmaGlobalStop then some (timerEnMask s)
  else if i = Reg.chkClaim then some (fieldWord 3 3 (bit01 (chkClaimed s 3)))
  else if i = Reg.chkOpenOk then some (fieldWord 0 0 (bit01 (openAllowed s)))
  else if i = Reg.nvlFuseStatus then some (fieldWord 3 0 s.ident.locks.toNat)
  else if i = Reg.itgScrub then some (scrubWord s)
  else if i = Reg.itgFaultMap0 then some (faultMap s false)
  else if i = Reg.itgFaultMap1 then some (faultMap s true)
  else if i = Reg.regStatus then some (regStatusWord s)
  else if Reg.regSubUsed ≤ i ∧ i < Reg.regSubUsed + 8 then some (BitVec.ofNat 32 (usedUs s (i - Reg.regSubUsed)))
  else none

/-- Registers of the other islands that show state. -/
def islandWord (s : State) (i : Nat) : Option Word :=
  if i = Reg.cphJobs then some (cphJobsWord s)
  else if i = Reg.cphHistory then some (historyWord s)
  else if i = Reg.cphNodes then some (BitVec.ofNat 32 (nodesCount s))
  else if Reg.cphSlot ≤ i ∧ i < Reg.cphSlot + 32 then some (slotWord s (i - Reg.cphSlot))
  else if Reg.cphSlotCtr ≤ i ∧ i < Reg.cphSlotCtr + 32 then some (slotCtrWord s (i - Reg.cphSlotCtr))
  else if i = Reg.twnBacklog then some (BitVec.ofNat 32 (backlogUnits s))
  else if i = Reg.twnConfirmLeft then some (BitVec.ofNat 32 (confirmLeft s))
  else if i = Reg.fldSurveyStatus then some (withBits (getReg s i) 15 8 (surveyAge s))
  else if i = Reg.fldCycle then some (BitVec.ofNat 32 (fldCycle s))
  else if Reg.frxChainStatus ≤ i ∧ i < Reg.frxChainStatus + 8 then
    let p := i - Reg.frxChainStatus
    some (withBits (withBits (getReg s i) 7 0 (trimAge s p)) 31 31 (bit01 (chainUsed s p)))
  else if i = Reg.invJobs then some (invJobsWord s)
  else if i = Reg.bdaUsec then some (bdaUsec s)
  else if i = Reg.bdaLoad then some (BitVec.ofNat 32 (loadOf s))
  else if i = Reg.bdaJobs then some (fieldWord 20 16 (bcastFree s))
  else if i = Reg.ccdOpen then
    some (fieldWord 13 8 (capAt 64 s.bcast.closed.length) ||| fieldWord 5 0 (capAt 32 s.bcast.votes.length))
  else if Reg.ccdTimeNow0 ≤ i ∧ i ≤ Reg.ccdTimeNow3 then some (timeNow s (i - Reg.ccdTimeNow0))
  else if i = Reg.audStatus then some (audStatusWord s)
  else if i = Reg.vlrUsec then some (BitVec.ofNat 32 (vlrUs s))
  else if i = Reg.vlqFree then some (BitVec.ofNat 32 (freeSlots s))
  else if Reg.vlqSlotStatus ≤ i ∧ i < Reg.vlqSlotStatus + 32 then some (slotStatusWord (outAt s (i - Reg.vlqSlotStatus)))
  else if i = Reg.coxStatus then some (coxStatusWord s)
  else none

/-- The MS page of a mason. -/
def msPage (p : Nat) : Option (Fin 5) :=
  if 0x28 ≤ p ∧ p ≤ 0x2C then some (Fin.ofNat 5 (p - 0x28)) else none

/-- The present value of a page-specific register, as a requester of `set` sees it; RS registers without the snapshot. -/
def pageWord (s : State) (set i : Nat) : Word :=
  match resultView s i with
  | some w => w
  | none =>
  if queueCap i ≠ 0 then 0#32
  else if queueCap (i - 1) ≠ 0 then queueWord s (i - 1)
  else match timerOf i with
  | some (n, off) => (timerWord s set n off).getD (getReg s i)
  | none =>
  match chkOf i with
  | some (u, off) => (chkWord s u off).getD (getReg s i)
  | none =>
  match msPage (i / 256) with
  | some m => (masonWord s m (i % 256)).getD (getReg s i)
  | none =>
  match idnWord s i with
  | some w => if i / 256 = 0x0B then w else getReg s i
  | none => ((keystoneWord s i).or (islandWord s i)).getD (getReg s i)

/-! ## Reading (03 R105, R106, R127 to R129) -/

/-- Whether every field of a row is of type RS. -/
def RegRow.snap (r : RegRow) : Bool := !r.fields.isEmpty && r.fields.all (fun f => f.acc == .rs)

/-- Bits of a row's fields. -/
def RegRow.bits (r : RegRow) : Word := r.fields.foldl (fun w f => w ||| maskOf f.msb f.lsb) 0#32

/-- What a read of an implemented register of a powered page returns (00 R12, 03 R105, R129). -/
def readWord (s : State) (set i : Nat) : Word :=
  match rowAt i with
  | none => 0#32
  | some (r, _) =>
    if i % 256 < 16 then headerWord s set (i / 256) (i % 256)
    else if r.snap then keyGet s.snaps (snapKey set i) 0#32 &&& r.bits
    else pageWord s set i &&& r.bits

/-- Side effects of a read: the other half of a linked timer is captured (14 R532), data windows of an MS page advance
(13 R522). -/
def readEffect (req : Requester) (i : Nat) (s : State) : State :=
  match timerOf i with
  | some (n, off) => captureHalf (Requester.set req) n off s
  | none =>
    match msPage (i / 256) with
    | some m => if (rowAt i).isSome then advanceData m (i % 256) s else s
    | none => s

/-- Whether a read of a register meets the debug lock (12 R483, 13 R522): on an MS page, beyond the shadowed
offsets. -/
def debugHides (s : State) (i : Nat) : Bool := (msPage (i / 256)).isSome && debugLocked s && 4 ≤ i % 256

/-- Whether a write meets the debug lock (12 R483): any register of an MS page. -/
def debugBars (s : State) (i : Nat) : Bool := (msPage (i / 256)).isSome && debugLocked s

/-- Whether a register is one of the shadowed header registers (01 R20). -/
def shadowed (i : Nat) : Bool := i % 256 == 0 || i % 256 == 1 || i % 256 == 3

/-- A read of a register that waits: its domain is powered and not ready (15 R572); the shadowed registers answer. -/
def readWaits (s : State) (i : Nat) : Bool := !(shadowed i) && waitsReady s (pageDomain (i / 256))

/-- A register read by a mason or the lintel link: the value, zero where there is none (01 R21, 03 R106, 13 R494), and
nothing yet where it waits, for the page or for the requester's earlier writes to the island (01 R25). -/
def readRegister (req : Requester) (i : Nat) (s : State) : State × Word :=
  let p := i / 256
  if !(inDirectory p) then (s, 0#32)
  else if readWaits s i || crossingWaits s req i then (s, 0#32)
  else if !(shadowed i) && !(pageUp s p) then (domainOffAccess req s, 0#32)
  else if debugHides s i then (s, 0#32)
  else (readEffect req i s, readWord s (Requester.set req) i)

end Sys2Proof.Machine
end

