-- ==== Sys2Proof/Machine/Access.lean ====
section
/-!
DEFINITION. Sys2Proof/Machine/Access.lean: a write to a register (00 R11 to R13; 03 R104 to R146): how it is judged, what
it does, soft resets, snapshots, result releases, and the doors by page and command code. TXN's ABORT stands here.
-/
namespace Sys2Proof.Machine

/-! ## TXN's door (04 R191) -/

/-- TXN door command ABORT: a DOOMED transaction ends with its first code. The host may abort any transaction; to another
requester one it did not open is not open (R151; notes/assumptions/50.md). -/
def doorAbort (req : Requester) (word : Word) (s : State) : State :=
  let t := bitsOf word 2 0
  let x := txnAt s t
  doorWrite req 0x02 word
    (firstRefusal [(bitsOf word 15 3 != 0, Oc.badArg), (x.phase == .free || (req != .host && x.requester != req), 0x40),
      (txnFrozen s x, 0x41)]) none
    (fun id _ u => u |> abortTxn t Ab.hostAbort |> finishCmd id Oc.done) s

/-- ABORT. -/
def execAbort (req : Requester) (tag : Byte) (arg : BitVec 16) (s : State) : Out :=
  .next (doorIssue 0x02 doorAbort req (doorWord tag 0x01 arg) s)

/-! ## Doors by page and code (03 R131) -/

/-- A door: what a requester's door word does. -/
abbrev DoorFn := Requester → Word → State → State

/-- The command code `c` of a list of doors. -/
def doorIn (l : List (Nat × DoorFn)) (c : Nat) : Option DoorFn := (l.find? (fun d => d.1 == c)).map (·.2)

/-- The doors of the Keystone, Security and Link pages, without 0xF0 and 0xF1. -/
def doorsKeystone (p : Nat) : List (Nat × DoorFn) :=
  match p with
  | 0x00 => [(0x10, doorStartDone), (0x11, doorReset)]
  | 0x02 => [(0x01, doorAbort)]
  | 0x04 => [(0x10, doorFlashFrame), (0x11, doorFlashPoll)]
  | 0x05 => [(0x10, doorSetTime)]
  | 0x06 => [(0x10, doorPowerOn), (0x11, doorPowerOff), (0x20, doorStop)]
  | 0x0A => [(0x10, doorCipher), (0x11, doorKeyLoad), (0x12, doorKeyClear), (0x20, doorNodePut), (0x21, doorNodeClear)]
  | 0x0B => [(0x10, doorSign), (0x11, doorVerify), (0x12, doorEcdh), (0x13, doorRandom), (0x14, doorCertCopy)]
  | 0x0C => [(0x10, doorMramWrite), (0x11, doorMramRead), (0x30, doorBlow)]
  | 0x0D => [(0x10, doorInject), (0x11, doorZero), (0x12, doorDropBad)]
  | 0x0E => [(0x10, doorConfirm), (0x11, doorUnpair), (0x12, doorResumeSolo), (0x20, doorEndorse)]
  | _ => []

/-- The doors of the other pages, without 0xF0 and 0xF1. -/
def doorsIsland (p : Nat) : List (Nat × DoorFn) :=
  match p with
  | 0x10 => [(0x10, doorSolve), (0x20, doorCascLoad), (0x21, doorCascSwitch)]
  | 0x12 => [(0x10, doorCapture)]
  | 0x14 => [(0x10, doorExchange)]
  | 0x15 => [(0x10, doorInventory), (0x11, doorCancel)]
  | 0x16 => [(0x10, doorRelearn)]
  | 0x1C => [(0x10, doorSelect)]
  | 0x20 => [(0x10, doorCarrierTest)]
  | 0x22 => [(0x10, doorSend), (0x11, doorSendCancel)]
  | _ =>
    match pagePath p with
    | some q => [(0x10, doorScan q.val), (0x11, doorCheck q.val)]
    | none => match pageMason p with
      | some m => [(0x10, doorHalt m), (0x11, doorResume m), (0x12, doorStep m), (0x13, doorReload m)]
      | none => []

/-- The door of page `p` with command code `c`; none for a reserved code (03 R131, R139). -/
def doorOf (p c : Nat) : Option DoorFn :=
  if c = 0xF0 ∨ c = 0xF1 then (if offersTest p c then some (doorTest c p) else none)
  else (doorIn (doorsKeystone p) c).or (doorIn (doorsIsland p) c)

/-! ## Fields -/

/-- Whether a field can be written at all. -/
def Acc.writable (a : Acc) : Bool :=
  match a with
  | .ro => false
  | .rs => false
  | _ => true

/-- Whether a row has a writable field (00 R11). -/
def RegRow.writable (r : RegRow) : Bool := r.fields.any (fun f => f.acc.writable)

/-- Whether the value is a reserved encoding of the field (00 R13). -/
def FieldRow.reserved (f : FieldRow) (v : Nat) : Bool :=
  (!f.allowed.isEmpty && !(f.allowed.any (fun a => a.1 ≤ v && v ≤ a.2))) || v % f.mult != 0

/-- The word a field leaves of the old word and the word written (00 R11). -/
def FieldRow.merge (f : FieldRow) (old w : Word) : Word :=
  let m := maskOf f.msb f.lsb
  match f.acc with
  | .ro => old &&& m
  | .rs => old &&& m
  | .w1c => old &&& ~~~w &&& m
  | .w1s => (old ||| w) &&& m
  | _ => w &&& m

/-- The word a register holds after word `w` is written over `old`. -/
def RegRow.merge (r : RegRow) (old w : Word) : Word := r.fields.foldl (fun x f => x ||| f.merge old w) 0#32

/-! ## Judging a write (03 R105, R106, R126) -/

/-- The row of register `i` in force: none for a reserved register, timer registers that behave as such among them (14
R533). -/
def rowNow (s : State) (i : Nat) : Option RegRow :=
  match timerOf i with
  | some (n, off) => if timerReserved s n off then none else (rowAt i).map (·.1)
  | none => (rowAt i).map (·.1)

/-- Bits of EVENT and EVENT_EN that a page's chapter defines (03 R118). -/
def eventBits (p : Nat) : Word :=
  (match p with
  | 0x00 => 1#32 | 0x02 => 0x1FF#32 | 0x05 => 0x1F#32 | 0x06 => 0x1F#32 | 0x07 => 0xFFFFFF#32 | 0x08 => 0xFFFFFF#32
  | 0x09 => 0x1F#32 | 0x0A => 0x107#32 | 0x0B => 1#32 | 0x0D => 7#32 | 0x0E => 0x7F#32 | 0x0F => 0xF#32
  | 0x10 => 0x3FF#32 | 0x12 => 1#32 | 0x13 => 7#32 | 0x14 => 3#32 | 0x15 => 0x103#32 | 0x16 => 3#32
  | 0x18 => 0x3F#32 | 0x19 => 0x3F#32 | 0x1A => 0x3F#32 | 0x1B => 0x3F#32 | 0x1C => 0x10F#32 | 0x1D => 0x1F#32
  | 0x1E => 3#32 | 0x20 => 0xF#32 | 0x21 => 3#32 | 0x22 => 0x107#32 | 0x23 => 1#32 | 0x24 => 3#32
  | 0x28 => 7#32 | 0x29 => 7#32 | 0x2A => 7#32 | 0x2B => 7#32 | 0x2C => 7#32 | 0x30 => 0xFFF#32
  | _ => 0#32) ||| 0xE0000000#32

/-- Whether a snapshot group is defined on a page (03 R128). -/
def groupDefined (p g : Nat) : Bool :=
  g == 0xFF || (g != 0 && (pageRows p).any (fun r => r.fields.any (fun f => f.acc == .rs && f.group == g)))

/-- Whether a clock setting M, D of a port is reserved (02 R84): more than 133 MHz. -/
def portClockBad (w : Word) : Bool := 133000 * bitsOf w 3 0 < 27120 * bitsOf w 13 8

/-- Whether a TUNE or CHECK_TUNE value is no combination of 08 R320. -/
def tuneBad (w : Word) : Bool :=
  let input := bitsOf w 25 24
  let f := bitsOf w 21 0
  let lw := 400 ≤ f && f ≤ 2880
  match bitsOf w 31 28 with
  | 0 => bitAt w 23
  | 1 => bitAt w 23 || input != 0 || !(lw || (5220 ≤ f && f ≤ 17100))
  | 2 => bitAt w 23 || input != 1 || !(640000 ≤ f && f ≤ 1080000)
  | 3 => input < 2 || !(1740000 ≤ f && f ≤ 2400000)
  | 4 => bitAt w 23 || input != 0 || !lw
  | _ => true

/-- Reserved combinations within one register, and against another one, on the Keystone and Link pages (00 R13). -/
def reservedKeystone (s : State) (i : Nat) (w v : Word) : Bool :=
  if i = Reg.mptXipCtrl ∨ i = Reg.twnPortCtrl ∨ i = Reg.cscPortCtrl then portClockBad v
  else if i = Reg.clkPlumb then bitAt v 8 && bitsOf v 1 0 == 2
  else if i = Reg.clkRtcSetSub then 0x8000 ≤ w.toNat
  else if Reg.gioFunc ≤ i ∧ i < Reg.gioFunc + 12 then !(gioFuncOk s (i - Reg.gioFunc) (bitsOf v 3 0))
  else if Reg.regSubLo ≤ i ∧ i < Reg.regSubLo + 24 then
    let k := (i - Reg.regSubLo) / 3 * 3
    if (i - Reg.regSubLo) % 3 = 0 then bitAt v 31 && regBits s (Reg.regSubHi + k) 23 0 ≤ bitsOf v 23 0
    else if (i - Reg.regSubLo) % 3 = 1 then
      regBit s (Reg.regSubLo + k) 31 && bitsOf v 23 0 ≤ regBits s (Reg.regSubLo + k) 23 0
    else false
  else match timerOf i with
  | some (n, off) => off == 0 && n % 2 == 1 && bitAt w 29
  | none => false

/-- Reserved combinations on the Field, Broadcast and Valve pages (00 R13). -/
def reservedIsland (s : State) (i : Nat) (v : Word) : Bool :=
  if i = Reg.fldCascImage then 0x0FF000 < bitsOf v 20 0 + 2496
  else if i = Reg.frxCapBase then !(0x0F0000 ≤ bitsOf v 20 0 && bitsOf v 20 0 ≤ 0x0FDFF8)
  else if i = Reg.bdaSelArg then !(bitAt v 30) && (11 < bitsOf v 21 10 || bitsOf v 9 0 != 0)
  else if Reg.ccdMapA ≤ i ∧ i < Reg.ccdMapA + 16 ∧ (i - Reg.ccdMapA) % 2 = 0 then bitAt v 25 && bitsOf v 27 26 != 2
  else if i = Reg.vlmMod then bitsOf v 7 4 == 0 && bitAt v 0
  else if i = Reg.vlmPreamble then bitsOf v 8 0 % 8 != 0
  else if i = Reg.vlqCtrl then bitAt v 31 && (bitsOf v 15 0 == 0 || bitsOf v 15 0 == 0xFFFF)
  else if (pagePath (i / 256)).isSome then
    let off := i % 256
    if off = Reg.bpTune ∨ off = Reg.bpCheckTune then tuneBad v
    else if off = Reg.bpPskCfg then bitAt v 31 && regBits s (i / 256 * 256 + Reg.bpTune) 31 28 != 1
    else false
  else false

/-- Whether a write places a reserved encoding in any field (00 R13, 03 R128, R131). -/
def reservedWrite (s : State) (i : Nat) (r : RegRow) (w : Word) : Bool :=
  let v := r.merge (getReg s i) w
  if i % 256 = 0xD then (doorOf (i / 256) (bitsOf w 23 16)).isNone
  else if i % 256 = 0xB then !(groupDefined (i / 256) (bitsOf w 7 0))
  else r.fields.any (fun f => f.acc.writable && f.reserved (bitsOf w f.msb f.lsb))
    || reservedKeystone s i w v || reservedIsland s i v

/-- Whether a write is refused with LOCKED: RWL fields whose lock is set, and the fields that behave so (03 R126; 05 R234,
08 R323, 11 R445, 12 R484, 13 R522, 14 R531, R546, R549). The header registers of a member's PAT stay writable
(notes/assumptions/55.md). -/
def lockedWrite (req : Requester) (s : State) (i : Nat) (r : RegRow) (w : Word) : Bool :=
  let p := i / 256
  let off := i % 256
  if off < 16 then false
  else if r.fields.any (fun f => f.acc == .rwl) && regBit s (pageReg p 2) 31 then true
  else match timerOf i with
  | some (n, o) => timerWriteLocked s n o w
  | none =>
  match chkOf i with
  | some (u, o) => chkWriteLocked s u o w
  | none =>
  match msPage p with
  | some m => masonLocked s m off
  | none =>
    if p = 0x23 then r.fields.any (fun f => f.acc == .rwl) && !(regionOpen s)
    else if p = 0x0C then r.fields.any (fun f => f.acc == .rwl) && !(oemOpen s)
    else if i = Reg.fldPatsel then arrayMode s != 0 && arrayMode s != 3
    else if p = 0x11 then arrayMode s == 2 && req != .mason 1
    else match pagePath p with
    | some q => off == Reg.bpTune && bpRole s q.val == 2 && req != .mason 2
    | none => false

/-- Whether RESULT_RELEASE is written with a ticket that is not shown (03 R144). -/
def staleRelease (s : State) (i : Nat) (w : Word) : Bool :=
  match resultBlock (i / 256) with
  | none => false
  | some (_, _, rel) => i == rel && (match resultsOf s (i / 256) with
    | [] => true
    | r :: _ => w.toNat != r.ticket)

/-- The refusal a write of `w` to register `i` of a page that is on meets, as its WRITE_REJECT reason (03 R126), in this
order: UNIMPLEMENTED, READ_ONLY, LOCKED, RESERVED_ENCODING, STALE_TICKET (notes/assumptions/22.md). -/
def writeRefusal (req : Requester) (s : State) (i : Nat) (w : Word) : Option Nat :=
  match pageRow (i / 256) with
  | none => none
  | some pr =>
    if pr.last < i % 256 then some 4
    else match rowNow s i with
    | none => none
    | some r =>
      if !r.writable then some 1
      else if lockedWrite req s i r w then some 3
      else if reservedWrite s i r w then some 2
      else if staleRelease s i w then some 7
      else none

/-! ## What an accepted write brings about -/

/-- What follows a change of a Keystone, Security or Link register, given the word it replaced. -/
def writtenKeystone (i : Nat) (old : Word) (s : State) : State :=
  if i = Reg.clkPlumb then plumbWritten s
  else if i = Reg.clkAlarmSec ∨ i = Reg.clkAlarmSub ∨ i = Reg.clkRtcCtrl then alarmWritten s
  else if i = Reg.mptXipCtrl then
    (if regBit s i 31 && !(bitAt old 31) then setPort { s.port with commandDue := true } s else s)
  else if i = Reg.twnCtrl then twnCtrlWritten old s
  else if i = Reg.cscCtrl then cscCtrlWritten old s
  else if i = Reg.cscPortCtrl then cascCheck false s
  else match timerOf i with
  | some (n, off) => timerWritten n off old s
  | none => match chkOf i with
    | some (u, off) => if off = 0 then chkCfgWritten u old s else s
    | none => s

/-- What follows a change of a Field, Broadcast or Valve register. -/
def writtenIsland (req : Requester) (i : Nat) (old : Word) (s : State) : State :=
  let p := i / 256
  if i = Reg.fldField then fieldFollow s
  else if i = Reg.fldPatsel then patselWritten s
  else if Reg.fldPortCfg ≤ i ∧ i < Reg.fldPortCfg + 8 then portCfgWritten (i - Reg.fldPortCfg) s
  else if p = 0x11 then patWritten (i % 256) s
  else if Reg.frxChainCfg ≤ i ∧ i < Reg.frxChainCfg + 8 then chainCfgWritten (i - Reg.frxChainCfg) s
  else if i = Reg.lpdRunCtrl then
    (if regBit s i 31 && !(bitAt old 31) then cardRelearn s else s)
  else if i = Reg.ccdCtrl then ccdCtrlWritten s
  else if Reg.ccdStream ≤ i ∧ i < Reg.ccdStream + 8 then streamWritten (i - Reg.ccdStream) s
  else if Reg.ccdMapA ≤ i ∧ i < Reg.ccdMapA + 16 then
    let now := regBits s (Reg.ccdMapA + (i - Reg.ccdMapA) / 2 * 2) 30 28
    let s := streamWritten now s
    if (i - Reg.ccdMapA) % 2 = 0 then streamWritten (bitsOf old 30 28) s else s
  else if i = Reg.audCtrl then audCtrlWritten old s
  else if i = Reg.audAlign then audAlignWritten old s
  else if (0x2010 ≤ i ∧ i ≤ 0x2015) ∨ (0x2110 ≤ i ∧ i ≤ 0x2116) then radioWritten i old s
  else if i = Reg.vlqCtrl then vlqCtrlWritten old s
  else if i = Reg.coxCtrl then txTryRamp s
  else match pagePath p with
  | some q => if i % 256 = Reg.bpTune then tuneWritten req q.val old s else s
  | none => s

/-- What follows a change of register `i`. -/
def written (req : Requester) (i : Nat) (old : Word) (s : State) : State :=
  if i % 256 < 16 then s
  else if i / 256 < 0x10 then writtenKeystone i old s else writtenIsland req i old s

/-- Whether register `i` is a path's ROLE (08 R339). -/
def isRole (i : Nat) : Bool := (pagePath (i / 256)).isSome && i % 256 == Reg.bpRole

/-- A write of a page-specific register that is stored, or whose home is a block. -/
def storeWrite (req : Requester) (i : Nat) (r : RegRow) (w : Word) (s : State) : State :=
  let off := i % 256
  let old := getReg s i
  let plain := fun (t : State) => written req i old (setReg i (r.merge old w) t)
  if i = Reg.tmaGlobalStart then globalTimers true w s
  else if i = Reg.tmaGlobalStop then globalTimers false w s
  else if i = Reg.clkXtal then (if bitAt w 29 then { s with rtc := { s.rtc with lost := false } } else s)
  else if i = Reg.vlqDoneMap then doneMapWritten w s
  else match msPage (i / 256) with
  | some m => if (masonWord s m off).isSome then writeMason m off w s else plain s
  | none => plain s

/-! ## Soft resets (03 R116) -/

/-- Registers with fields that show the present state of a block that a soft reset of the page leaves as it is. -/
def showsState (i : Nat) : Bool :=
  [(0x0D11, 0x0D12), (0x0E13, 0x0E15), (0x0F13, 0x0F13), (0x0F18, 0x0F20), (0x1012, 0x1012), (0x1016, 0x1016),
   (0x1018, 0x101A), (0x1028, 0x102F), (0x1228, 0x122F), (0x1314, 0x1314), (0x1618, 0x161F), (0x1819, 0x1819),
   (0x181E, 0x181E), (0x1919, 0x1919), (0x191E, 0x191E), (0x1A19, 0x1A19), (0x1A1E, 0x1A1E), (0x1B19, 0x1B19),
   (0x1B1E, 0x1B1E), (0x1E11, 0x1E11), (0x2016, 0x2017), (0x301C, 0x301C)].any (fun r => r.1 ≤ i && i ≤ r.2)

/-- Whether a register keeps its value over a soft reset of its page: it has an RWL field and the page's LOCK is set, or it
behaves as one (05 R234: FLD.PATSEL in a cascade, PAT on a member; 08 R323: TUNE of a SCAN path). -/
def keptLocked (req : Requester) (s : State) (i : Nat) : Bool :=
  (i == Reg.fldPatsel && arrayMode s != 0 && arrayMode s != 3) || (i / 256 == 0x11 && arrayMode s == 2)
    || (match pagePath (i / 256) with
      | some q => i % 256 == Reg.bpTune && bpRole s q.val == 2 && req != .mason 2
      | none => false)
    || (regBit s (pageReg (i / 256) 2) 31 &&
      (match rowAt i with
      | none => false
      | some (r, _) => r.fields.any (fun f => f.acc == .rwl)))

/-- The page-specific registers of a page return to their reset values; what a changed one controls follows. -/
def resetRegisters (req : Requester) (p : Nat) (s : State) : State :=
  let before := s
  let listed := s.regs.filter (fun x => x.1 / 256 == p && 16 ≤ x.1 % 256 && !(showsState x.1) && !(keptLocked req s x.1))
  let s := resetPageRegs p (fun i => showsState i || keptLocked req before i) s
  let s := listed.foldl (fun t x => written req x.1 x.2 t) s
  if (pagePath p).isSome then rolesApplied before s else s

/-- What the blocks behind a page keep outside its registers returns to its reset value with them. -/
def resetBehind (p : Nat) (s : State) : State :=
  match p with
  | 0x07 => resetTimers p s
  | 0x08 => resetTimers p s
  | 0x09 => { s with checks := List.replicate 4 false }
  | 0x0C => if regBit s (pageReg p 2) 31 then s else loadOem s
  | 0x23 => if regBit s (pageReg p 2) 31 then s else loadRegion s
  | 0x2C => writeMasonReset 4 false s
  | _ => s

/-- Results that await release are lost, tickets restart (03 R141, R146; the contactless series goes on, 07 R289). Queues
keep the records they hold (07 R294: records already queued stand; 12 R461), and HIGH is their count (14 R556). -/
def dropResults (p : Nat) (s : State) : State :=
  let s := { s with doors := { s.doors with
    results := s.doors.results.filter (fun r => !(r.page == p))
    tickets := s.doors.tickets.filter (fun t => !(t.1 == p && p != 0x14)) } }
  { s with queues := s.queues.map (fun q =>
      if q.1 / 256 = p then (q.1, { q.2 with high := q.2.entries.length }) else q) }

/-- A soft reset of page `p`. -/
def softReset (req : Requester) (p : Nat) (s : State) : State :=
  s |> endPageCommands p |> abortOnPage p |> dropResults p |> resetRegisters req p |> resetBehind p |> clearHeader p

/-- A write of PAGE_CTRL. -/
def writePageCtrl (req : Requester) (p : Nat) (w : Word) (s : State) : State :=
  let i := pageReg p 2
  let s := if bitAt w 31 then setRegBit i 31 s else s
  if !(softResets p) then s
  else
    let s := setRegBits i 0 0 (bitsOf w 0 0) s
    if bitAt w 1 then softReset req p s else s

/-! ## Snapshots and results (03 R128, R129, R144) -/

/-- The RS registers of a page in a group: their indices. -/
def groupRegs (p g : Nat) : List Nat :=
  ((pageRows p).filter (fun r => r.snap && (g == 0xFF || r.fields.any (fun f => f.group == g)))).flatMap (fun r =>
    (List.range r.count).map (fun k => pageReg p (r.off + k * r.stride)))

/-- A snapshot of group `g` for a requester set. -/
def takeSnapshot (p set g : Nat) (s : State) : State :=
  let c := snapCtlAt s p set
  let s := { s with snapCtl := keySet s.snapCtl (p * 4 + set) { seq := c.seq + 1, group := g } }
  (groupRegs p g).foldl (fun t i => { t with snaps := keySet t.snaps (snapKey set i) (pageWord s set i) }) s

/-- A write of SNAP_CTRL. -/
def writeSnapCtrl (req : Requester) (p : Nat) (w : Word) (s : State) : State :=
  let set := Requester.set req
  let g := bitsOf w 7 0
  if bitAt w 31 then takeSnapshot p set g s
  else { s with snapCtl := keySet s.snapCtl (p * 4 + set) { seq := (snapCtlAt s p set).seq, group := g } }

/-- A write to a header register that is not refused. -/
def writeHeader (req : Requester) (p off : Nat) (r : RegRow) (w : Word) (s : State) : State :=
  let i := pageReg p off
  match off with
  | 0x2 => writePageCtrl req p w s
  | 0x5 => setReg i (w &&& eventBits p) s
  | 0xA => if bitAt w 31 then setReg i 0#32 s else s
  | 0xB => writeSnapCtrl req p w s
  | 0xD => match doorOf p (bitsOf w 23 16) with
    | some f => f req w s
    | none => s
  | _ => setReg i (r.merge (getReg s i) w) s

/-- What a write that is not refused does (03 R105: nothing at a reserved register), conflicts and roles apart. -/
def applyWrite (req : Requester) (i : Nat) (w : Word) (s : State) : State :=
  match rowNow s i with
  | none => s
  | some r =>
    if i % 256 < 16 then writeHeader req (i / 256) (i % 256) r w s
    else match resultBlock (i / 256) with
    | some (_, _, rel) =>
      if i = rel then { s with doors := { s.doors with results := dropResult s.doors.results (i / 256) } }
      else storeWrite req i r w s
    | none => storeWrite req i r w s

/-! ## A write by a requester -/

/-- A write is refused: WRITE_REJECT records it, and a host's write beyond the page sets WR_BEYOND (03 R106). A data window
of an MS page advances all the same (13 R522). -/
def refuseWrite (req : Requester) (i reason : Nat) (s : State) : State :=
  let s := rejectWrite (i / 256) req reason i s
  let s := if reason = 4 ∧ req = .host then portSticky 2 s else s
  match msPage (i / 256) with
  | some m => if reason = 3 then advanceData m (i % 256) s else s
  | none => s

/-- A write to a register of a page that is on: refused, or applied, when it dooms the transactions that hold the register
(04 R168), unless an apply window has held it (R177). -/
def settleWrite (quiet : Bool) (req : Requester) (i : Nat) (w : Word) (s : State) : State :=
  match writeRefusal req s i w with
  | some reason => refuseWrite req i reason s
  | none =>
    let before := s
    let s := applyWrite req i w s
    let s := if quiet then s else conflict i none s
    if isRole i then rolesApplied before s else s

/-- A frozen transaction other than `own` holds register `i` in its write or guard set (04 R177). -/
def frozenHolds (s : State) (own : Option Nat) (i : Nat) : Bool :=
  (List.range 8).any (fun k => some k != own && txnFrozen s (txnAt s k) && (txnAt s k).touches i)

/-- A frozen transaction holds register `i` in its write or guard set. -/
def heldByApply (s : State) (i : Nat) : Bool := frozenHolds s none i

/-- A write of `w` to register `i` by a requester (00 R11, 01 R21): to no page nothing is written; a page whose domain is
off, and an MS page behind the debug lock, discard it; an earlier write of the requester to the island that is held (R24), a
page that is not ready, and a register being applied, hold it. `quiet` says that an apply window has held it already. -/
def writeRegister (quiet : Bool) (req : Requester) (i : Nat) (w : Word) (s : State) : State :=
  if !(inDirectory (i / 256)) then s
  else if crossingWaits s req i then holdWrite req i w quiet s
  else if !(pageUp s (i / 256)) then awayWrite req i w s
  else if debugBars s i then (if req = .host then portSticky 4 s else s)
  else if heldByApply s i then holdWrite req i w true s
  else settleWrite quiet req i w s

end Sys2Proof.Machine
end

