-- ==== Sys2Proof/Machine/Commit.lean ====
section
/-!
DEFINITION. Sys2Proof/Machine/Commit.lean: Keystone transactions (04): staging, the commit request, prepare, the freeze and
the strobe, the apply window, and mirroring to a twin.
-/
namespace Sys2Proof.Machine

/-! ## Staging (04 R154 to R167) -/

/-- Whether a register can be staged (04 R155): every field RW or reserved, only three header registers, no register of an
MS page beyond the header. -/
def stageable (i : Nat) (r : RegRow) : Bool :=
  let off := i % 256
  if off < 16 then off == 5 || off == 6 || off == 0xF
  else r.fields.all (fun f => f.acc == .rw) && (msPage (i / 256)).isNone

/-- The WRITE_REJECT reason with which a staged write is refused (04 R156); a field that behaves as locked is no stageable
one (05 R234, 08 R323, 14 R531, R550). -/
def stageRefusal (req : Requester) (s : State) (i : Nat) (w : Word) : Option Nat :=
  match pageRow (i / 256) with
  | none => none
  | some pr =>
    if pr.last < i % 256 then some 4
    else match rowNow s i with
    | none => none
    | some r =>
      if !(stageable i r) || lockedWrite req s i r w then some 5
      else if reservedWrite s i r w then some 2
      else none

/-- Whether one more register entry fits (04 R162). -/
def entryFits (s : State) (x : Txn) (door : Bool) : Bool :=
  x.entries < 256 && poolEntries s < 1024 && (!door || x.doors.length < 8)

/-- A staging is refused: recorded, and the transaction doomed. -/
def refuseStage (req : Requester) (t i reason code : Nat) (s : State) : State :=
  s |> rejectWrite (i / 256) req reason i |> doomTxn t code

/-- A write is staged to JOB_WORD: a door entry for the current JOB_PAGE (04 R163, R164). -/
def stageDoor (req : Requester) (t : Nat) (x : Txn) (w : Word) (s : State) : State :=
  if x.jobPage = 0x02 ∨ x.jobPage = 0x06 ∨ x.jobPage = 0x0C ∨ !(inDirectory x.jobPage) then doomTxn t Ab.refused s
  else if !(entryFits s x true) then refuseStage req t Reg.txnJobWord 6 Ab.capacity s
  else setTxn t { x with doors := x.doors ++ [(x.jobPage, w)] } s

/-- Whether a register can be guarded (04 R167): no RS or WO field, on a page of the directory. -/
def guardable (i : Nat) : Bool :=
  inDirectory (i / 256) &&
    (match rowAt i with
    | none => true
    | some (r, _) => r.fields.all (fun f => f.acc != .rs && f.acc != .wo))

/-- A write is staged to GUARD_VALUE: a guard with the current index and mask (04 R166, R167). -/
def stageGuard (req : Requester) (t : Nat) (x : Txn) (w : Word) (s : State) : State :=
  if !(guardable x.guardIndex) then doomTxn t Ab.refused s
  else if !(entryFits s x false) then refuseStage req t Reg.txnGuardValue 6 Ab.capacity s
  else setTxn t { x with guards := x.guards ++ [(x.guardIndex, x.guardMask, w)] } s

/-- A register write is staged: it replaces the word staged for the register, or takes an entry (04 R157). -/
def stageEntry (req : Requester) (t : Nat) (x : Txn) (i : Nat) (w : Word) (s : State) : State :=
  if x.regs.any (fun e => e.1 == i) then
    setTxn t { x with regs := x.regs.map (fun e => if e.1 = i then (i, w) else e) } s
  else if !(entryFits s x false) then refuseStage req t i 6 Ab.capacity s
  else setTxn t { x with regs := x.regs ++ [(i, w)] } s

/-- Whether staging by `req` into identifier `t` has a transaction to go to (04 R160). -/
def stagesInto (s : State) (req : Requester) (t : Nat) : Bool :=
  t < 8 && (txnAt s t).requester == req && ((txnAt s t).phase == .openPhase || (txnAt s t).phase == .doomed)

/-- One staged write of `w` to register `i` (04 R154 to R167). -/
def stageReg (req : Requester) (t i : Nat) (w : Word) (s : State) : State :=
  let x := txnAt s t
  if !(stagesInto s req t) then badId req t s
  else if x.phase = .doomed then s
  else if !(inDirectory (i / 256)) then doomTxn t Ab.refused s
  else if !(pageUp s (i / 256)) then doomTxn t Ab.domainOff (if req = .host then portSticky 3 s else s)
  else if i = Reg.txnJobPage then setTxn t { x with jobPage := bitsOf w 7 0 } s
  else if i = Reg.txnGuardIndex then setTxn t { x with guardIndex := bitsOf w 15 0 } s
  else if i = Reg.txnGuardMask then setTxn t { x with guardMask := w } s
  else if i = Reg.txnJobWord then stageDoor req t x w s
  else if i = Reg.txnGuardValue then stageGuard req t x w s
  else match stageRefusal req s i w with
  | some reason => refuseStage req t i reason Ab.refused s
  | none => stageEntry req t x i w s

/-- One staged write of `w` to the Mortar host word at byte address `a` (04 R161, R162). -/
def stageMortarWord (req : Requester) (t a : Nat) (w : Word) (s : State) : State :=
  let x := txnAt s t
  let a := a / 4 * 4
  if !(stagesInto s req t) then badId req t s
  else if x.phase = .doomed then s
  else if mortarEnd ≤ a then doomTxn t Ab.refused s
  else if bankOff s a then doomTxn t Ab.domainOff s
  else if x.mortar.any (fun e => e.1 == a) then
    setTxn t { x with mortar := x.mortar.map (fun e => if e.1 = a then (a, w) else e) } s
  else if 4096 ≤ x.mortar.length ∨ 16384 ≤ poolWords s then doomTxn t Ab.capacity s
  else setTxn t { x with mortar := x.mortar ++ [(a, w)] } s

/-! ## Mirroring (04 R187, 16 R591) -/

/-- Whether entries on a page are mirrored (04 R187). -/
def mirroredPage (p : Nat) : Bool :=
  !([0x00, 0x01, 0x02, 0x03, 0x04, 0x06, 0x0B, 0x0C, 0x0D, 0x0E, 0x0F, 0x28, 0x29, 0x2A, 0x2B, 0x2C, 0x30].contains p)

/-- The body of a TXN message (notes/assumptions/16.md): requester code, tag, number of register entries, the entries,
the Mortar entries. -/
def txnBody (req : Requester) (tag : Nat) (regs : List (Nat × Word)) (mortar : List (Nat × Word)) : List Byte :=
  leBytes 1 (Requester.code req) ++ leBytes 2 tag ++ leBytes 2 regs.length
    ++ regs.flatMap (fun e => leBytes 2 e.1 ++ leBytes 4 e.2.toNat)
    ++ mortar.flatMap (fun e => leBytes 4 e.1 ++ leBytes 4 e.2.toNat)

/-- A committed transaction is sent to the secondary. -/
def mirrorTxn (x : Txn) (s : State) : State :=
  mirror 0xD5 (txnBody x.requester x.tag (x.regs.filter (fun e => mirroredPage (e.1 / 256))) x.mortar) s

/-- A direct write applied on the primary is sent as a transaction of one entry with tag 0. -/
def mirrorWrite (req : Requester) (i : Nat) (w : Word) (s : State) : State :=
  if mirroredPage (i / 256) && (match rowAt i with
    | some (r, _) => stageable i r
    | none => false)
  then mirror 0xD5 (txnBody req 0 [(i, w)] []) s else s

/-- A write of register `i` as it reaches its page: judged, applied and mirrored; `quiet` as for writeRegister. -/
def arrivingWrite (quiet : Bool) (req : Requester) (i : Nat) (w : Word) (s : State) : State :=
  let ok := inDirectory (i / 256) && pageUp s (i / 256) && !(debugBars s i) && !(heldByApply s i) && !(crossingWaits s req i)
    && (writeRefusal req s i w).isNone
  let s := writeRegister quiet req i w s
  if ok then mirrorWrite req i w s else s

/-- A direct write of register `i`. -/
def directWrite (req : Requester) (i : Nat) (w : Word) (s : State) : State := arrivingWrite false req i w s

/-- A register write as its requester issues it (12 R476). -/
def issueWrite (req : Requester) (i : Nat) (w : Word) (s : State) : State := issued req i w (directWrite req i w) s

/-! ## Commit records (04 R182, R183) -/

/-- The record of a requester with a tag. -/
def findRecord (s : State) (req : Requester) (tag : Nat) : Option CommitRec :=
  if tag = 0 then none else s.txn.records.find? (fun r => r.requester == req && r.tag == tag)

/-- The first record of a requester is dropped. -/
def dropOldest (req : Requester) (rs : List CommitRec) : List CommitRec :=
  match rs with
  | [] => []
  | r :: t => if r.requester = req then t else r :: dropOldest req t

/-- A record is created for a commit of identifier `t`: it takes the place of one with its tag, else the requester's oldest
of 32 makes room. -/
def newRecord (req : Requester) (tag t : Nat) (s : State) : State :=
  if tag = 0 then s
  else
    let rs := s.txn.records.filter (fun r => !(r.requester == req && r.tag == tag))
    let rs := if 32 ≤ (rs.filter (fun r => r.requester == req)).length then dropOldest req rs else rs
    { s with txn := { s.txn with records := rs ++
        [{ requester := req, tag := tag, state := 1, code := 0, live := some (Fin.ofNat 8 t) }] } }

/-- The record of identifier `t` shows COMMITTED once the strobe has fallen (04 R178, R182). -/
def strobeRecord (t : Nat) (s : State) : State :=
  { s with txn := { s.txn with records := s.txn.records.map (fun r =>
      if r.live.map (·.val) = some t then { r with state := 2 } else r) } }

/-! ## Prepare (04 R171 to R175) -/

/-- Whether a commit condition is defined (04 R171). -/
def condDefined (c : Nat) : Bool :=
  c == 0x00 || (0x10 ≤ c && c ≤ 0x1F) || c == 0x20 || c == 0x30 || (0x40 ≤ c && c ≤ 0x43)

/-- The value a guard sees. -/
def guardWord (s : State) (req : Requester) (i : Nat) : Word :=
  if debugHides s i then 0#32 else readWord s (Requester.set req) i

/-- Every guard passes (04 R166). -/
def guardsPass (s : State) (x : Txn) : Bool :=
  x.guards.all (fun g => guardWord s x.requester g.1 &&& g.2.1 == g.2.2 &&& g.2.1)

/-- Every domain concerned is on (04 R172, R173). -/
def domainsPass (s : State) (x : Txn) : Bool :=
  x.regs.all (fun e => pageUp s (e.1 / 256)) && x.guards.all (fun g => pageUp s (g.1 / 256))
    && x.doors.all (fun d => pageUp s d.1) && x.mortar.all (fun e => !(bankOff s e.1))
    && (condDomains x.cond).all (fun d => domainOn s d && !(draining s d))

/-- Door entries of the transaction at one of the doors given, without those whose tag is remembered. -/
def doorsAt (s : State) (x : Txn) (at_ : List (Nat × List Nat)) : Nat :=
  (x.doors.filter (fun d => at_.any (fun e => e.1 == d.1 && e.2.contains (bitsOf d.2 23 16))
    && (remembered s d.1 x.requester (bitsOf d.2 31 24)).isNone)).length

/-- Every job table has an entry for each door entry that needs one (04 R175). -/
def tablesPass (s : State) (x : Txn) : Bool :=
  doorsAt s x [(0x14, [0x10]), (0x15, [0x10])] ≤ nfcFree s
    && doorsAt s x [(0x1C, [0x10]), (0x18, [0x10, 0x11]), (0x19, [0x10, 0x11]), (0x1A, [0x10, 0x11]),
        (0x1B, [0x10, 0x11])] ≤ bcastFree s
    && doorsAt s x [(0x0A, [0x10, 0x11, 0x12])] ≤ cipherFree s
    && doorsAt s x [(0x22, [0x10])] ≤ freeSlots s

/-- Every door entry has a defined code and an enabled page, or a remembered tag (04 R175). -/
def doorsPass (s : State) (x : Txn) : Bool :=
  x.doors.all (fun d => (remembered s d.1 x.requester (bitsOf d.2 31 24)).isSome
    || ((doorOf d.1 (bitsOf d.2 23 16)).isSome && pageEnabled s d.1)) && tablesPass s x

/-- The first cause for which a commit fails at prepare (04 R173 step 2). -/
def prepareCode (s : State) (x : Txn) : Option Nat :=
  if !(domainsPass s x) then some Ab.domainOff
  else if !(guardsPass s x) then some Ab.guardFail
  else if !(doorsPass s x) then some Ab.jobRefused
  else none

/-! ## Freeze, strobe and apply window (04 R173 to R177) -/

/-- One staged register entry is applied; it waits for the apply window of another transaction that holds the register
(04 R177). -/
def applyEntry (t : Nat) (req : Requester) (e : Nat × Word) (s : State) : State :=
  if debugBars s e.1 then s
  else if frozenHolds s (some t) e.1 then holdWrite req e.1 e.2 true s
  else s |> applyWrite req e.1 e.2 |> conflict e.1 (some t)

/-- Entries in the order in which their effects build on each other: timer CTRL first (14 R533). -/
def applyOrder (es : List (Nat × Word)) : List (Nat × Word) :=
  let ctrl := fun (e : Nat × Word) => match timerOf e.1 with
    | some (_, off) => off == 0
    | none => false
  es.filter ctrl ++ es.filter (fun e => !(ctrl e))

/-- One door entry is issued; a word with no defined code has passed prepare for its remembered tag, and is handled by the
tag rule (04 R175, 03 R135). -/
def issueDoor (req : Requester) (d : Nat × Word) (s : State) : State :=
  match doorOf d.1 (bitsOf d.2 23 16) with
  | some f => f req d.2 s
  | none => match remembered s d.1 req (bitsOf d.2 31 24) with
    | some r => if pageUp s d.1 then tagMatch req d.1 d.2 r s else s
    | none => s

/-- Mason 1's repair pass has changed words (05 R231). -/
def repairDone (x : Txn) (s : State) : State :=
  if x.requester = .mason 1 ∧ x.cond = 0x20 ∧ !x.regs.isEmpty then raiseEvent 0x10 7 s else s

/-- One staged Mortar word is written (02 R64, 12 R476): held where the word is provisional or its bank is being
re-initialised, discarded where it is poisoned. -/
def applyMortar (req : Requester) (e : Nat × Word) (s : State) : State :=
  if bankOff s e.1 then countBankOff s
  else if bankBusy s e.1 then waitBank (some req) e.1 (leBytes 4 e.2.toNat) (e.1 / 4 % 0x10000) s
  else match provisionalAt s e.1 with
  | some j => holdDest j (some req) e.1 (leBytes 4 e.2.toNat) s
  | none =>
    let r := halfWrite e.1 e.2 s
    if r.2 && req == .host then portSticky 8 r.1 else r.1

/-- Insert a Mortar entry by address. -/
def insertWord (e : Nat × Word) (es : List (Nat × Word)) : List (Nat × Word) :=
  match es with
  | [] => [e]
  | f :: t => if e.1 < f.1 then e :: f :: t else f :: insertWord e t

/-- The Mortar words of a transaction are written, in order of address: every reader sees them as written at the strobe (04
R176). -/
def applyWords (x : Txn) (s : State) : State :=
  (x.mortar.foldl (fun l e => insertWord e l) []).foldl (fun u e => applyMortar x.requester e u) s

/-- Freeze and strobe of identifier `t`: a failing guard aborts it; otherwise every island applies its entries, the Mortar
words stand, the pattern engine takes what a TAP0 strobe selects at its edge (05 R205, R206), the door entries are issued,
and whoever waits for the reply has it. -/
def strobe (t : Nat) (s : State) : State :=
  let x := txnAt s t
  if !(guardsPass s x) then endTxn t 3 Ab.guardFail s
  else
    let before := s
    let s := s |> setTxn t { x with phase := .applying } |> strobeRecord t
    let s := (applyOrder x.regs).foldl (fun u e => applyEntry t x.requester e u) s
    let s := if x.regs.any (fun e => isRole e.1) then rolesApplied before s else s
    let s := s |> applyWords x |> swapApplied t |> repairDone x |> (if x.cond = 0x20 then tapEdge else id)
    let s := x.doors.foldl (fun u d => issueDoor x.requester d u) s
    answerCommit t 2 0 s

/-- Whether the condition of a waiting transaction is met (04 R171, R172): for TAP0 at the first tap-0 edge 1.0 µs or more
after prepare, while the plumb line is locked or where the freeze was made before it left lock (R174), a repair of mason 1
only outside frames and windows (05 R231); for the others once their event has come since prepare. -/
def condMet (s : State) (x : Txn) : Bool :=
  if x.cond = 0x20 then
    domainOn s 3 && x.preparedAt + 14 ≤ s.now && (x.froze || (!(s.clocks.bypass) && s.clocks.plumb == .locked))
      && !(x.requester == .mason 1 && (s.frx.windowOpen || (match s.nfc.run with
        | some r => r.inFrame
        | none => false)))
  else x.met

/-- Whether mason 1 gives up its repair at the commit: another transaction holds writes on PAT (05 R232), or the device is
STANDALONE no more (R233). -/
def repairYields (s : State) (t : Nat) (x : Txn) : Bool :=
  isRepair x && (arrayMode s != 0 || (List.range 8).any (fun k => k != t && (txnAt s k).regs.any (fun e => e.1 / 256 == 0x11)))

/-- COMMIT_CONDITION_MET: the condition of waiting identifier `t` occurs. -/
def execCommitConditionMet (id : Fin 8) (s : State) : Out :=
  .next (if live s && (txnAt s id.val).phase == .waiting && condMet s (txnAt s id.val) then
      (if repairYields s id.val (txnAt s id.val) then endTxn id.val 3 Ab.requesterAbort s else strobe id.val s)
    else s)

/-- What holds a held write: a stopped island or an earlier one that stays held (15 R558, 01 R24), an apply window (04 R177), a
domain that is not ready (15 R572), the bank of a door's descriptor (01 R30). -/
def stillHeld (s : State) (h : HeldWrite) : Bool :=
  crossingWaits s h.requester h.index || heldByApply s h.index || waitsReady s (pageDomain (h.index / 256))
    || (h.index % 256 == 0xD && doorWaits s (h.index / 256) h.word)

/-- Held writes are applied once nothing holds them, in issue order. -/
def releaseHeld (s : State) : State :=
  s.txn.held.foldl (fun t h =>
    if stillHeld t h then holdWrite h.requester h.index h.word h.quiet t
    else arrivingWrite h.quiet h.requester h.index h.word t) { s with txn := { s.txn with held := [] } }

/-- A write that waited for its bank reaches it. -/
def applyWait (e : BankWait) (s : State) : State :=
  match e.who with
  | none => engineWrite e.addr e.bytes s
  | some req =>
    if bankOff s e.addr then countBankOff s
    else match provisionalAt s e.addr with
    | some j => holdDest j (some req) e.addr e.bytes s
    | none =>
      let s := settleWord (e.addr / 8) s
      if isPoison s (e.addr / 8) then (if req = .host then s |> portSticky 8 |> portError 0x10 e.idx else s)
      else mortarPutBytes e.addr e.bytes s

/-- The writes that waited for a bank that accepts accesses again are carried out in issue order, and door writes that
waited for their descriptors follow. -/
def releaseBank (one : Bool) (s : State) : State :=
  let go := s.mem.waits.filter (fun e => inBank1 e.addr == one)
  let s := setMem { s.mem with waits := s.mem.waits.filter (fun e => !(inBank1 e.addr == one)) } s
  releaseHeld (go.foldl (fun t e => applyWait e t) s)

/-- BANK_READY (01 R30): the bank is re-initialised and the accesses held for it proceed. -/
def execBankReady (one : Bool) (s : State) : Out :=
  .next (if !(live s) then s
    else if one then
      (if s.power.on.getLsbD 8 || s.power.starting.getLsbD 8 then releaseBank true (setMem { s.mem with bank1Busy := false } s)
      else s)
    else releaseBank false (setMem { s.mem with bank0Busy := false } s))

/-- The apply window of identifier `t` ends: it ends COMMITTED, it is mirrored, and held writes are applied. -/
def applyEnd (t : Nat) (s : State) : State := s |> endTxn t 2 0 |> mirrorTxn (txnAt s t) |> releaseHeld

/-- APPLY_WINDOW_END. -/
def execApplyWindowEnd (id : Fin 8) (s : State) : Out :=
  let x := txnAt s id.val
  .next (if live s && x.phase == .applying && x.mortar.all (fun e => !(bankBusy s e.1)) then applyEnd id.val s else s)

/-- TXN_TIMEOUT (04 R152, R180): the limit has passed since the identifier was allocated, before the freeze. -/
def execTxnTimeout (id : Fin 8) (s : State) : Out :=
  let x := txnAt s id.val
  .next (if live s && x.phase != .free && x.openedAt + x.limitMs * 13560 ≤ s.now then abortTxn id.val Ab.timeout s else s)

/-! ## The commit request (04 R173, R178, R179, R183) -/

/-- A transaction with its commit requested is prepared, and with IMMEDIATE frozen and applied: the reply word, or none
while it is held busy. -/
def prepareTxn (t : Nat) (s : State) : State × Option Word :=
  let x := txnAt s t
  match prepareCode s x with
  | some code => (endTxn t 3 code s, some (txnWord 3 code x.tag))
  | none =>
    let s := setTxn t { x with phase := .waiting, preparedAt := s.now, met := false } s
    if x.cond = 0x00 then
      (strobe t s, some (if guardsPass s (txnAt s t) then txnWord 2 0 x.tag else txnWord 3 Ab.guardFail x.tag))
    else if x.cond = 0x20 then (s, none)
    else (s, some (txnWord 1 0 x.tag))

/-- A commit request. -/
def commitTxn (req : Requester) (t tag cond : Nat) (s : State) : State × Option Word :=
  match findRecord s req tag with
  | some r => (s, some (txnWord r.state r.code tag))
  | none =>
    let x := txnAt s t
    if !(stagesInto s req t) then (s, some (txnWord 3 Ab.notOpen tag))
    else
      let s := s |> newRecord req tag t |> setTxn t { x with tag := tag, cond := cond }
      if x.phase = .doomed then (endTxn t 3 x.doom s, some (txnWord 3 x.doom tag))
      else if !(condDefined cond) then (endTxn t 3 Ab.badCondition s, some (txnWord 3 Ab.badCondition tag))
      else prepareTxn t (setTxn t { x with tag := tag, cond := cond, phase := .preparing } s)

end Sys2Proof.Machine
end

