-- ==== Sys2Proof/Machine/MasonMem.lean ====
section
/-!
DEFINITION. Sys2Proof/Machine/MasonMem.lean: the data space of a mason and what goes through it (13 R491 to R495, R504 to
R506, R516, R517; 02 R94 to R97): loads, stores, the check helper, transactions and external operations. A load that is
held leaves the instruction where it is, to be issued again (R505).
-/
namespace Sys2Proof.Machine

/-! ## Loads (13 R491 to R494, R505) -/

/-- FAULT.BUS for the instruction at PC. -/
def busFault (m : Fin 5) (s : State) : State := masonFault m 1 (masonAt s m).pc s

/-- FAULT.POISON for the instruction at PC. -/
def poisonFault (m : Fin 5) (s : State) : State := masonFault m 4 (masonAt s m).pc s

/-- The island class of a mason. -/
def masonClass (m : Fin 5) : Nat := if m.val = 0 then 1 else m.val + 2

/-- Extra cycles of a register load (13 R505): 1 in the mason's own island, 7 for mason 4 in the Keystone island;
elsewhere the spec gives bounds only, and the number below the bound is free. -/
def regStall (m : Fin 5) (s : State) (p : Nat) : Nat :=
  let cls := match pageRow p with
    | some r => r.cls
    | none => 0
  if cls = masonClass m then 1
  else if cls = 1 then (if m = 4 then 7 else Config.freeNat s.freeIndex % 8)
  else
    let most := if m.val = 2 then 66 else if m.val = 3 then 22 else 44
    Config.freeNat s.freeIndex % (most + 1)

/-- Extra cycles of a Mortar load: 3 for bank 0 in mason 0, 11 for mason 4, else a free number of at most 11. -/
def mortarStall (m : Fin 5) (s : State) (a : Nat) : Nat :=
  if m = 0 ∧ a < 0x100000 then 3 else if m = 4 then 11 else Config.freeNat s.freeIndex % 12

/-- A register in the write set of a frozen transaction (04 R177). -/
def applyingReg (s : State) (i : Nat) : Bool :=
  s.txn.ids.any (fun x => txnFrozen s x && x.regs.any (fun e => e.1 == i))

/-- A Mortar host word in the write set of a frozen transaction. -/
def applyingWord (s : State) (a : Nat) : Bool :=
  s.txn.ids.any (fun x => txnFrozen s x && x.mortar.any (fun e => e.1 == a))

/-- A mason loads register `i`: held while it is being applied, its page is not ready, or an earlier write of the mason to the
island is held (01 R25). -/
def loadRegister (m : Fin 5) (i : Nat) (s : State) : State × Option (Word × Nat) :=
  if applyingReg s i || readWaits s i || crossingWaits s (.mason m) i then (s, none)
  else
    let k := regStall m s (i / 256)
    let r := readRegister (.mason m) i s
    (useFree r.1, some (r.2, k))

/-- A mason loads a Mortar half (13 R494, 01 R29, 12 R476), held behind its own writes to the bank (01 R25). -/
def loadMortar (m : Fin 5) (a : Nat) (s : State) : State × Option (Word × Nat) :=
  let k := mortarStall m s a
  if bankOff s a then (s |> countBankOff |> poisonFault m |> useFree, some (0#32, k))
  else if bankBusy s a || applyingWord s a || (heldInBank s (.mason m) a).isSome then (s, none)
  else
    let s := match provisionalAt s a with
      | some j => bindMason m j s
      | none => s
    let r := halfRead a s
    (useFree (if r.2.2 then poisonFault m r.1 else r.1), some (r.2.1, k))

/-- A mason loads the word at a data address: its value and the extra cycles, or none while it is held. -/
def loadWord (m : Fin 5) (addr : Nat) (s : State) : State × Option (Word × Nat) :=
  let a := addr / 4 * 4
  if a < 0x8000 then (s, some (memWord (masonAt s m).dram a, 0))
  else if 0x40000 ≤ a ∧ a < 0x80000 then
    let i := (a - 0x40000) / 4
    if inDirectory (i / 256) then loadRegister m i s else (busFault m s, some (0#32, 0))
  else if 0x200000 ≤ a ∧ a < 0x400000 then loadMortar m (a - 0x200000) s
  else if 0x1000000 ≤ a ∧ a < 0x2000000 then
    match xipRead (a - 0x1000000) s with
    | (t, some w) => (useFree t, some (w, mortarStall m s 0x100000))
    | (t, none) => (t, none)
  else (busFault m s, some (0#32, 0))

/-- The byte of a word at a data address (13 R492). -/
def byteAt (w : Word) (a : Nat) : Byte := (w >>> (8 * (a % 4))).setWidth 8

/-- A load instruction of `n` words at PC: the value loaded from `addr` is shaped and pushed by `push` after `pops`
entries are popped; `after` updates the mason. -/
def loadInstr (m : Fin 5) (words : List (BitVec 14)) (pops : Nat) (addr : MasonUnit → Nat)
    (push : MasonUnit → Word → List Word) (after : MasonUnit → MasonUnit) (s : State) : State :=
  runInstr m (fun _ => { words := words, pops := pops, pushes := 1 })
    (fun u t =>
      match loadWord m (addr u) t with
      | (t, none) => t
      | (t, some (w, k)) =>
        endInstr m (after (((masonAt t m).pop pops).pushAll (push u w))) (u.pc + words.length) false (1 + k) none t) s

/-! ## Stores (13 R492 to R494, R506; 12 R476) -/

/-- A mason's register write, as it is applied. -/
def masonWrite (m : Fin 5) (i : Nat) (w : Word) (s : State) : State := directWrite (.mason m) i w s

/-- Bytes a mason writes to Mortar, within one 64-bit word, as they are applied: discarded on a poisoned word. -/
def masonMortar (m : Fin 5) (a : Nat) (bs : List Byte) (s : State) : State :=
  let s := settleWord (a / 8) s
  if isPoison s (a / 8) then poisonFault m s else mortarPutBytes a bs s

/-- A mason stores register `i`; none while a 65th effect waits for a verdict. -/
def storeRegister (m : Fin 5) (i : Nat) (w : Word) (s : State) : Option State :=
  if !(isBound s m) then some (masonWrite m i w s)
  else if canHold s m then some (holdEffect m (.write (BitVec.ofNat 16 i) w) s) else none

/-- A mason stores bytes of one host word of Mortar; none while the bank is re-initialised or a 65th effect waits. -/
def storeMortar (m : Fin 5) (a : Nat) (bs : List Byte) (s : State) : Option State :=
  if bankOff s a then some (countBankOff s)
  else if bankBusy s a then none
  else match writeWaits s (.mason m) a with
  | some j => some (holdDest j (some (.mason m)) a bs s)
  | none =>
    if !(isBound s m) then some (masonMortar m a bs s)
    else if canHold s m then some (holdEffect m (.mortar a bs) s) else none

/-- A mason stores a word at a data address. -/
def storeWord (m : Fin 5) (addr : Nat) (w : Word) (s : State) : Option State :=
  let a := addr / 4 * 4
  if a < 0x8000 then some (setMason m { masonAt s m with dram := memPutWord (masonAt s m).dram a w } s)
  else if 0x40000 ≤ a ∧ a < 0x80000 then
    let i := (a - 0x40000) / 4
    if inDirectory (i / 256) then storeRegister m i w s else some (busFault m s)
  else if 0x200000 ≤ a ∧ a < 0x400000 then storeMortar m (a - 0x200000) (leBytes 4 w.toNat) s
  else if 0x1000000 ≤ a ∧ a < 0x2000000 then some (masonFault m 2 (masonAt s m).pc s)
  else some (busFault m s)

/-- A mason stores a byte at a data address. -/
def storeByte (m : Fin 5) (a : Nat) (b : Byte) (s : State) : Option State :=
  if a < 0x8000 then some (setMason m { masonAt s m with dram := memSet (masonAt s m).dram a b } s)
  else if 0x200000 ≤ a ∧ a < 0x400000 then storeMortar m (a - 0x200000) [b] s
  else some (busFault m s)

/-- A store instruction: `st` does the store from the mason before it pops; a store that is held leaves the instruction. -/
def storeInstr (m : Fin 5) (words : List (BitVec 14)) (pops : Nat) (st : MasonUnit → State → Option State)
    (after : MasonUnit → MasonUnit) (s : State) : State :=
  runInstr m (fun _ => { words := words, pops := pops })
    (fun u t =>
      match st u t with
      | none => t
      | some t => endInstr m (after ((masonAt t m).pop pops)) (u.pc + words.length) false 1 none t) s

/-! ## The load and store instructions (13 R504) -/

/-- LDX (a — w). -/
def execLdx (m : Fin 5) (s : State) : Out :=
  .next (loadInstr m [0x0840#14] 1 (fun u => (u.top 0).toNat) (fun _ w => [w]) id s)

/-- STX (v a —). -/
def execStx (m : Fin 5) (s : State) : Out :=
  .next (storeInstr m [0x0880#14] 2 (fun u t => storeWord m (u.top 0).toNat (u.top 1) t) id s)

/-- LDB (a — byte). -/
def execLdb (m : Fin 5) (s : State) : Out :=
  .next (loadInstr m [0x08C0#14] 1 (fun u => (u.top 0).toNat)
    (fun u w => [(byteAt w (u.top 0).toNat).setWidth 32]) id s)

/-- STB (v a —). -/
def execStb (m : Fin 5) (s : State) : Out :=
  .next (storeInstr m [0x0900#14] 2 (fun u t => storeByte m (u.top 0).toNat ((u.top 1).setWidth 8) t) id s)

/-- The address PTp + 4f, modulo 2^32. -/
def ptAddr (u : MasonUnit) (p : Fin 8) (f : Nat) : Nat := (u.pt p.val + BitVec.ofNat 32 (4 * f)).toNat

/-- PTp moved by 4 × sx(f). -/
def ptMove (p : Fin 8) (f : BitVec 6) (u : MasonUnit) : MasonUnit :=
  u.setPt p.val (u.pt p.val + 4#32 * f.signExtend 32)

/-- LDP p, f (— [PTp + 4f]). -/
def execLdp (m : Fin 5) (p : Fin 8) (f : BitVec 6) (s : State) : Out :=
  .next (loadInstr m [opWord 0x1000 (64 * p.val + f.toNat)] 0 (fun u => ptAddr u p f.toNat) (fun _ w => [w]) id s)

/-- STP p, f (v —). -/
def execStp (m : Fin 5) (p : Fin 8) (f : BitVec 6) (s : State) : Out :=
  .next (storeInstr m [opWord 0x1200 (64 * p.val + f.toNat)] 1
    (fun u t => storeWord m (ptAddr u p f.toNat) (u.top 0) t) id s)

/-- LDPI p, s (— [PTp]); then PTp moves. -/
def execLdpi (m : Fin 5) (p : Fin 8) (f : BitVec 6) (s : State) : Out :=
  .next (loadInstr m [opWord 0x1400 (64 * p.val + f.toNat)] 0 (fun u => ptAddr u p 0) (fun _ w => [w]) (ptMove p f) s)

/-- STPI p, s (v —); then PTp moves. -/
def execStpi (m : Fin 5) (p : Fin 8) (f : BitVec 6) (s : State) : Out :=
  .next (storeInstr m [opWord 0x1600 (64 * p.val + f.toNat)] 1
    (fun u t => storeWord m (ptAddr u p 0) (u.top 0) t) (ptMove p f) s)

/-- LDL (— [4K]). -/
def execLdl (m : Fin 5) (k : BitVec 14) (s : State) : Out :=
  .next (loadInstr m [0x3200#14, k] 0
    (fun _ => if k.toNat < 8192 then 4 * k.toNat else 0x8000) (fun _ w => [w]) id s)

/-- STL (v —). -/
def execStl (m : Fin 5) (k : BitVec 14) (s : State) : Out :=
  .next (storeInstr m [0x3240#14, k] 1
    (fun u t => storeWord m (if k.toNat < 8192 then 4 * k.toNat else 0x8000) (u.top 0) t) id s)

/-- The two words of LDR and STR. -/
def regWords (base : Nat) (i : RegIndex) : List (BitVec 14) :=
  [opWord base (i.toNat / 0x4000), BitVec.ofNat 14 (i.toNat % 0x4000)]

/-- LDR i (— register i). -/
def execLdr (m : Fin 5) (i : RegIndex) (s : State) : Out :=
  .next (loadInstr m (regWords 0x3280 i) 0 (fun _ => 0x40000 + 4 * i.toNat) (fun _ w => [w]) id s)

/-- STR i (v —). -/
def execStr (m : Fin 5) (i : RegIndex) (s : State) : Out :=
  .next (storeInstr m (regWords 0x32C0 i) 1 (fun u t => storeWord m (0x40000 + 4 * i.toNat) (u.top 0) t) id s)

/-! ## Slot 0: the check helper (13 R517) -/

/-- Store bytes one after another; none where one is held. -/
def storeBytes (m : Fin 5) (a : Nat) (bs : List Byte) (s : State) : Option State :=
  match bs with
  | [] => some s
  | b :: t => match storeByte m a b s with
    | none => none
    | some s => storeBytes m (a + 1) t s

/-- What is left of CKSUM or CKCOPY: the CRC so far, bytes done, extra cycles. -/
structure CheckRun where
  crc : Word
  done : Nat
  extra : Nat

/-- The check helper takes the bytes of one word of the source; none where a load or store is held. -/
def checkWord (m : Fin 5) (sel : Nat) (copy : Option Nat) (a n : Nat) (r : CheckRun) (s : State) :
    State × Option CheckRun :=
  let at_ := (a + r.done) % 2 ^ 32
  let k := min (4 - at_ % 4) (n - r.done)
  match loadWord m at_ s with
  | (t, none) => (t, none)
  | (t, some (w, x)) =>
    let bs := (List.range k).map (fun j => byteAt w (at_ + j))
    let next : CheckRun := { crc := crcBytes (crcOfSel sel) r.crc bs, done := r.done + k, extra := r.extra + x }
    match copy with
    | none => (t, some next)
    | some d => match storeBytes m ((d + r.done) % 2 ^ 32) bs t with
      | none => (s, none)
      | some t => (t, some next)

/-- The check helper runs until its bytes are done or an access is held. -/
def checkWords (fuel : Nat) (m : Fin 5) (sel : Nat) (copy : Option Nat) (a n : Nat) (r : CheckRun) (s : State) :
    State × CheckRun :=
  match fuel with
  | 0 => (s, r)
  | f + 1 =>
    if n ≤ r.done then (s, r)
    else match checkWord m sel copy a n r s with
    | (t, none) => (t, r)
    | (t, some r) => checkWords f m sel copy a n r t

/-- CKSUM or CKCOPY goes on from where it stands: its operands are still on the stack. -/
def checkGo (m : Fin 5) (sel : Nat) (copies : Bool) (crc : Word) (done : Nat) (s : State) : State :=
  let u := masonAt s m
  let n := (u.top 0).toNat % 0x10000
  let pops := if copies then 4 else 3
  let copy := if copies then some (u.top 1).toNat else none
  let a := (u.top (pops - 2)).toNat
  let r0 : CheckRun := { crc := crc, done := done, extra := 0 }
  let (t, r) := checkWords (n + 1) m sel copy a n r0 s
  let v := masonAt t m
  if r.done < n then setMason m { v with stall := some (.check r.crc r.done), cycle := v.cycle + r.extra } t
  else endInstr m ((v.pop pops).push r.crc) (u.pc + 2) false (2 + (n + 3) / 4 + r.extra) none t

/-- The needs of a coprocessor operation. -/
def copNeeds (slot f : Nat) (k : BitVec 14) (pops pushes : Nat) : InstrNeeds :=
  { words := [opWord 0x3F00 (32 * slot + f), k], pops := pops, pushes := pushes }

/-- A check helper operation starts, or a held one goes on. -/
def checkInstr (m : Fin 5) (f : Nat) (sel : Fin 5) (copies : Bool) (s : State) : State :=
  let u := masonAt s m
  let needs := copNeeds 0 f (BitVec.ofNat 14 sel.val) (if copies then 4 else 3) 1
  match u.stall with
  | some (.check crc done) =>
    if wordsAt s m u.pc needs.words && domainOn s (masonDomain m) then
      checkGo m sel.val copies crc done (setMason m { u with stall := none } s)
    else s
  | _ => runInstr m (fun _ => needs)
      (fun v t => checkGo m sel.val copies (v.top (if copies then 3 else 2)) 0 t) s

/-- CKSUM (c a n — c′). -/
def execCksum (m : Fin 5) (sel : Fin 5) (s : State) : Out := .next (checkInstr m 0 sel false s)

/-- CKCOPY (c a d n — c′). -/
def execCkcopy (m : Fin 5) (sel : Fin 5) (s : State) : Out := .next (checkInstr m 1 sel true s)

/-! ## Slot 6: transactions (13 R517) -/

/-- The TXN_BEGIN reply word (02 R66). -/
def beginWord (r : State × Nat × Option Nat) : Word :=
  match r.2.2 with
  | some k => fieldWord 31 31 1 ||| fieldWord 2 0 k
  | none => fieldWord 23 16 r.2.1

/-- TBEGIN (— r). -/
def execTbegin (m : Fin 5) (s : State) : Out :=
  .next (runInstr m (fun _ => copNeeds 6 0 0#14 0 1)
    (fun u t =>
      let r := openTxn (.mason m) (activeSecondary t) t
      endInstr m (u.push (beginWord r)) (u.pc + 2) false 1 none r.1) s)

/-- A staging of a mason: held while it is bound to a decryption, if the transaction is its own (04 R160, R186); none while a
65th effect waits. -/
def masonStage (m : Fin 5) (t : Nat) (e : Fin 8 → Nat → HeldEffect) (now : State → State) (s : State) : Option State :=
  if !(isBound s m) || !(stagesInto s (.mason m) t) then some (now s)
  else if canHold s m then some (holdEffect m (e (Fin.ofNat 8 t) (txnAt s t).serial) s) else none

/-- An index a mason names: beyond 16 bits it is on no page (notes/assumptions/23.md). -/
def stageIndex (w : Word) : Nat := if w.toNat < 0x10000 then w.toNat else 0x3F00

/-- TSTAGE (v i t —). -/
def execTstage (m : Fin 5) (s : State) : Out :=
  .next (runInstr m (fun _ => copNeeds 6 1 0#14 3 0)
    (fun u t =>
      let k := (u.top 0).toNat
      let i := stageIndex (u.top 1)
      match masonStage m k (fun f n => .stage f n (BitVec.ofNat 16 i) (u.top 2)) (stageReg (.mason m) k i (u.top 2)) t with
      | none => t
      | some t => endInstr m ((masonAt t m).pop 3) (u.pc + 2) false 1 none t) s)

/-- TSTAGEM (v m t —). -/
def execTstagem (m : Fin 5) (s : State) : Out :=
  .next (runInstr m (fun _ => copNeeds 6 2 0#14 3 0)
    (fun u t =>
      let k := (u.top 0).toNat
      let a := (u.top 1).toNat
      match masonStage m k (fun f n => .stageMortar f n a (u.top 2)) (stageMortarWord (.mason m) k a (u.top 2)) t with
      | none => t
      | some t => endInstr m ((masonAt t m).pop 3) (u.pc + 2) false 1 none t) s)

/-- A commit requested by a mason: its reply is pushed, or the mason waits for it (04 R178). -/
def masonCommit (m : Fin 5) (t tag cond : Nat) (s : State) : State :=
  match commitTxn (.mason m) t tag cond s with
  | (s, some w) => endOperation m [w] s
  | (s, none) => setMason m { masonAt s m with stall := some (.commit (Fin.ofNat 8 t) (BitVec.ofNat 16 tag)) } s

/-- Whether a bound mason holds a staging entry for a transaction (12 R476). -/
def holdsStage (s : State) (m : Fin 5) (t : Nat) : Bool :=
  (heldBy s m).any (fun h => match h.effect with
    | .stage k n _ _ => k.val == t && n == (txnAt s t).serial
    | .stageMortar k n _ _ => k.val == t && n == (txnAt s t).serial
    | _ => false)

/-- TCOMMIT (g t — r). -/
def execTcommit (m : Fin 5) (cond : Byte) (s : State) : Out :=
  .next (runInstr m (fun _ => copNeeds 6 3 (cond.setWidth 14) 2 1)
    (fun u t =>
      let k := (u.top 0).toNat
      let tag := (u.top 1).toNat % 0x10000
      let t := setMason m (u.pop 2) t
      if holdsStage t m k then
        setMason m { masonAt t m with
          stall := some (.heldCommit (Fin.ofNat 8 k) (BitVec.ofNat 16 tag) cond false) } t
      else masonCommit m k tag cond.toNat t) s)

/-- TABORT (t —): the mason's own transaction, before the freeze, ends with REQUESTER_ABORT (04 R180, R181). -/
def execTabort (m : Fin 5) (s : State) : Out :=
  .next (runInstr m (fun _ => copNeeds 6 4 0#14 1 0)
    (fun u t =>
      let k := (u.top 0).toNat
      let t := if (txnAt t k).requester = .mason m then abortTxn k Ab.requesterAbort t else t
      endInstr m ((masonAt t m).pop 1) (u.pc + 2) false 1 none t) s)

/-! ## Slot 7: external operations of mason 4 (13 R517, 02 R94 to R97) -/

/-- EXTERNAL_OPERATION f (o_1 … o_m — r_1 … r_q): one frame on MSEL1_N. -/
def execExternalOperation (f : Fin 32) (s : State) : Out :=
  let shape := getReg s (Reg.mptCopShape + f.val)
  let nin := bitsOf shape 6 4
  let nout := bitsOf shape 2 0
  .next (runInstr 4 (fun _ => copNeeds 7 f.val 0#14 nin nout)
    (fun u t =>
      let ops := (List.range nin).map (fun i => u.top (nin - 1 - i))
      let u := u.pop nin
      if !(isBound t 4) then grantPort (setMason 4 { u with stall := some (.frame f ops nout false) } t)
      else if 0 < nout then setMason 4 { u with stall := some (.heldFrame f ops nout false) } t
      else if canHold t 4 then
        let t := holdEffect 4 (.send f ops) t
        endInstr 4 u (u.pc + 2) false 1 none t
      else t) s)

/-- A frame on MSEL1_N ends: its words have passed the port, which is released (02 R86, R94). -/
def copFrameEnd (ops results : List Word) (s : State) : State :=
  s |> portFrame true (ops.flatMap (fun w => beBytes 4 w.toNat))
    |> portFrame false (results.flatMap (fun w => beBytes 4 w.toNat))
    |> releasePort

/-- The frame of mason 4 ends with the result words received; the mason goes on. -/
def endFrame (ops results : List Word) (n : Nat) (s : State) : State :=
  grantPort (endOperation 4 (results ++ List.replicate (n - results.length) 0#32) (copFrameEnd ops results s))

/-- The frame of a send released after its verdict ends. -/
def endSend (ops : List Word) (s : State) : State :=
  grantPort (copFrameEnd ops [] (setPort { s.port with sending := none } s))

/-- COPROCESSOR_READY: MDQS rises and the result words of the frame are clocked in. -/
def execCoprocessorReady (results : List Word) (s : State) : Out :=
  .next (match (masonAt s 4).stall with
    | some (.frame _ ops n true) => if results.length = n && domainOn s 9 then endFrame ops results n s else s
    | _ => match s.port.sending with
      | some (_, ops) => if results.isEmpty && domainOn s 9 then endSend ops s else s
      | none => s)

/-- COP_TIMEOUT: MDQS stays low beyond the limit since the frame began (02 R97); the results still missing are pushed as
zeros. -/
def execCopTimeout (results : List Word) (s : State) : Out :=
  .next (if !(passedUs s s.port.copNow (regBits s Reg.mptCopTimeout 9 0)) || !(domainOn s 9) then s
    else match (masonAt s 4).stall with
    | some (.frame f ops n true) =>
      if results.length ≤ n then endFrame ops results n (raiseFault 0x04 0 f.val s) else s
    | _ => match s.port.sending with
      | some (f, ops) => endSend ops (raiseFault 0x04 0 f.val s)
      | none => s)

/-! ## Effects held for a verdict (12 R476, R477) -/

/-- One held effect is applied; a staging for a transaction that has ended has none to go to (04 R160). -/
def applyHeld (h : HeldItem) (s : State) : State :=
  match h.effect with
  | .write i w => masonWrite h.mason i.toNat w s
  | .mortar a bs =>
    if bankOff s a then countBankOff s
    else if bankBusy s a then waitBank (some (.mason h.mason)) a bs (a / 4 % 0x10000) s
    else match writeWaits s (.mason h.mason) a with
    | some j => holdDest j (some (.mason h.mason)) a bs s
    | none => masonMortar h.mason a bs s
  | .stage t n i w =>
    if (txnAt s t.val).serial = n then stageReg (.mason h.mason) t.val i.toNat w s else badId (.mason h.mason) t.val s
  | .stageMortar t n a w =>
    if (txnAt s t.val).serial = n then stageMortarWord (.mason h.mason) t.val a w s else badId (.mason h.mason) t.val s
  | .send f ops => grantPort (setPort { s.port with sends := s.port.sends ++ [(f, ops)] } s)

/-- A mason goes on after its verdicts: its frame is sent, or its commit requested. -/
def goOn (m : Fin 5) (x : MasonStall) (s : State) : State :=
  match x with
  | .heldFrame f ops n _ => grantPort (setMason m { masonAt s m with stall := some (.frame f ops n false) } s)
  | .heldCommit t tag cond _ => masonCommit m t.val tag.toNat cond.toNat s
  | _ => s

/-- The effects that wait for no verdict any more are applied, in the order in which they were issued; then the masons
that waited for one go on. -/
def releaseEffects (s : State) : State :=
  let free := s.cipher.held.filter (fun h => h.jobs.isEmpty)
  let s := setCipher { s.cipher with held := s.cipher.held.filter (fun h => !h.jobs.isEmpty) } s
  let s := free.foldl (fun t h => applyHeld h t) s
  masonsAll.foldl (fun t m => releaseMason goOn m t) s

end Sys2Proof.Machine
end

