-- ==== Sys2Proof/Machine/CipherDone.lean ====
section
/-!
DEFINITION. Sys2Proof/Machine/CipherDone.lean: a cipher job finishes its blocks, and the verdict of a decryption
(12 R459, R461, R476, R477). The blocks of a job are written at the moment it finishes (notes/assumptions/24.md).
-/
namespace Sys2Proof.Machine

/-- The engine writes 16-byte blocks; a block of the provisional destination of another job is held (12 R476). -/
def engineBlocks (self a : Nat) (bs : List Byte) (s : State) : State :=
  match provisionalAt s a with
  | some j => if j.id = self then engineWrite a bs s else holdDest j none a bs s
  | none => engineWrite a bs s

/-- A finished encryption, or a CMAC made: output, tag padded with 0 to its block (12 R459). -/
def writeSealed (j : CipherJob) (o : CipherOutput) (s : State) : State :=
  let s := if 0 < j.destLen then engineWrite j.dst o.out s else s
  if 4 ≤ j.mode then engineBlocks j.id j.tagAddr (padTo 16 o.tag) s else s

/-- The verdict is good: held effects apply, the destination is final, its held writes follow, and the record is OK
(12 R476, R477). -/
def goodVerdict (j : CipherJob) (s : State) : State :=
  s |> settleHeld j.id true |> setJob { j with phase := .waiting } |> releaseDest j.id |> releaseEffects
    |> cipherEnd j Cs.ok j.blocks

/-- The verdict is bad: the implicit transaction aborts with TAG_FAIL, and the record says so (12 R477). -/
def badVerdict (j : CipherJob) (s : State) : State :=
  let s := abandonDecrypt j s
  let s := if j.provReads ≠ 0 then raiseEvent 0x0A 1 s else s
  s |> countReg Reg.cphTagFails 1 |> countReg Reg.cphProvReads j.provReads |> cipherEnd j Cs.tagFail j.blocks

/-- A job meets an uncorrectable or poisoned input word: its destination is zero-filled, no tag is written (12 R461). -/
def poisonedJob (j : CipherJob) (blocks : Nat) (s : State) : State :=
  let s := if j.decrypt then abandonDecrypt j s else zeroDest j s
  cipherEnd j Cs.poison blocks s

/-- A job has computed `o` from its inputs. -/
def jobComputed (j : CipherJob) (o : CipherOutput) (s : State) : State :=
  if o.poison then poisonedJob j o.blocks s
  else if !j.decrypt then cipherEnd j Cs.ok j.blocks (writeSealed j o s)
  else
    let s := if 0 < j.destLen then engineWrite j.dst o.out s else s
    if j.mode < 4 then goodVerdict j s
    else setJob { j with phase := .verdict, good := o.good } s

/-- CIPHER_JOB_DONE (12 R458, R461, 01 R45, R47): the running job of a class finishes its blocks, when it has had its cycles and
is the next to finish. A
decryption with a tag then waits for its verdict; any other job delivers its record. -/
def execCipherJobDone (host : Bool) (s : State) : Out :=
  .next (match runningJob s host with
    | some j =>
      if domainOn s 2 && !(testRuns s 0x0A) && finishesNext s host j && jobTimed s j && !(jobHeld s j) then
        let s := settleJob j (blocksDone host j s)
        let j := { j with left := 0 }
        jobComputed j (cipherOutput s j) s
      else s
    | none => s)

/-- VERDICT (12 R477): the tag check of the class's oldest finished decryption becomes known. -/
def execVerdict (host : Bool) (s : State) : Out :=
  .next (match s.cipher.jobs.find? (fun j => j.kind == .cipher && j.phase == .verdict && (isMason j.requester != host)) with
    | some j => if j.good then goodVerdict j s else badVerdict j s
    | none => s)

end Sys2Proof.Machine
end

