-- ==== Sys2Proof/Machine/PowerRun.lean ====
section
/-!
DEFINITION. Sys2Proof/Machine/PowerRun.lean: the register boot image, domains that become ready, Stop and waking from it,
the boot, Recovery and the generation of the identity (15 R572, R575 to R577; 18 R626 to R632).
-/
namespace Sys2Proof.Machine

/-! ## The register boot image (18 R628, R629) -/

/-- Address of the image. -/
def bootImageAt : Nat := 0x0C0000

/-- COUNT of the image. -/
def bootImageCount (s : State) : Nat := leNat (mramBytes s (bootImageAt + 4) 2)

/-- An uncorrectable word in the image: its header, or the entries a good header counts. -/
def bootImagePoison (s : State) : Bool :=
  mramRangePoison s bootImageAt 16
    || (leNat (mramBytes s bootImageAt 4) == 0x494D4752 && bootImageCount s ≤ 8190
      && mramRangePoison s bootImageAt (16 + 8 * bootImageCount s))

/-- The image's state as DEV.STATUS.IMAGE shows it: 0 none, 1 good, 2 BAD. -/
def bootImageState (s : State) : Nat :=
  let n := bootImageCount s
  let zero := fun (at_ k : Nat) => (mramBytes s (bootImageAt + at_) k).all (· == 0#8)
  if bootImagePoison s then 2
  else if leNat (mramBytes s bootImageAt 4) = 0 then 0
  else if leNat (mramBytes s bootImageAt 4) ≠ 0x494D4752 ∨ n = 0 ∨ 8190 < n ∨ zero 6 2 = false ∨ zero 12 4 = false then 2
  else if leNat (mramBytes s (bootImageAt + 8) 4) ≠ (crc32c (mramBytes s (bootImageAt + 16) (8 * n))).toNat then 2
  else if (List.range n).all (fun i => zero (18 + 8 * i) 2) then 1 else 2

/-- The entries of a good image: register index and value. -/
def bootImageEntries (s : State) : List (Nat × Word) :=
  (List.range (bootImageCount s)).map (fun i =>
    let b := mramBytes s (bootImageAt + 16 + 8 * i) 8
    (leNat (b.take 2), BitVec.ofNat 32 (leNat (b.drop 4))))

/-- Whether an entry is refused (18 R629): no RW or RWL field there, or a host write of those fields would be refused. -/
def imageRefused (s : State) (i : Nat) (w : Word) : Bool :=
  !(inDirectory (i / 256)) || imageMask i == 0#32 || (writeRefusal .host s i (w &&& imageMask i)).isSome

/-- One entry is applied, or refused and counted. -/
def imageEntry (e : Nat × Word) (s : State) : State :=
  if imageRefused s e.1 e.2 then setBoot { s.bootUnit with rejects := min 8191 (s.bootUnit.rejects + 1) } s
  else if debugBars s e.1 then s
  else applyWrite .host e.1 (e.2 &&& imageMask e.1) s

/-- The entries for the pages that satisfy `f` are applied, in order: an image found BAD is not applied before the next
boot (17 R613). -/
def applyBootImage (f : Nat → Bool) (s : State) : State :=
  if s.bootUnit.image = 2 then s
  else
    let st := bootImageState s
    let s := setBoot { s.bootUnit with image := st } s
    if st ≠ 1 then s else ((bootImageEntries s).filter (fun e => f (e.1 / 256))).foldl (fun t e => imageEntry e t) s

/-! ## A domain becomes ready (15 R572) -/

/-- What the blocks of domain `d` do as it becomes ready. -/
def startBlocks (d : Nat) (s : State) : State :=
  match d with
  | 2 => setIdent { s.ident with rngOk := true } s
  | 3 => let s := headArray (setFld { s.fld with cycleOff := (2 ^ 32 - s.now % 2 ^ 32) % 2 ^ 32 } s)
         if s.clocks.plumb = .locked then fieldLocked s else s
  | 4 => engineWrite 0xFF000 (List.replicate 4 0#8) s
  | 5 => frontEndOn s
  | 6 => { s with bcast := { s.bcast with onNow := s.now } }
  | 7 => setRadio { s.radio with onNow := s.now } s
  | 9 => setRegBits Reg.twnStatus 31 28 (twinRest s) s
  | _ => s

/-- Domain `d` is ready: its blocks start, its boot-image entries are applied, in PD7 the first calibration runs
(10 R422), and the writes that waited are applied. -/
def domainStarts (d : Nat) (s : State) : State :=
  let bit := BitVec.ofNat 10 (2 ^ d)
  let s := setPower { s.power with on := s.power.on ||| bit, starting := s.power.starting &&& ~~~bit } s
  let s := s |> startBlocks d |> applyBootImage (fun p => pageDomain p == d)
  let s := if d = 7 then startCal s else s
  s |> raiseEvent 0x06 0 |> releaseHeld |> powerFollow

/-- ISLAND_CLOCK (15 R558): a generator loses lock, which raises the fault, or locks again, and the writes that waited are
applied. -/
def execIslandClock (island : Fin 8) (locked : Bool) (s : State) : Out :=
  .next (if live s && islandPowered s island.val && !(locked == s.clocks.islands.getLsbD island.val) then
      let s := setIsland island.val locked s
      if locked then releaseHeld s else raiseFault 0x05 1 island.val s
    else s)

/-- Whether the mason of a domain has been loaded. -/
def masonLoaded (d : Nat) (s : State) : Bool :=
  match domainMason d with
  | none => true
  | some m => (masonAt s m).state != .loading

/-- Periods of 13.56 MHz from the start of a domain's switch-on until it is ready: 2.0 ms, 60, 240, 420 µs or 2.04 ms (15
R572). -/
def readyTicks (d : Nat) : Nat :=
  match d with
  | 2 => 27120
  | 3 => 813
  | 5 => 813
  | 7 => 5695
  | 8 => 27662
  | _ => 3254

/-- DOMAIN_READY (15 R572): the domain being switched on has had its time and its mason is loaded; in PD3 the plumb line is
LOCKED, if its reference is present; in PD8 the bank is initialised. -/
def execDomainReady (d : Fin 10) (s : State) : Out :=
  .next (if live s && s.power.starting.getLsbD d.val && masonLoaded d.val s && !(d == 8 && s.mem.bank1Busy)
      && (d != 3 || plumbSettled s) && s.power.startedAt + readyTicks d.val ≤ s.now then
      domainStarts d.val s
    else s)

/-! ## Stop (15 R575 to R577) -/

/-- Enabled wake sources that have fired (15 R576): the WAKE ball, a probe hit, an alarm since STOP was accepted, and a fall of
HSEL_N while HRDY is low. -/
def wakeSources (ball hsel : Bool) (s : State) : BitVec 4 :=
  let fired := bit01 ball + 2 * bit01 (s.card.probeHit != 0#8)
    + 4 * bit01 (s.rtc.alarmFired && s.power.stopNow ≤ s.rtc.alarmNow) + 8 * bit01 hsel
  BitVec.ofNat 4 fired &&& BitVec.ofNat 4 (regBits s Reg.pwrWakeEn 3 0)

/-- Two samples of the WAKE ball, both at WAKE_LEVEL (15 R576). -/
def wakeBall (samples : BitVec 2) (s : State) : Bool := samples == (if regBit s Reg.pwrWakeEn 4 then 3#2 else 0#2)

/-- Stop entry is abandoned (15 R576): STOP ends STOP_ABORTED_WAKE, and the commands behind it go on. -/
def abandonStop (src : BitVec 4) (s : State) : State :=
  let ids := s.power.stopIds
  let s := setPower { s.power with stopIds := [], jobs := s.power.jobs.filter (fun j => j.mask != 0#10) } s
  let s := { s with phase := .run }
  let s := if src.getLsbD 3 then portSticky 9 s else s
  let s := ids.foldl (fun t id => finishCmd id 0x40 t) s
  s |> setReg Reg.pwrWakeCause (0x80000000#32 ||| src.setWidth 32) |> raiseEvent 0x06 3 |> powerFollow

/-- STOP_ENTERED (15 R575 step 4, R576): the stop image is in MRAM, the wake sources are armed, PD1 is off; a source that has
fired meanwhile abandons the entry. -/
def execStopEntered (s : State) : Out :=
  .next (match s.phase with
    | .stopEntry 3 =>
      let src := wakeSources false false s
      if src ≠ 0#4 then abandonStop src s
      else
        let s := s |> writeStopImage |> countReg Reg.pwrStops 1
        { s with phase := .stopped, card := CardUnit.reset, power := { s.power with on := 1#10, stoppedAt := mono s } }
    | _ => s)

/-- Registers kept across Stop (15 R577), and the readings of the supplies. -/
def stopKept : List Nat :=
  [Reg.pwrStops, Reg.pwrWakes, Reg.pwrDrainAborts, Reg.clkLocks, Reg.clkLosses, Reg.pwrSupply]

/-- Set the LOCK bits of PAGE_CTRL that stood before (03 R116: only a device reset clears them). -/
def keepLocks (before s : State) : State :=
  (allPages.filter (fun p => pageDomain p ≤ 1)).foldl (fun t p =>
    if regBit before (pageReg p 2) 31 then setRegBit (pageReg p 2) 31 t else t) s

/-- Timers whose EN was 1 start together (15 R577, 14 R540). -/
def timersWoken (s : State) : State :=
  (List.range 16).foldl (fun t n => if timerEn t n && !(highHalf t n) then timerStarted n t else t) s

/-- What the card-detect probe leaves at a wake (07 R315, R316). -/
def probeWoken (before : State) (src : BitVec 4) (s : State) : State :=
  let c := before.card
  let s := if src.getLsbD 1 then
      s |> setReg Reg.lpdHit (fieldWord 31 30 2 ||| fieldWord 23 16 c.probeHit.toNat ||| fieldWord 9 0 (capAt 1023 c.probeDelta))
        |> countReg Reg.lpdWakes 1 |> raiseEvent 0x16 1
    else s
  if c.probeLeft = 0#8 then s else raiseFault 0x16 0 c.probeLeft.toNat s

/-- The device in Run after a wake (15 R577): PD0 and MRAM as they were, the stop image applied, everything else as after
a reset. Mason 0 is loaded. -/
def wokenState (s : State) : State :=
  let ids := s.power.stopIds
  let s := ids.foldl (fun t id => finishCmd id Oc.done t) s
  let mine := s.doors.views.filter (fun v => v.page == 0x06 && v.cmd == 0x20 && v.outcome == Oc.done)
  let t : State := { State.reset with
    pending := s.pending
    now := s.now
    freeIndex := s.freeIndex
    phase := .run
    boot := s.boot
    rtc := { s.rtc with trimAt := s.now }
    ident := { s.ident with jobs := [], rngOk := false }
    mem := { State.reset.mem with mram := s.mem.mram, mramPoison := s.mem.mramPoison }
    power := { State.reset.power with supplyLow := s.power.supplyLow }
    bootUnit := { s.bootUnit with startDoneIds := [] }
    doors := { Doors.empty with views := mine, nextId := s.doors.nextId } }
  let t := t |> applyStopImage |> keepLocks s
  let t := stopKept.foldl (fun u i => setReg i (getReg s i) u) t
  let t := { t with host := { t.host with lanes := getReg t Reg.hptLanes } }
  t |> timersWoken |> restoreBuckets false |> resetMason 0

/-- The device wakes from Stop: the STOP commands end DONE with it, which sets DOOR_DONE (03 R118); other events start at
0, an alarm's too. -/
def wakeUp (src : BitVec 4) (s : State) : State :=
  let slept := (mono s + 2 ^ 32 - s.power.stoppedAt) % 2 ^ 32
  let t := s |> wokenState |> countReg Reg.pwrWakes 1 |> setReg Reg.pwrStopTime (BitVec.ofNat 32 slept)
    |> setReg Reg.pwrWakeCause (src.setWidth 32) |> raiseEvent 0x06 2 |> probeWoken s src
  let t := if s.power.stopIds.isEmpty then t else raiseEvent 0x06 31 t
  if src.getLsbD 3 then portSticky 9 t else t

/-- Enabled wake sources fire (15 R576, R577). During Stop entry they abandon it; in Stop the device wakes. `good` says
that mason 0's program loads; it fails only where MRAM holds an uncorrectable word of the firmware (18 R627). -/
def wakeFires (ball hsel good : Bool) (s : State) : State :=
  match s.phase with
  | .stopEntry n =>
    let src := wakeSources ball (hsel && n == 3) s
    if src = 0#4 then s else abandonStop src s
  | .stopped =>
    let src := wakeSources ball hsel s
    if src = 0#4 then s
    else if (firmwareBad s).isSome && !good then failedBoot s
    else wakeUp src s
  | _ => s

/-- WAKE: two samples of the ball, and whether HSEL_N falls. -/
def execWake (samples : BitVec 2) (hsel good : Bool) (s : State) : Out := .next (wakeFires (wakeBall samples s) hsel good s)

/-! ## The boot (18 R626, R627) -/

/-- BOOT_FAILS as MRAM holds it: an uncorrectable word reads as 0 and is rewritten (17 R613). -/
def loadFails (s : State) : State :=
  let s := if mramRangePoison s 0x0DB000 4 then s |> mramRewrite 0x0DB000 (leBytes 4 0) |> persistFault 0x0DB000 else s
  setBoot { s.bootUnit with bootFails := mramWord s 0x0DB000 % 4 } s

/-- What MRAM gives the registers at each reset (11 R445, 12 R484), and the buckets' ageing (11 R449). -/
def loadPersistent (s : State) : State :=
  let s := s |> loadRegion |> loadOem |> restoreBuckets false
  if s.ident.locks.getLsbD 2 then lockRegion s else s

/-- Recovery (18 R631): with a valid package mason 0 runs from 0x0010, else it is held in reset. -/
def bootRecovery (package : Bool) (s : State) : State :=
  let s := { s with phase := .run, boot := .recovery }
  let s := loadPersistent s
  if package then
    let s := resetMason 0 s
    setMason 0 { masonAt s 0 with pc := 0x10 } s
  else setBoot { s.bootUnit with recovery := 3 } s

/-- The identity after a boot (18 R632, 12 R480, 17 R613): an uncorrectable region is FAILED; an empty one, an
interrupted generation and a failed one are generated, for which PD2 is switched on. -/
def bootIdentity (s : State) : State :=
  if mramRangePoison s 0x0D9000 4096 then s |> setIdent { s.ident with state := 4 } |> persistFault 0x0D9000
  else if s.ident.state = 2 ∨ s.ident.state = 3 then s
  else
    s |> setIdent { s.ident with state := 1 } |> setBoot { s.bootUnit with idGen := true } |> startDomain 2

/-- A normal boot to Start-up (18 R626). -/
def bootNormal (s : State) : State :=
  let s := { s with phase := .run, boot := .startUp }
  let s := s |> resetMason 0 |> loadPersistent
  let s := if bootImagePoison s then persistFault bootImageAt s else s
  s |> applyBootImage (fun p => pageDomain p ≤ 1 || !(inDirectory p)) |> bootIdentity

/-- Whether bytes of flash from 0x00_0000 on are a recovery package (18 R631), laid out as 13 R520: MAGIC, the count of
program words, CHECK over their halfwords, 0. -/
def packageGood (flash : List Byte) : Bool :=
  let n := leNat ((flash.drop 4).take 2)
  let program := (flash.drop 16).take (2 * n)
  leNat (flash.take 4) == 0x52435650 && 1 ≤ n && n ≤ 16384 && program.length == 2 * n
    && leNat ((flash.drop 8).take 4) == (crc32c program).toNat && ((flash.drop 12).take 4).all (· == 0#8)

/-- RESET_END (18 R626): the reset ends and the device boots. `boot0` is the level of BOOT0, sampled after the resets of
CAUSE 1 to 3; `good` says that the firmware region passes its check and mason 0 loads; `flash` is what the boot logic reads
there for Recovery. -/
def execResetEnd (boot0 good : Bool) (flash : List Byte) (s : State) : Out :=
  .next (if s.phase ≠ .inReset then s
    else
      let b := s.bootUnit
      let s := { s with rtc := { s.rtc with trimAt := s.now } }
      let s := setBoot { b with holdReset := false, boot0 := boot0 && b.cause ≤ 3 } s |> loadFails
      if s.bootUnit.boot0 || s.bootUnit.bootFails == 3 then bootRecovery (packageGood flash) s
      else if !good then failedBoot s
      else bootNormal s)

/-- RECOVERY_OUTCOME (18 R631): the package reports; a DONE has written a new firmware region. -/
def execRecoveryOutcome (done : Bool) (s : State) : Out :=
  .next (if !(live s) || s.boot != .recovery || s.bootUnit.recovery != 0 then s
    else if done then
      let s := setBoot { s.bootUnit with recovery := 1, fwIndex := s.bootUnit.fwIndex + 1 } s
      setMem { s.mem with mramPoison := s.mem.mramPoison.filter (fun w => 0x080000 ≤ 8 * w) } s
    else setBoot { s.bootUnit with recovery := 2 } s)

/-! ## The identity (18 R632) -/

/-- ID_READY (18 R632): generation ends, with a key pair unless the random source has failed. A START_DONE that waited
runs, and PD2 goes off unless it was requested. -/
def execIdReady (ok : Bool) (s : State) : Out :=
  .next (if !(s.bootUnit.idGen) || !(domainOn s 2) then s
    else
      let good := ok && s.ident.rngOk
      let s := if good then
          s |> setIdent { s.ident with state := if s.ident.certLen = 0 then 2 else 3, keyIndex := s.ident.keyIndex + 1 }
            |> raiseEvent 0x00 0
        else setIdent { s.ident with state := 4 } s
      let wait := s.bootUnit.startDoneIds
      let s := setBoot { s.bootUnit with idGen := false, startDoneIds := [] } s
      let s := wait.foldl (fun t id => startDone id t) s
      if s.power.req.getLsbD 2 then powerFollow s else addPowerJob { id := 0, turnOn := false, mask := 4#10 } s)

end Sys2Proof.Machine
end

