-- ==== Sys2Proof/Machine/HostPort.lean ====
section
/-!
DEFINITION. Sys2Proof/Machine/HostPort.lean: the frames of the host port (02 R49 to R83; 03 R106 to R111; 14 R543 stream
0): reads and writes of registers and of the Mortar window, transactions, STATUS, QPOP, busy reads and frames cut short.
-/
namespace Sys2Proof.Machine

/-! ## A frame begins and ends -/

/-- A frame begins (02 R60): a read still held is given up, and the lane settings are those in force. -/
def frameBegin (s : State) : State :=
  let s := if s.host.held.isSome then chkFrameEnd 0 s else s
  { s with host := { lanes := getReg s Reg.hptLanes, held := none, heldNow := s.host.heldNow, reply := none } }

/-- A frame ends, unless it is held busy. -/
def frameDone (s : State) : State := if s.host.held.isSome then s else chkFrameEnd 0 s

/-- Whether the port can accept a frame (02 R57, R59): not in reset, in Stop or waking from it, nor in step 3 of its entry. -/
def hostReady (s : State) : Bool :=
  match s.phase with
  | .run => true
  | .stopEntry n => n ≤ 2
  | _ => false

/-- The host's words that are posted and not yet applied (02 R77): register writes and Mortar writes that are held. -/
def postedWords (s : State) : Nat :=
  (s.txn.held.filter (fun h => h.requester == .host)).length
    + (s.mem.waits.filter (fun e => e.who == some .host)).length
    + (s.cipher.dest.filter (fun d => d.who == some .host)).length

/-- Words the port holds posted (02 R77). -/
def postedLimit : Nat := 16

/-- The level of HRDY (02 R57): high while the port can accept a frame; low while it stretches one, a read whose word is not
ready (R72) or, in a write data phase, while the posted words fill the buffer (R78). -/
def hrdy (s : State) (writing : Bool) : Bool :=
  hostReady s && s.host.held.isNone && !(writing && postedLimit ≤ postedWords s)

/-- A host frame (02 R57 to R59): served while the port can accept it; in step 3 of Stop entry and in Stop it is discarded,
and its falling edge on HSEL_N may wake the device; in reset the spec leaves its behaviour undefined (R58). -/
def hostFrame (f : State → State) (s : State) : Out :=
  if hostReady s then .next (s |> frameBegin |> f |> frameDone)
  else if s.phase = .inReset then .fault .frameWhileNotReady
  else .next (wakeFires false true true s)

/-- The device sends a status byte and words (02 R70); read words pass the host port (14 R543). -/
def sendWords (status : Byte) (ws : List Word) (s : State) : State :=
  let r := s.host.reply.getD { statuses := [], words := [] }
  let t : State := { s with host := { s.host with reply := some { statuses := r.statuses ++ [status], words := r.words ++ ws } } }
  chkWords 0 2 ws t

/-- Status bytes (02 R70). -/
abbrev St.ready : Byte := 0x3C#8
abbrev St.busy : Byte := 0xA5#8
abbrev St.error : Byte := 0x96#8

/-- A frame is held (02 R72): HRDY goes low, the status slots carry 0xA5, and the busy time starts (R74). -/
def holdFrame (h : HeldFrame) (why : HoldReason) (s : State) : State :=
  let t := sendWords St.busy [] s
  { t with host := { t.host with held := some (h, why), heldNow := s.now } }

/-- The held frame goes on. -/
def unholdFrame (s : State) : State := { s with host := { s.host with held := none } }

/-! ## What a word of a frame addresses (02 R62, 03 R106 to R111) -/

/-- A register, with whether its offset has passed 0xFF; a Mortar host word with the index recorded for it; a word beyond
the Mortar window. -/
inductive HostItem where
  | reg (i : Nat) (past : Bool)
  | mem (a idx : Nat)
  | beyond
  deriving DecidableEq, Repr

/-- Word `k` of a frame on `addr`: of the Mortar window (MWIN) or of a page; page 0x3F is part of the window. -/
def hostItem (window : Bool) (base addr k : Nat) : HostItem :=
  if window then (if 0xFFFF < addr + k then .beyond else .mem (base + 4 * (addr + k)) (addr + k))
  else
    let p := addr / 256
    let off := addr % 256 + k
    if p = 0x3F then (if 0xFF < off then .beyond else .mem (base + 4 * off) (0x3F00 + off))
    else .reg (p * 256 + min off 0xFF) (0xFF < off)

/-- DEV.MWIN_BASE.BASE. -/
def mwinBase (s : State) : Nat := regBits s Reg.devMwinBase 20 0

/-! ## Reads (02 R61 to R76) -/

/-- The cause of an error status at an item, with its index (02 R75); a page that is off goes before the debug lock
(notes/assumptions/52.md). -/
def itemCause (s : State) (x : HostItem) : Option (Nat × Nat) :=
  match x with
  | .reg i _ =>
    if !(inDirectory (i / 256)) then some (2, i)
    else if readWaits s i then none
    else if !(shadowed i) && !(pageUp s (i / 256)) then some (1, i)
    else if debugHides s i then some (4, i)
    else none
  | _ => none

/-- Why a read of an item is held busy at present (02 R76), the host's own held writes to the island among the reasons (01
R25). -/
def itemHeld (s : State) (x : HostItem) : Option HoldReason :=
  match x with
  | .reg i past =>
    if past || shadowed i then none
    else if readWaits s i then some .notReady
    else if crossingWaits s .host i then some .crossing
    else if applyingReg s i then some .applyWindow
    else none
  | .mem a _ =>
    if mortarEnd ≤ a || bankOff s a then none
    else if bankBusy s a then some .bank
    else if applyingWord s (a / 4 * 4) then some .applyWindow
    else if (provisionalAt s a).isSome || (heldInBank s .host a).isSome then some .provisional
    else none
  | .beyond => none

/-- A poisoned word was met, with its index (02 R65). -/
def hostPoison (idx : Nat) (s : State) : State := s |> portSticky 8 |> portError 0x10 idx

/-- The word read at an item. -/
def itemRead (x : HostItem) (s : State) : State × Word :=
  match x with
  | .reg i past =>
    if past || ((pageRow (i / 256)).map (fun r => decide (r.last < i % 256))).getD true then (portSticky 1 s, 0#32)
    else (useFree (readEffect .host i s), readWord s 0 i)
  | .mem a idx =>
    if mortarEnd ≤ a then (portSticky 1 s, 0#32)
    else if bankOff s a then (s |> countBankOff |> hostPoison idx, 0#32)
    else
      let r := halfRead a s
      (if r.2.2 then hostPoison idx r.1 else r.1, r.2.1)
  | .beyond => (portSticky 1 s, 0#32)

/-- Words read one after the other. -/
def itemsRead (xs : List HostItem) (s : State) : State × List Word :=
  xs.foldl (fun r x =>
    let q := itemRead x r.1
    (q.1, r.2 ++ [q.2])) (s, [])

/-- The sticky bit of an error cause (02 R75). -/
def causeBit (cause : Nat) : Nat :=
  match cause with
  | 1 => 3
  | 3 => 5
  | _ => 4

/-- An error status: its cause is recorded, and zeros follow for the words still clocked (02 R70). -/
def sendError (cause idx left : Nat) (s : State) : State :=
  s |> portSticky (causeBit cause) |> portError cause idx |> sendWords St.error (List.replicate left 0#32)

/-- The first of a list. -/
def firstSome {α β : Type} (f : α → Option β) (xs : List α) : Option β :=
  match xs with
  | [] => none
  | x :: t => match f x with
    | some y => some y
    | none => firstSome f t

/-- Whether an item lies where there is nothing to fetch: behind its page, or beyond the Mortar window. -/
def HostItem.outside (x : HostItem) : Bool :=
  match x with
  | .reg _ past => past
  | .mem a _ => mortarEnd ≤ a
  | .beyond => true

/-- The words the device fetches before the status byte at word `k` (02 R73): all up to the next status position that there
are, and those the host clocks. -/
def groupItems (window : Bool) (base addr k left : Nat) : List HostItem :=
  let size := 8 - (addr % 256 + k) % 8
  ((List.range size).filter (fun j => j < left || !((hostItem window base addr (k + j)).outside))).map
    (fun j => hostItem window base addr (k + j))

/-- Read `left` words from word `k` of a frame on, in the groups between two status positions (02 R71, R73, R107). A group
is fetched whole, and its words the host clocks are sent. -/
def readWords (fuel : Nat) (window : Bool) (base addr k left : Nat) (s : State) : State :=
  match fuel with
  | 0 => s
  | n + 1 =>
    if left = 0 then s
    else
      let xs := groupItems window base addr k left
      match firstSome (itemCause s) xs with
      | some (cause, idx) => sendError cause idx left s
      | none =>
        match firstSome (itemHeld s) xs with
        | some why => holdFrame (.read window base (addr + k) left) why s
        | none =>
          let r := itemsRead xs s
          let size := 8 - (addr % 256 + k) % 8
          readWords n window base addr (k + size) (left - size) (sendWords St.ready (r.2.take left) r.1)

/-- RD: one register (02 R61). -/
def readOne (i : Nat) (s : State) : State :=
  let x : HostItem := .reg i false
  match itemCause s x with
  | some (cause, idx) => sendError cause idx 1 s
  | none => match itemHeld s x with
    | some why => holdFrame (.one i) why s
    | none =>
      let r := itemRead x s
      sendWords St.ready [r.2] r.1

/-- A read frame: where its first word is not ready by the status position it is held busy (02 R72). -/
def readFrame (window : Bool) (addr count : Nat) (late : Bool) (s : State) : State :=
  let base := mwinBase s
  let first := hostItem window base addr 0
  if late && (itemCause s first).isNone && 0 < count then holdFrame (.read window base addr count) .crossing s
  else readWords count window base addr 0 count s

/-- A read reply that fails its parity in the chain from another island (14 R553): counted, and sent as poisoned; what the
data then holds is free. -/
def parityRead (i : Nat) (s : State) : State :=
  s |> countReg Reg.itgChainParity 1 |> hostPoison i |> sendWords St.ready [freeWordOf s] |> useFree

/-- Whether the accesses to a register pass a chain: its page lies outside the Keystone island, and is there. -/
def chained (s : State) (i : Nat) : Bool :=
  !(shadowed i) && pageUp s (i / 256) && (match pageRow (i / 256) with
    | some r => r.cls != 1
    | none => false)

/-- The command codes of 02 R61. -/
def hostCodes : List Byte :=
  [0x10#8, 0x11#8, 0x20#8, 0x21#8, 0x22#8, 0x30#8, 0x31#8, 0x32#8, 0x40#8, 0x50#8, 0x70#8, 0x71#8]

/-- RD (02 R61): one register; any other code stands for a frame with a reserved code, which is ignored. -/
def execRd (code : Byte) (addr : RegIndex) (late badParity : Bool) (s : State) : Out :=
  hostFrame (fun s =>
    if code = 0x10#8 then
      let i := addr.toNat
      if badParity && !late && chained s i && (itemCause s (.reg i false)).isNone && (itemHeld s (.reg i false)).isNone
      then parityRead i s
      else if late && (itemCause s (.reg i false)).isNone then holdFrame (.one i) .crossing s
      else readOne i s
    else if hostCodes.contains code then s
    else portSticky 0 s) s

/-- RD_INC (02 R62). -/
def execRdInc (addr : RegIndex) (count : Nat) (late : Bool) (s : State) : Out :=
  hostFrame (readFrame false addr.toNat count late) s

/-- MWIN_RD (02 R62, R64). -/
def execMwinRd (addr : RegIndex) (count : Nat) (late : Bool) (s : State) : Out :=
  hostFrame (readFrame true addr.toNat count late) s

/-- STATUS (02 R63). -/
def execStatus (s : State) : Out :=
  hostFrame (fun s => sendWords St.ready
    [fieldWord 31 16 (bitsOf s.host.lanes 15 0) ||| fieldWord 15 0 (regBits s Reg.hptStatus 15 0)] s) s

/-! ## QPOP (02 R68, R69) -/

/-- The header word of an entry. -/
def popHeader (poison : Bool) (e : QEntry) : Word :=
  fieldWord 31 31 1 ||| fieldWord 30 30 (bit01 poison) ||| fieldWord 23 16 (e.seq % 256) ||| fieldWord 15 0 e.words.length

/-- Entries are sent until `left` words are clocked; one leaves the queue with its last payload word. `bad` says that a
word of the first one fails its parity (14 R557): the entry is delivered POISON, its payload free. -/
def popEntries (fuel pop left : Nat) (bad : Bool) (s : State) : State :=
  match fuel with
  | 0 => s
  | n + 1 =>
    if left = 0 then s
    else
      match (queueAt s pop).entries with
      | [] => popEntries n pop (left - 1) bad (sendWords St.ready [0#32] s)
      | e :: _ =>
        let size := e.words.length
        let words := if bad then (List.range size).map (fun k => Config.freeWord (s.freeIndex + k)) else e.words
        let s := if bad then s |> useFreeN size |> countReg Reg.itgQueueParity 1 else s
        let s := sendWords St.ready ((popHeader (e.poison || bad) e :: words).take left) s
        if size + 1 ≤ left then popEntries n pop (left - (size + 1)) false (queuePop pop s) else s

/-- The words of a QPOP of queue `pop`: an error status where the page is off. -/
def popFrame (pop clocked : Nat) (bad : Bool) (s : State) : State :=
  if !(pageUp s (pop / 256)) then sendError 1 pop clocked s else popEntries clocked pop clocked bad s

/-- QPOP: `clocked` words are clocked out in full, headers included. An address that is no POP register is judged before its
page (02 R75; notes/assumptions/52.md). -/
def execQpop (addr : RegIndex) (clocked : Nat) (badParity : Bool) (s : State) : Out :=
  hostFrame (fun s =>
    let pop := addr.toNat
    if queueCap pop = 0 then sendError 5 pop clocked s
    else if readWaits s pop then holdFrame (.pop pop clocked) .notReady s
    else if crossingWaits s .host pop then holdFrame (.pop pop clocked) .crossing s
    else popFrame pop clocked badParity s) s

/-! ## Held frames (02 R72, R74) -/

/-- Whether what a held frame waits for is still not there. -/
def stillBusy (s : State) (h : HeldFrame) : Bool :=
  match h with
  | .commit _ reply => reply.isNone
  | .pop addr _ => readWaits s addr || crossingWaits s .host addr
  | .one i => (itemHeld s (.reg i false)).isSome
  | .read window base addr left => (firstSome (itemHeld s) (groupItems window base addr 0 left)).isSome

/-- READ_READY (02 R72): the word a held frame waits for is ready; HRDY rises, 0x3C is sent and the words follow. -/
def execReadReady (s : State) : Out :=
  .next (match s.host.held with
    | none => s
    | some (h, _) =>
      if stillBusy s h then s
      else match h with
      | .pop addr clocked => s |> unholdFrame |> popFrame addr clocked false |> frameDone
      | .commit _ reply => s |> unholdFrame |> sendWords St.ready reply.toList |> frameDone
      | .one i => s |> unholdFrame |> readOne i |> frameDone
      | .read window base addr left => s |> unholdFrame |> readWords left window base addr 0 left |> frameDone)

/-- Whether the held status slot has been busy for longer than HPT.BUSY_LIMIT.LIMIT µs (02 R74). -/
def busyExpired (s : State) : Bool :=
  regBits s Reg.hptBusyLimit 9 0 * 339 < (s.now - s.host.heldNow) * 25

/-- BUSY_TIMEOUT (02 R74): the held status slot has reached the busy limit; what arrives later is discarded, and a commit
request stands. The index is that of the first word of the group; for a commit the spec names none, so it is free
(notes/assumptions/52.md). -/
def execBusyTimeout (s : State) : Out :=
  .next (match s.host.held with
    | none => s
    | some (h, _) =>
      let t := unholdFrame s
      if !(busyExpired s) then s
      else match h with
      | .commit _ _ => t |> sendError 3 ((freeWordOf t).toNat % 65536) 1 |> useFree |> frameDone
      | .pop addr clocked => t |> sendError 3 addr clocked |> frameDone
      | .one i => t |> sendError 3 i 1 |> frameDone
      | .read window base addr left =>
        let idx := match hostItem window base addr 0 with
          | .reg i _ => i
          | .mem _ k => k
          | .beyond => addr
        t |> sendError 3 idx left |> frameDone)

/-! ## Writes (02 R61 to R64, R77, R78) -/

/-- The host writes a Mortar host word: held while its bank is re-initialised (01 R30) and where it is provisional (12 R476),
discarded where it is poisoned. -/
def hostMortar (a idx : Nat) (w : Word) (s : State) : State :=
  if mortarEnd ≤ a then portSticky 2 s
  else if bankOff s a then countBankOff s
  else if bankBusy s a then waitBank (some .host) (a / 4 * 4) (leBytes 4 w.toNat) idx s
  else match writeWaits s .host a with
  | some j => holdDest j (some .host) (a / 4 * 4) (leBytes 4 w.toNat) s
  | none =>
    let r := halfWrite a w s
    if r.2 then hostPoison idx r.1 else r.1

/-- A written word reaches its item. -/
def itemWrite (x : HostItem) (w : Word) (s : State) : State :=
  match x with
  | .reg i past =>
    if !(inDirectory (i / 256)) then portSticky 4 s
    else if past && pageUp s (i / 256) && !(debugBars s i) then refuseWrite .host i 4 s
    else directWrite .host i w s
  | .mem a idx => hostMortar a idx w s
  | .beyond => portSticky 2 s

/-- Words of a write frame pass the port one after the other, each posted and handed to `f` with its number. A word clocked
while HRDY is low is discarded with every later one of the frame (02 R78): that is so while the buffer is full, and from
word `accepted` on, the first the host clocked with HRDY low, if the `before` words held as the frame began and those
posted since can have filled it (notes/assumptions/53.md). -/
def postWords (f : Nat → Word → State → State) (before accepted k : Nat) (words : List Word) (s : State) : State :=
  match words with
  | [] => s
  | w :: t =>
    if !(hrdy s true) || (accepted ≤ k && postedLimit ≤ before + k) then portSticky 6 s
    else postWords f before accepted (k + 1) t (s |> chkWords 0 1 [w] |> f k w)

/-- The words of a write frame to registers or the Mortar window. -/
def writeFrame (window : Bool) (addr : Nat) (words : List Word) (accepted : Nat) (s : State) : State :=
  let base := mwinBase s
  postWords (fun k w => itemWrite (hostItem window base addr k) w) (postedWords s) accepted 0 words s

/-- WR (02 R61). A poisoned register write is discarded and counted (14 R553). -/
def execWr (addr : RegIndex) (word : Word) (overrun badParity : Bool) (s : State) : Out :=
  hostFrame (fun s =>
    if badParity && !overrun && chained s addr.toNat then s |> chkWords 0 1 [word] |> countReg Reg.itgChainParity 1
    else writeFrame false addr.toNat [word] (if overrun then 0 else 1) s) s

/-- WR_INC (02 R62). -/
def execWrInc (addr : RegIndex) (words : List Word) (accepted : Nat) (s : State) : Out :=
  hostFrame (writeFrame false addr.toNat words accepted) s

/-- MWIN_WR (02 R62, R64). -/
def execMwinWr (addr : RegIndex) (words : List Word) (accepted : Nat) (s : State) : Out :=
  hostFrame (writeFrame true addr.toNat words accepted) s

/-! ## Transactions (02 R66, R67; 04 R152 to R161, R178 to R181) -/

/-- An identifier byte with reserved bits set makes the frame ignored (02 R67). -/
def badIdent (b : Byte) : Bool := 8 ≤ b.toNat

/-- One word of a WR_TXN frame is staged: on page 0x3F into the Mortar entries (04 R161). -/
def stageWord (t base addr k : Nat) (w : Word) (s : State) : State :=
  match hostItem false base addr k with
  | .reg i _ => stageReg .host t i w s
  | .mem a _ => stageMortarWord .host t a w s
  | .beyond => stageMortarWord .host t mortarEnd w s

/-- WR_TXN. -/
def execWrTxn (ident : Byte) (addr : RegIndex) (words : List Word) (accepted : Nat) (s : State) : Out :=
  hostFrame (fun s =>
    if badIdent ident then portSticky 0 s
    else
      let base := mwinBase s
      postWords (stageWord ident.toNat base addr.toNat) (postedWords s) accepted 0 words s) s

/-- The reply word of TXN_BEGIN (02 R66). -/
def beginReply (reason : Nat) (id : Option Nat) : Word :=
  match id with
  | some k => fieldWord 31 31 1 ||| fieldWord 2 0 k
  | none => fieldWord 23 16 reason

/-- TXN_BEGIN. -/
def execTxnBegin (s : State) : Out :=
  hostFrame (fun s =>
    let r := openTxn .host (activeSecondary s) s
    sendWords St.ready [beginReply r.2.1 r.2.2] r.1) s

/-- The commit request of a TXN_COMMIT frame: the reply word, or none while it is held busy (04 R178); an identifier with
reserved bits makes the frame ignored. -/
def hostCommit (addr : Word) (s : State) : State × Option Word :=
  commitTxn .host (bitsOf addr 31 24) (bitsOf addr 23 8) (bitsOf addr 7 0) s

/-- TXN_COMMIT. -/
def execTxnCommit (addr : Word) (s : State) : Out :=
  hostFrame (fun s =>
    if 8 ≤ bitsOf addr 31 24 then portSticky 0 s
    else
      let r := hostCommit addr s
      match r.2 with
      | some w => sendWords St.ready [w] r.1
      | none => holdFrame (.commit addr none) .applyWindow r.1) s

/-- TXN_ABORT (04 R181). -/
def execTxnAbort (ident : Byte) (s : State) : Out :=
  hostFrame (fun s =>
    if badIdent ident then portSticky 0 s
    else if stagesInto s .host ident.toNat then abortTxn ident.toNat Ab.hostAbort s
    else badId .host ident.toNat s) s

/-! ## Select released mid-word (02 R79 to R83, R102) -/

/-- The word that select cut short was not sent. -/
def cutReply (s : State) : State :=
  { s with host := { s.host with reply := s.host.reply.map (fun r => { r with words := r.words.dropLast }) } }

/-- What a frame on the host port leaves that ends part-way through a word. -/
def hostCut (frame : PartialFrame) (s : State) : State :=
  match frame with
  | .writeWords addr words => writeFrame false addr.toNat words words.length s
  | .mortarWords addr words => writeFrame true addr.toNat words words.length s
  | .staged ident words => if badIdent ident then portSticky 0 s else chkWords 0 1 words s
  | .commitReply addr => if 8 ≤ bitsOf addr 31 24 then portSticky 0 s else (hostCommit addr s).1
  | .beginReply =>
    let r := openTxn .host (activeSecondary s) s
    match r.2.2 with
    | some k => abortTxn k Ab.hostAbort r.1
    | none => r.1
  | .readData window addr whole => cutReply (unholdFrame (readFrame window addr.toNat (whole + 1) false s))
  | .oneRead addr => cutReply (unholdFrame (readOne addr.toNat s))
  | .popData addr whole =>
    if queueCap addr.toNat = 0 then sendError 5 addr.toNat whole s
    else if readWaits s addr.toNat || crossingWaits s .host addr.toNat then s
    else popFrame addr.toNat whole false s
  | _ => s

/-- A lintel or cascade frame cut short: its whole words have passed the port; the message in it is discarded
(02 R102). -/
def linkCut (stream : Nat) (frame : PartialFrame) (s : State) : State :=
  match frame with
  | .link words declared =>
    if domainOn s 9 && 32 * words.length < declared && declared ≤ 8192 then
      s |> handOver stream true declared (32 * words.length) words |> chkFrame stream 1 (wireBytes words)
    else s
  | _ => s

/-- SELECT_RELEASED_MID_WORD. -/
def execSelectReleasedMidWord (port : CoursePort) (frame : PartialFrame) (s : State) : Out :=
  match port with
  | .host => hostFrame (fun s => s |> hostCut frame |> portSticky 7) s
  | .lintel => .next (linkCut 2 frame s)
  | .cascade => .next (linkCut 3 frame s)
  | .memory => .next (match frame with
      | .link words _ => if live s then chkFrame 1 1 (wireBytes words) s else s
      | _ => s)

end Sys2Proof.Machine
end

