-- ==== Sys2Proof/Machine/MasonBits.lean ====
section
/-!
DEFINITION. Sys2Proof/Machine/MasonBits.lean: the bit space and the bit instructions (13 R496 to R498, R504, R507).
-/
namespace Sys2Proof.Machine

/-- View word `w` of mason 4 (R497). -/
def viewWord (s : State) (w : Nat) : Word :=
  match w with
  | 0 => eventLive s 0x0E
  | 1 => eventLive s 0x0F
  | 2 => eventLive s 0x30
  | 3 => eventLive s 0x2C
  | 4 => getReg s (pageReg 0x0E 4)
  | 5 => getReg s (pageReg 0x0F 4)
  | 6 => getReg s (pageReg 0x30 4)
  | 7 => getReg s (pageReg 0x2C 4)
  | 8 => irqPend s .mason4 0
  | 9 => irqPend s .mason4 32
  | _ => 0#32

/-- A bit of masons 0 to 3 that serves their firmware and is not specified: EVT, the views and the pins. -/
def bitOpen (m : Fin 5) (a : Nat) : Bool :=
  m != 4 && (a == 0x401 || (0x420 ≤ a && a < 0x80C) || (0x810 ≤ a && a < 0x81C))

/-- The value of bit `a` (R496 to R498). -/
def readBit (s : State) (m : Fin 5) (u : MasonUnit) (a : Nat) : Bool :=
  if a < 0x400 then u.bits.getLsbD a
  else if bitOpen m a then freeBit s
  else if a = 0x400 then !u.products.isEmpty
  else if a = 0x401 then masonEvt s
  else if a = 0x402 then !(boundJobs s m).isEmpty
  else if 0x420 ≤ a ∧ a < 0x800 then bitAt (viewWord s ((a - 0x420) / 32)) ((a - 0x420) % 32)
  else if 0x800 ≤ a ∧ a < 0x80C then regBit s Reg.gioIn (a - 0x800)
  else if 0x810 ≤ a ∧ a < 0x81C then u.latch.getLsbD (a - 0x810)
  else false

/-- A read of bit `a` uses a free value where the bit is not specified. -/
def readOpen (m : Fin 5) (a : Nat) (s : State) : State := if bitOpen m a then useFree s else s

/-- The word with bit `n` set to `v`. -/
def putBit {w : Nat} (x : BitVec w) (n : Nat) (v : Bool) : BitVec w :=
  if v then x ||| BitVec.ofNat w (2 ^ n) else x &&& ~~~(BitVec.ofNat w (2 ^ n))

/-- Whether bit `a` can be written: bit RAM, and the latch of mason 4. -/
def bitWritable (m : Fin 5) (a : Nat) : Bool := a < 0x400 || (m == 4 && 0x810 ≤ a && a < 0x81C)

/-- The mason with bit `a` written. -/
def putMasonBit (a : Nat) (v : Bool) (u : MasonUnit) : MasonUnit :=
  if a < 0x400 then { u with bits := putBit u.bits a v } else { u with latch := putBit u.latch (a - 0x810) v }

/-- A write-type bit instruction: `v` is written, or FAULT.BUS is raised (R498). -/
def writeBit (m : Fin 5) (a : Nat) (v : Bool) (u : MasonUnit) (s : State) : State :=
  if bitWritable m a then endInstr m (putMasonBit a v u) (u.pc + 2) false 1 none s
  else endInstr m u (u.pc + 2) false 1 none (masonFault m 1 u.pc s)

/-- The needs of a bit operation of major 0x0C. -/
def bitNeeds (op : Nat) (bit : BitVec 12) (pops pushes : Nat) : InstrNeeds :=
  { words := [opWord 0x3300 op, opWord 0 bit.toNat], pops := pops, pushes := pushes, badBit := 0x900 ≤ bit.toNat }

/-- PUSHB (— b). -/
def execPushb (m : Fin 5) (bit : BitVec 12) (s : State) : Out :=
  .next (runInstr m (fun _ => bitNeeds 0 bit 0 1)
    (fun u t => endInstr m (u.push (BitVec.ofNat 32 (bit01 (readBit t m u bit.toNat)))) (u.pc + 2) false 1 none
      (readOpen m bit.toNat t)) s)

/-- POPB (a —): bit := a[0]. -/
def execPopb (m : Fin 5) (bit : BitVec 12) (s : State) : Out :=
  .next (runInstr m (fun _ => bitNeeds 1 bit 1 0)
    (fun u t => writeBit m bit.toNat (bitAt (u.top 0) 0) (u.pop 1) t) s)

/-- SETB. -/
def execSetb (m : Fin 5) (bit : BitVec 12) (s : State) : Out :=
  .next (runInstr m (fun _ => bitNeeds 2 bit 0 0) (fun u t => writeBit m bit.toNat true u t) s)

/-- CLRB. -/
def execClrb (m : Fin 5) (bit : BitVec 12) (s : State) : Out :=
  .next (runInstr m (fun _ => bitNeeds 3 bit 0 0) (fun u t => writeBit m bit.toNat false u t) s)

/-- TGLB. -/
def execTglb (m : Fin 5) (bit : BitVec 12) (s : State) : Out :=
  .next (runInstr m (fun _ => bitNeeds 4 bit 0 0)
    (fun u t => writeBit m bit.toNat (!(readBit t m u bit.toNat)) u t) s)

/-- The XOR of the bits of a word. -/
def parityOf (w : Word) : Bool := (List.range 32).foldl (fun p i => p != bitAt w i) false

/-- PAR (a —): bit := XOR of a[31:0]. -/
def execPar (m : Fin 5) (bit : BitVec 12) (s : State) : Out :=
  .next (runInstr m (fun _ => bitNeeds 5 bit 1 0) (fun u t => writeBit m bit.toNat (parityOf (u.top 0)) (u.pop 1) t) s)

/-- BBC or BBS: branch to pc + 2 + sx(o) if the bit has the value `want`. -/
def bitBranch (m : Fin 5) (base : Nat) (want : Bool) (off : BitVec 7) (bit : BitVec 12) (s : State) : State :=
  let target := fun (u : MasonUnit) => (u.pc : Int) + 2 + off.toInt
  let taken := fun (u : MasonUnit) => bit.toNat < 0x900 && readBit s m u bit.toNat == want
  runInstr m (fun u =>
      { branchNeeds [opWord base off.toNat, opWord 0 bit.toNat] 0 true (taken u) (target u) u with badBit := 0x900 ≤ bit.toNat })
    (fun u t =>
      let t := readOpen m bit.toNat t
      if taken u then endInstr m u (target u).toNat true 2 none t else endInstr m u (u.pc + 2) false 1 none t) s

/-- BBC. -/
def execBbc (m : Fin 5) (off : BitVec 7) (bit : BitVec 12) (s : State) : Out :=
  .next (bitBranch m 0x3400 false off bit s)

/-- BBS. -/
def execBbs (m : Fin 5) (off : BitVec 7) (bit : BitVec 12) (s : State) : Out :=
  .next (bitBranch m 0x3480 true off bit s)

end Sys2Proof.Machine
end

