-- ==== Sys2Proof/Machine/RegCommands.lean ====
section
/-!
DEFINITION. Sys2Proof/Machine/RegCommands.lean: the commands that are a write or a read of one register (00 R11): header
controls, and the registers of the function pages whose write has an effect of its own. The writes are
the direct write of Machine/Commit.lean at the command's register: judged, applied, and mirrored to a twin.
-/
namespace Sys2Proof.Machine

/-! ## Any register, and the header controls (00 R11, 03 R116, R128, R144) -/

/-- REGISTER_WRITE. -/
def execRegisterWrite (req : Requester) (index : RegIndex) (word : Word) (s : State) : Out :=
  .next (issueWrite req index.toNat word s)

/-- The word of a PAGE_CTRL write that sets bit `b` and leaves ENABLE as it is. -/
def pageCtrlWord (s : State) (p b : Nat) : Word := (getReg s (pageReg p 2) &&& 1#32) ||| oneBit b

/-- SOFT_RESET (03 R116). -/
def execSoftReset (req : Requester) (page : Byte) (s : State) : Out :=
  .next (issueWrite req (pageReg page.toNat 2) (pageCtrlWord s page.toNat 1) s)

/-- LOCK (00 R11, 03 R114). -/
def execLock (req : Requester) (page : Byte) (s : State) : Out :=
  .next (issueWrite req (pageReg page.toNat 2) (pageCtrlWord s page.toNat 31) s)

/-- SNAPSHOT (03 R128): TAKE with the group. -/
def execSnapshot (req : Requester) (page : Byte) (group : Byte) (s : State) : Out :=
  .next (issueWrite req (pageReg page.toNat 0xB) (oneBit 31 ||| group.setWidth 32) s)

/-- RESULT_RELEASE (03 R144): a page without a result block has no such register. -/
def execResultRelease (req : Requester) (page : Byte) (word : Word) (s : State) : Out :=
  .next (match resultBlock page.toNat with
    | some (_, _, rel) => issueWrite req rel word s
    | none => s)

/-! ## The field (05 R205, R212) -/

/-- PATSEL. -/
def execPatsel (req : Requester) (word : Word) (s : State) : Out := .next (issueWrite req Reg.fldPatsel word s)

/-- FIELD_REQUEST: by FLD.FIELD.ON, or by a contactless job that takes or releases the field. -/
def execFieldRequest (source : FieldSource) (s : State) : Out :=
  .next (match source with
    | .register req word => issueWrite req Reg.fldField word s
    | .job holds => jobHoldsField holds s)

/-! ## The broadcast tuner (08 R322, R339; 09 R378) -/

/-- TUNE. -/
def execTune (req : Requester) (path : Fin 4) (word : Word) (s : State) : Out :=
  .next (issueWrite req (bpReg path.val Reg.bpTune) word s)

/-- ROLE. -/
def execRole (req : Requester) (path : Fin 4) (word : Word) (s : State) : Out :=
  .next (issueWrite req (bpReg path.val Reg.bpRole) word s)

/-- STREAM: `index` is that of CCD.STREAM or of a map entry. -/
def execStream (req : Requester) (index : RegIndex) (word : Word) (s : State) : Out :=
  .next (issueWrite req index.toNat word s)

/-! ## The valve link (10 R392; 11 R433, R456) -/

/-- CHANNEL. -/
def execChannel (req : Requester) (word : Word) (s : State) : Out := .next (issueWrite req Reg.vlrChannel word s)

/-- DONE_MAP. -/
def execDoneMap (req : Requester) (word : Word) (s : State) : Out := .next (issueWrite req Reg.vlqDoneMap word s)

/-- LINK_ENABLE. -/
def execLinkEnable (req : Requester) (word : Word) (s : State) : Out := .next (issueWrite req Reg.vlqCtrl word s)

/-! ## The masons (13 R499, R522) -/

/-- The register at `off` of the page of mason `m`. -/
def msReg (m : Fin 5) (off : Nat) : Nat := (0x28 + m.val) * 256 + off

/-- MASON_RESET. -/
def execMasonReset (req : Requester) (m : Fin 5) (word : Word) (s : State) : Out :=
  .next (issueWrite req (msReg m Reg.msCtrl) word s)

/-- PM_DATA: a write of the word given, or a read. -/
def execPmData (req : Requester) (m : Fin 5) (word : Option Word) (s : State) : Out :=
  .next (match word with
    | some w => issueWrite req (msReg m Reg.msPmData) w s
    | none => (readRegister req (msReg m Reg.msPmData) s).1)

/-- DM_DATA: a write of the word given, or a read. -/
def execDmData (req : Requester) (m : Fin 5) (word : Option Word) (s : State) : Out :=
  .next (match word with
    | some w => issueWrite req (msReg m Reg.msDmData) w s
    | none => (readRegister req (msReg m Reg.msDmData) s).1)

/-! ## The timers (14 R527 to R541) -/

/-- CTRL. -/
def execCtrl (req : Requester) (timer : Fin 16) (word : Word) (s : State) : Out :=
  .next (issueWrite req (timerReg timer.val 0) word s)

/-- The template offset of the register a CNT command writes. -/
def countOffset (which : TimerCount) : Nat :=
  match which with
  | .count => 1
  | .top => 2
  | .count32 => 8
  | .top32 => 11

/-- CNT: a write of CNT, TOP, CNT32 or TOP32. -/
def execCnt (req : Requester) (timer : Fin 16) (which : TimerCount) (word : Word) (s : State) : Out :=
  .next (issueWrite req (timerReg timer.val (countOffset which)) word s)

/-- CNT_READ. -/
def execCntRead (req : Requester) (timer : Fin 16) (s : State) : Out :=
  .next (readRegister req (timerReg timer.val 1) s).1

/-- CMP: a write of CMP, or of CMP32. -/
def execCmp (req : Requester) (timer : Fin 16) (wide : Bool) (word : Word) (s : State) : Out :=
  .next (issueWrite req (timerReg timer.val (if wide then 12 else 3)) word s)

/-- LINK: a write of CTRL that joins the pair or separates it and leaves the other fields. -/
def execLink (req : Requester) (timer : Fin 16) (join : Bool) (s : State) : Out :=
  .next (
    let i := timerReg timer.val 0
    let w := getReg s i &&& ~~~(oneBit 29)
    issueWrite req i (if join then w ||| oneBit 29 else w) s)

/-- GLOBAL_START. -/
def execGlobalStart (req : Requester) (mask : BitVec 16) (s : State) : Out :=
  .next (issueWrite req Reg.tmaGlobalStart (mask.setWidth 32) s)

/-- GLOBAL_STOP. -/
def execGlobalStop (req : Requester) (mask : BitVec 16) (s : State) : Out :=
  .next (issueWrite req Reg.tmaGlobalStop (mask.setWidth 32) s)

/-! ## The check-value units (14 R546, R547) -/

/-- CHECK_VALUE_CFG. -/
def execCheckValueCfg (req : Requester) (unit : Fin 4) (word : Word) (s : State) : Out :=
  .next (issueWrite req (chkReg unit.val 0) word s)

/-- VALUE: a write of VALUE, or of BYTES. -/
def execValue (req : Requester) (unit : Fin 4) (bytes : Bool) (word : Word) (s : State) : Out :=
  .next (issueWrite req (chkReg unit.val (if bytes then 7 else 5)) word s)

/-! ## The plumb line and the general-purpose balls (15 R563; 18 R650) -/

/-- PLUMB. -/
def execPlumb (req : Requester) (word : Word) (s : State) : Out := .next (issueWrite req Reg.clkPlumb word s)

/-- FUNC. -/
def execFunc (req : Requester) (ball : Fin 12) (word : Word) (s : State) : Out :=
  .next (issueWrite req (Reg.gioFunc + ball.val) word s)

end Sys2Proof.Machine
end

