-- ==== Sys2Proof/Machine/TwinMsgs.lean ====
section
/-!
DEFINITION. Sys2Proof/Machine/TwinMsgs.lean: the sealed messages of a twin pair (16 R584, R585): key confirmation,
heartbeats, the bulk transfer, mirrored transactions, valve items and records, acknowledgements and DETACH.
-/
namespace Sys2Proof.Machine

/-! ## What both sides send -/

/-- µs from now to the next valve-link slot boundary of this device (11 R433, 16 R594). -/
def slotBoundaryUs (s : State) : Nat :=
  let per := regBits s Reg.vlqTiming 31 24 * 13560
  if linkActive s && 0 < per then cyclesUs (per - ((s.now - s.link.boundaryNow) % per).toNat) else 0

/-- The body of a HEARTBEAT (16 R584), in the order of its table. -/
def heartbeatBody (s : State) : List Byte :=
  leBytes 1 (twinRole s) ++ leBytes 1 (twinState s) ++ leBytes 4 (s.twin.inCtr - 1)
    ++ (if twinRole s = 1 then leBytes 4 (slotBoundaryUs s) else [])

/-- This device's HEARTBEAT (16 R594). -/
def sendHeartbeat (s : State) : State := sendSealed 0xD3 (heartbeatBody s) s

/-- The peer was heard (16 R594, R598). -/
def peerHeard (s : State) : State := s |> setTwin { s.twin with beatNow := s.now } |> setRegBits Reg.twnStatus 7 0 0

/-! ## The bulk transfer, sent (16 R590) -/

/-- The mask of a register's RW fields. -/
def rwMask (r : RegRow) : Word :=
  r.fields.foldl (fun w f => if f.acc == .rw then w ||| maskOf f.msb f.lsb else w) 0#32

/-- The registers of a row. -/
def rowRegs (p : Nat) (r : RegRow) : List Nat := (List.range r.count).map (fun k => pageReg p (r.off + r.stride * k))

/-- The registers of a page with a RW field. -/
def pageRwRegs (p : Nat) : List Nat :=
  ((rowsHeader ++ pageRows p).filter (fun r => rwMask r != 0#32)).flatMap (rowRegs p)

/-- The RW fields of the pages that R187 mirrors, of pages that are on. -/
def bulkRegs (s : State) : List (Nat × Word) :=
  (allPages.filter (fun p => mirroredPage p && pageUp s p)).flatMap (fun p =>
    (pageRwRegs p).map (fun i => (i, getReg s i)))

/-- The parts that carry registers, at most 160 each. -/
def regParts (fuel : Nat) (es : List (Nat × Word)) : List (List Byte) :=
  match fuel with
  | 0 => []
  | n + 1 =>
    if es.isEmpty then []
    else (0#8 :: (es.take 160).flatMap (fun e => leBytes 2 e.1 ++ leBytes 4 e.2.toNat)) :: regParts n (es.drop 160)

/-- The part that carries node `n`: its entry unwrapped, with its mark, or that it is empty. -/
def nodePart (s : State) (n : Nat) : List Byte :=
  match nodeEntry s n with
  | none => 2#8 :: leBytes 2 n
  | some e => (1#8 :: leBytes 2 n ++ leBytes 2 e.addr ++ leBytes 1 e.size ++ leBytes 4 e.last
      ++ leBytes 4 (mramWord s (nodeMarkAddr n))) ++ e.key

/-- The parts of a bulk transfer, in the order of R590; their layout is the model's (notes/assumptions/16.md). -/
def bulkParts (s : State) : List (List Byte) :=
  regParts 64 (bulkRegs s) ++ (List.range 512).map (nodePart s)
    ++ (List.range 32).map (fun k => 3#8 :: slotImage k (outAt s k))
    ++ [4#8 :: s.link.dup.flatMap (fun d => leBytes 2 d.src ++ leBytes 1 d.seq ++ leBytes 4 d.counter)]
    ++ (List.range 8).map (fun i => 5#8 :: leBytes 1 i ++ (List.range 61).flatMap (fun b => leBytes 4 (bucketCharge s i b)))
    ++ [[6#8]]

/-- A bulk transfer starts (16 R590): its parts are sent, and it completes when the last is acknowledged. -/
def startBulk (s : State) : State :=
  let s := (bulkParts s).foldl (fun t b => sendSealed 0xD4 b t) s
  setTwin { s.twin with bulkDue := false, bulkCtr := some (s.twin.outCtr - 1) } s

/-! ## Acknowledgements -/

/-- The peer has everything up to counter `n` (16 R585, R590, R592): a bulk transfer whose last part it has completes;
one that is due starts once the backlog has drained; what waited for the secondary goes on. -/
def twinAcked (n : Nat) (s : State) : State :=
  let s := setTwin { s.twin with out := s.twin.out.filter (fun m => n < m.counter)
                                 queue := s.twin.queue.filter (fun m => m.kind ≤ 0xD1 || n < m.counter) } s
  let s := match s.twin.bulkCtr with
    | some c =>
      if c ≤ n then
        s |> setTwin { s.twin with bulkCtr := none } |> setRegBits Reg.twnStatus 25 25 1 |> twinEnter Tw.paired
      else s
    | none => s
  let s := if s.twin.bulkDue && s.twin.bulkCtr.isNone && backlogBytes s == 0 then startBulk s else s
  mirrorAcked s

/-! ## What each message does -/

/-- KEY_CONFIRM (16 R586 step 4): the device whose host was not asked makes its keys first. -/
def msgKeyConfirm (s : State) : State :=
  let s := if s.twin.step = 2 ∧ s.twin.becoming = 2 then makeSessionKeys s else s
  if s.twin.step ≠ 3 ∨ twinState s = Tw.refused then s
  else
    let role := s.twin.becoming
    let s := s |> twinEnter Tw.syncing |> setTwinRole role |> setRegBits Reg.twnStatus 24 24 (bit01 s.twin.auto)
    if role = 1 then startBulk s else s

/-- Clocks of 13.56 MHz that a lintel frame of `bytes` takes (02 R84, R98, R99): header, length and payload on 4 lanes. -/
def lintelFrameTime (s : State) (bytes : Nat) : Nat :=
  (6 + 2 * bytes) * regBits s Reg.twnPortCtrl 3 0 / (2 * regBits s Reg.twnPortCtrl 13 8)

/-- The secondary's slot series (16 R596): its next boundary lies `us` µs after the heartbeat of so many bytes was sent. -/
def followSeries (bytes us : Nat) (s : State) : State :=
  let next : Int := s.now + us * 339 / 25 - lintelFrameTime s bytes
  setLink { s.link with boundaryNow := next - (slotPeriod s : Nat) } s

/-- HEARTBEAT (16 R594, R596). -/
def msgHeartbeat (bytes received : Nat) (boundaryUs : Option Nat) (s : State) : State :=
  let s := s |> peerHeard |> twinAcked received
  let s := match boundaryUs with
    | some u => if twinRole s = 2 ∧ twinState s = Tw.paired then followSeries bytes u s else s
    | none => s
  sendHeartbeat s

/-- An entry for a page or bank that is off on the secondary (16 R590). -/
def mirrorDropped (n : Nat) (s : State) : State :=
  if n = 0 then s else s |> countReg Reg.twnMirrorDrops n |> setRegBits Reg.twnStatus 25 25 0

/-- The secondary's slot `k` becomes the image. -/
def imageHeld (k : Nat) (m : SlotImage) (s : State) : State :=
  let o := outAt s k
  let fresh := o.state == Sl.free && m.state != Sl.free
  let n := if fresh then s.link.order + 1 else s.link.order
  let o' : OutSlot :=
    { state := m.state, attempts := m.attempts, result := m.result, ticket := m.ticket.toNat, id := 0,
      order := if fresh then s.link.order else o.order, desc := m.desc, payload := m.payload, sealed := m.sealed,
      cancelled := false, acceptedNow := if fresh then s.now else o.acceptedNow, failedNow := s.now }
  setLink { s.link with slots := s.link.slots.set k o', order := n } s

/-- The secondary's key store entry `n`, wrapped again under its own key (16 R590). -/
def nodeHeld (n addr size : Nat) (key : List Byte) (last mark : Nat) (s : State) : State :=
  s |> nodeWrite n { addr := addr, size := size, last := last, fp := fingerprint key, key := key }
    |> mramRewrite (nodeMarkAddr n) (leBytes 4 mark) |> dropNode n

/-- Registers set on the secondary: those of pages that are off are skipped (16 R590). -/
def regsHeld (es : List (RegIndex × Word)) (s : State) : State :=
  let before := s
  let on := es.filter (fun e => mirroredPage (e.1.toNat / 256) && pageUp s (e.1.toNat / 256))
  let s := on.foldl (fun t e =>
    match rowAt e.1.toNat with
    | some (r, _) => t |> applyWrite .lintel e.1.toNat (e.2 &&& rwMask r) |> conflict e.1.toNat none
    | none => t) s
  if on.any (fun e => isRole e.1.toNat) then rolesApplied before s else s

/-- One part of a bulk transfer is applied (16 R590); the state is not SYNCED until the last. -/
def bulkApplied (part : BulkPart) (s : State) : State :=
  let open_ := fun (t : State) => setRegBits Reg.twnStatus 25 25 0 t
  match part with
  | .regs es => s |> open_ |> regsHeld es
  | .node n addr size key last mark =>
    s |> open_ |> nodeHeld n.val addr.toNat size.toNat key last.toNat mark.toNat
  | .noNode n => s |> open_ |> mramRewrite (storeAddr n.val) (List.replicate 64 0#8) |> dropNode n.val
  | .slot k m => if pageUp s 0x22 then s |> open_ |> imageHeld k.val m else open_ s
  | .cache es =>
    if pageUp s 0x22 then
      s |> open_ |> (fun t => setLink { t.link with dup := es.map (fun e =>
        { src := e.1.toNat, seq := e.2.1.toNat, counter := e.2.2.toNat }) } t)
    else open_ s
  | .bucket i b us => s |> open_ |> mramRewrite (bucketAddr i.val b.val) (leBytes 4 us.toNat)
  | .finish => s |> setRegBits Reg.twnStatus 25 25 1 |> twinEnter Tw.paired

/-- A mirrored item of the valve link (16 R591). -/
def valveApplied (item : ValveItem) (s : State) : State :=
  match item with
  | .slot k m => if pageUp s 0x22 then imageHeld k.val m s else mirrorDropped 1 s
  | .last n c => nodeAdvance n.val c.toNat s
  | .cache _ src seq c =>
    if pageUp s 0x22 then
      let dup := s.link.dup ++ [{ src := src.toNat, seq := seq.toNat, counter := c.toNat }]
      setLink { s.link with dup := dup.drop (dup.length - 64) } s
    else mirrorDropped 1 s
  | .mark n v => mramRewrite (nodeMarkAddr n.val) (leBytes 4 v.toNat) s
  | .charge i us => chargeBucket i.val us.toNat s

/-- The commit of a mirrored transaction (04 R188): IMMEDIATE, with its record under the original requester's code. -/
def commitMirrored (t : Nat) (b : MirrorTxn) (s : State) : State :=
  let x := { txnAt s t with tag := b.tag.toNat, cond := 0 }
  let s := s |> newRecord b.requester b.tag.toNat t |> setTxn t x
  if x.phase = .doomed then endTxn t 3 x.doom s else (prepareTxn t (setTxn t { x with phase := .preparing } s)).1

/-- A mirrored transaction on identifier `t` is staged and committed as one of the lintel link (04 R188); entries of a page or
bank that is off are left out (16 R590). -/
def txnHeld (t : Nat) (b : MirrorTxn) (s : State) : State :=
  let regs := b.regs.filter (fun e => mirroredPage (e.1.toNat / 256) && pageUp s (e.1.toNat / 256))
  let mortar := b.mortar.filter (fun e => e.1 < mortarEnd && !(bankOff s e.1))
  let dropped := (b.regs.length - regs.length) + (b.mortar.length - mortar.length)
  let s := mirrorDropped dropped s
  let s := regs.foldl (fun u e => stageReg .lintel t e.1.toNat e.2 u) s
  let s := mortar.foldl (fun u e => stageMortarWord .lintel t e.1 e.2 u) s
  commitMirrored t b s

/-- The words of an inventory record with TICKET 0 (16 R591, 07 R309). -/
def ticketless (words : List Word) : List Word := words.set 9 (words.getD 9 0#32 &&& 0x0000FFFF#32)

/-- A CONFIRMED time disciplines the secondary's counter (16 R591, 09 R382, R383). -/
def recordTime (words : List Word) (s : State) : State :=
  let w0 := words.getD 0 0#32
  let w2 := words.getD 2 0#32
  if bitsOf w0 31 24 = 0x41 ∧ bitsOf w0 23 22 = 1 then
    let time : Int := ((words.getD 1 0#32).toNat * 10000 + bitsOf w2 25 16 * 10 : Nat)
    (discipline (time - (counterTenths s : Nat)) (bitsOf w2 15 0 * 10 : Nat) s).1
  else s

/-- A mirrored record (16 R591). -/
def recordApplied (timeQueue : Bool) (words : List Word) (s : State) : State :=
  if timeQueue then
    if !(pageUp s 0x1D) then mirrorDropped 1 s
    else
      let s := recordTime words s
      if queueFree s Reg.ccdQPop = 0 then
        s |> setBcast { s.bcast with outcomeGap := true } |> countReg Reg.ccdDrops 1 |> raiseEvent 0x1D 4
      else
        s |> queuePush Reg.ccdQPop (markWord0 19 s.bcast.outcomeGap words)
          |> (fun t => setBcast { t.bcast with outcomeGap := false } t)
  else if !(pageUp s 0x15) then mirrorDropped 1 s
  else if queueFree s Reg.invQPop = 0 then s
  else
    let s := queuePush Reg.invQPop (ticketless words) s
    if queueCount s Reg.invQPop = regBits s Reg.invWatermark 11 0 then raiseEvent 0x15 0 s else s

/-- The secondary acknowledges what it has applied (16 R584, R585). -/
def sendAck (s : State) : State := sendSealed 0xD8 (leBytes 4 (s.twin.inCtr - 1)) s

/-- The next message in counter order is taken (16 R585). -/
def twinTaken (s : State) : State := setTwin { s.twin with inCtr := s.twin.inCtr + 1 } s

/-- A message from the primary to an active secondary is applied and acknowledged. -/
def mirrorIn (f : State → State) (s : State) : State :=
  if activeSecondary s then s |> twinTaken |> f |> sendAck else twinTaken s

/-- A mirrored transaction takes an identifier; while none is FREE the message is not taken, and comes again (04 R153,
16 R585). -/
def msgTxn (b : MirrorTxn) (s : State) : State :=
  if activeSecondary s then
    match openTxn .lintel false s with
    | (_, _, none) => s
    | (t, _, some k) => t |> twinTaken |> txnHeld k b |> sendAck
  else twinTaken s

/-- DETACH (16 R598). -/
def msgDetach (s : State) : State := if isPaired s then endPairing s else s

/-- The effect of a sealed message whose turn has come. -/
def messageTurn (c : SealedMsg) (s : State) : State :=
  match c with
  | .keyConfirm => s |> msgKeyConfirm |> twinTaken
  | .heartbeat bytes received boundary =>
    s |> twinTaken |> (fun t => if isPaired t then msgHeartbeat bytes received boundary t else t)
  | .bulk part => mirrorIn (bulkApplied part) s
  | .txn body => msgTxn body s
  | .valve item => mirrorIn (valveApplied item) s
  | .record timeQueue words => mirrorIn (recordApplied timeQueue words) s
  | .ack applied => s |> twinTaken |> (fun t => if isPaired t && twinRole t == 1 then twinAcked applied t else t)
  | .detach => s |> twinTaken |> msgDetach

/-! ## Counter order (16 R585) -/

/-- Messages held behind a gap follow once it is filled. -/
def heldTurns (fuel : Nat) (s : State) : State :=
  match fuel with
  | 0 => s
  | n + 1 =>
    match s.twin.held.find? (fun h => h.1 == s.twin.inCtr) with
    | none => s
    | some h =>
      s |> setTwin { s.twin with held := s.twin.held.filter (fun g => g.1 != h.1) } |> messageTurn h.2 |> heldTurns n

/-- Whether this device can open sealed messages: it has session keys, or is to make them. -/
def canOpen (s : State) : Bool :=
  let key := if twinRole s = 1 ∨ (twinRole s ≠ 2 ∧ s.twin.becoming = 1) then 18 else 19
  (s.twin.step == 2 && s.twin.becoming == 2) || ((slotAt s key).isSome && s.twin.step == 3)

/-- A sealed message arrives (16 R584, R585): one whose tag fails is discarded, one applied before has no effect, one
ahead of its turn is held. -/
def sealedIn (wire : LinkFrame) (counter : Nat) (good : Bool) (c : SealedMsg) (s : State) : State :=
  twinFrame wire (fun s =>
    let s := if twinState s = Tw.refused then peerHeard s else s
    if !good || !(canOpen s) || counter < s.twin.inCtr then s
    else if counter = s.twin.inCtr then s |> messageTurn c |> (fun t => heldTurns (t.twin.held.length + 1) t)
    else if s.twin.held.any (fun h => h.1 == counter) then s
    else setTwin { s.twin with held := s.twin.held ++ [(counter, c)] } s) s

/-- KEY_CONFIRM (16 R586 step 4): one that does not open, or holds other bytes, ends the pairing REFUSED. -/
def execKeyConfirm (wire : LinkFrame) (counter : Nat) (good : Bool) (s : State) : Out :=
  .next (if twinLive s && !good && (s.twin.step == 2 || s.twin.step == 3) && !(isPaired s) then
      twinFrame wire (refusePairing 4) s
    else sealedIn wire counter good .keyConfirm s)

/-- HEARTBEAT. -/
def execHeartbeat (wire : LinkFrame) (counter : Nat) (good : Bool) (received : Nat) (boundaryUs : Option Nat)
    (s : State) : Out :=
  .next (sealedIn wire counter good (.heartbeat wire.payload.length received boundaryUs) s)

/-- BULK. -/
def execBulk (wire : LinkFrame) (counter : Nat) (good : Bool) (part : BulkPart) (s : State) : Out :=
  .next (sealedIn wire counter good (.bulk part) s)

/-- TXN. -/
def execTxn (wire : LinkFrame) (counter : Nat) (good : Bool) (body : MirrorTxn) (s : State) : Out :=
  .next (sealedIn wire counter good (.txn body) s)

/-- VALVE. -/
def execValve (wire : LinkFrame) (counter : Nat) (good : Bool) (item : ValveItem) (s : State) : Out :=
  .next (sealedIn wire counter good (.valve item) s)

/-- RECORD. -/
def execRecord (wire : LinkFrame) (counter : Nat) (good timeQueue : Bool) (words : List Word) (s : State) : Out :=
  .next (sealedIn wire counter good (.record timeQueue words) s)

/-- ACK. -/
def execAck (wire : LinkFrame) (counter : Nat) (good : Bool) (applied : Nat) (s : State) : Out :=
  .next (sealedIn wire counter good (.ack applied) s)

/-- DETACH. -/
def execDetach (wire : LinkFrame) (counter : Nat) (good : Bool) (s : State) : Out :=
  .next (sealedIn wire counter good .detach s)

/-! ## Silence (16 R594, R598) -/

/-- HEARTBEAT_MISSED (16 R594, R598): 1 ms has passed without a heartbeat; a pair's 20th in a row loses the peer; a refused pairing ends when the peer has been
silent for 20 ms. -/
def execHeartbeatMissed (s : State) : Out :=
  .next (if !(domainOn s 9) || !(passedMs s s.twin.beatNow 1) then s
    else
      let s := setTwin { s.twin with beatNow := s.now } s
      if isPaired s then
        let n := regBits s Reg.twnStatus 7 0 + 1
        let s := s |> setRegBits Reg.twnStatus 7 0 (capAt 255 n) |> countReg Reg.twnHbMissed 1
        if n = 20 then peerLost s else sendHeartbeat s
      else if twinState s = Tw.refused then
        let n := regBits s Reg.twnStatus 7 0 + 1
        if n = 20 then s |> peerHeard |> twinEnter (twinRest s) else setRegBits Reg.twnStatus 7 0 n s
      else s)

end Sys2Proof.Machine
end

