-- ==== Sys2Proof/Machine/Dispatch.lean ====
section
/-!
DEFINITION. Sys2Proof/Machine/Dispatch.lean: the dispatch, one arm per command, each a direct call of its meaning.
-/
namespace Sys2Proof.Machine

def exec (i : Instr) (s : State) : Host.Outcome State Fault Refusal :=
  match i with
  | .rd code addr late badParity => Sys2Proof.Machine.execRd code addr late badParity s
  | .rdInc addr count late => Sys2Proof.Machine.execRdInc addr count late s
  | .wr addr word overrun badParity => Sys2Proof.Machine.execWr addr word overrun badParity s
  | .wrInc addr words accepted => Sys2Proof.Machine.execWrInc addr words accepted s
  | .wrTxn ident addr words accepted => Sys2Proof.Machine.execWrTxn ident addr words accepted s
  | .txnBegin => Sys2Proof.Machine.execTxnBegin s
  | .txnCommit addr => Sys2Proof.Machine.execTxnCommit addr s
  | .txnAbort ident => Sys2Proof.Machine.execTxnAbort ident s
  | .status => Sys2Proof.Machine.execStatus s
  | .qpop addr clocked badParity => Sys2Proof.Machine.execQpop addr clocked badParity s
  | .mwinRd addr count late => Sys2Proof.Machine.execMwinRd addr count late s
  | .mwinWr addr words accepted => Sys2Proof.Machine.execMwinWr addr words accepted s
  | .selectReleasedMidWord port frame => Sys2Proof.Machine.execSelectReleasedMidWord port frame s
  | .busyTimeout => Sys2Proof.Machine.execBusyTimeout s
  | .readReady => Sys2Proof.Machine.execReadReady s
  | .registerWrite req index word => Sys2Proof.Machine.execRegisterWrite req index word s
  | .softReset req page => Sys2Proof.Machine.execSoftReset req page s
  | .lock req page => Sys2Proof.Machine.execLock req page s
  | .snapshot req page group => Sys2Proof.Machine.execSnapshot req page group s
  | .resultRelease req page word => Sys2Proof.Machine.execResultRelease req page word s
  | .selfTest req page tag arg => Sys2Proof.Machine.execSelfTest req page tag arg s
  | .calibrate req page tag arg => Sys2Proof.Machine.execCalibrate req page tag arg s
  | .deferredStart page => Sys2Proof.Machine.execDeferredStart page s
  | .urgentStart page => Sys2Proof.Machine.execUrgentStart page s
  | .notRun page => Sys2Proof.Machine.execNotRun page s
  | .testComplete page pass detail trims => Sys2Proof.Machine.execTestComplete page pass detail trims s
  | .commitConditionMet id => Sys2Proof.Machine.execCommitConditionMet id s
  | .applyWindowEnd id => Sys2Proof.Machine.execApplyWindowEnd id s
  | .txnTimeout id => Sys2Proof.Machine.execTxnTimeout id s
  | .abort req tag arg => Sys2Proof.Machine.execAbort req tag arg s
  | .patsel req word => Sys2Proof.Machine.execPatsel req word s
  | .ashlarChange trims => Sys2Proof.Machine.execAshlarChange trims s
  | .portFault port kind => Sys2Proof.Machine.execPortFault port kind s
  | .fieldRequest source => Sys2Proof.Machine.execFieldRequest source s
  | .rampUpEnd => Sys2Proof.Machine.execRampUpEnd s
  | .rampDownEnd => Sys2Proof.Machine.execRampDownEnd s
  | .offMinExpiry => Sys2Proof.Machine.execOffMinExpiry s
  | .limiterStep outMw average hottest => Sys2Proof.Machine.execLimiterStep outMw average hottest s
  | .thermalRecovery hottest => Sys2Proof.Machine.execThermalRecovery hottest s
  | .surveyStep report => Sys2Proof.Machine.execSurveyStep report s
  | .solve req tag arg => Sys2Proof.Machine.execSolve req tag arg s
  | .solveResult => Sys2Proof.Machine.execSolveResult s
  | .cascLoad req tag arg => Sys2Proof.Machine.execCascLoad req tag arg s
  | .cascSwitch req tag arg => Sys2Proof.Machine.execCascSwitch req tag arg s
  | .switchCycleReached lateMembers => Sys2Proof.Machine.execSwitchCycleReached lateMembers s
  | .replyDetected => Sys2Proof.Machine.execReplyDetected s
  | .estimationWindowEnd estimates vectors => Sys2Proof.Machine.execEstimationWindowEnd estimates vectors s
  | .replyEnd streams symbols residual collision data => Sys2Proof.Machine.execReplyEnd streams symbols residual collision data s
  | .chainClip chain overloaded => Sys2Proof.Machine.execChainClip chain overloaded s
  | .chainTrimStep chain full inRange => Sys2Proof.Machine.execChainTrimStep chain full inRange s
  | .cascWaitExpiry => Sys2Proof.Machine.execCascWaitExpiry s
  | .capture req tag arg => Sys2Proof.Machine.execCapture req tag arg s
  | .captureDone samples => Sys2Proof.Machine.execCaptureDone samples s
  | .noWindow => Sys2Proof.Machine.execNoWindow s
  | .exchange req tag arg => Sys2Proof.Machine.execExchange req tag arg s
  | .inventory req tag arg => Sys2Proof.Machine.execInventory req tag arg s
  | .cancel req tag arg => Sys2Proof.Machine.execCancel req tag arg s
  | .jobStart => Sys2Proof.Machine.execJobStart s
  | .guardOnExpiry => Sys2Proof.Machine.execGuardOnExpiry s
  | .readerFrame cycles pauses => Sys2Proof.Machine.execReaderFrame cycles pauses s
  | .windowOpen carriers noises => Sys2Proof.Machine.execWindowOpen carriers noises s
  | .windowClose => Sys2Proof.Machine.execWindowClose s
  | .budget => Sys2Proof.Machine.execBudget s
  | .keepFieldExpiry => Sys2Proof.Machine.execKeepFieldExpiry s
  | .runScan responses => Sys2Proof.Machine.execRunScan responses s
  | .probeScan codes => Sys2Proof.Machine.execProbeScan codes s
  | .relearn req tag arg => Sys2Proof.Machine.execRelearn req tag arg s
  | .tune req path word => Sys2Proof.Machine.execTune req path word s
  | .synthesiserSettled path gain => Sys2Proof.Machine.execSynthesiserSettled path gain s
  | .locked path report => Sys2Proof.Machine.execLocked path report s
  | .frameSync path => Sys2Proof.Machine.execFrameSync path s
  | .lost path => Sys2Proof.Machine.execLost path s
  | .frameBoundary path report => Sys2Proof.Machine.execFrameBoundary path report s
  | .agcStep path gain report => Sys2Proof.Machine.execAgcStep path gain report s
  | .role req path word => Sys2Proof.Machine.execRole req path word s
  | .candidateCheck report imageOk => Sys2Proof.Machine.execCandidateCheck report imageOk s
  | .verify matched lead => Sys2Proof.Machine.execVerify matched lead s
  | .barredExpiry path candidate => Sys2Proof.Machine.execBarredExpiry path candidate s
  | .crossfadeEnd => Sys2Proof.Machine.execCrossfadeEnd s
  | .scan req path tag arg => Sys2Proof.Machine.execScan req path tag arg s
  | .scanPoint path report ident => Sys2Proof.Machine.execScanPoint path report ident s
  | .check req path tag arg => Sys2Proof.Machine.execCheck req path tag arg s
  | .tcMinute path report => Sys2Proof.Machine.execTcMinute path report s
  | .pskFrame path raw => Sys2Proof.Machine.execPskFrame path raw s
  | .audioFormatChange => Sys2Proof.Machine.execAudioFormatChange s
  | .rdsGroup path a b c d => Sys2Proof.Machine.execRdsGroup path a b c d s
  | .fib path cif index bytes => Sys2Proof.Machine.execFib path cif index bytes s
  | .select req tag arg => Sys2Proof.Machine.execSelect req tag arg s
  | .cif path entry index bytes => Sys2Proof.Machine.execCif path entry index bytes s
  | .dataGroup path entry packets => Sys2Proof.Machine.execDataGroup path entry packets s
  | .messageCopy => Sys2Proof.Machine.execMessageCopy s
  | .messageWindowEnd stream seq => Sys2Proof.Machine.execMessageWindowEnd stream seq s
  | .timeVoteClose => Sys2Proof.Machine.execTimeVoteClose s
  | .stream req index word => Sys2Proof.Machine.execStream req index word s
  | .decodeRequest mason3 urgent bits => Sys2Proof.Machine.execDecodeRequest mason3 urgent bits s
  | .decodeUnitEnd => Sys2Proof.Machine.execDecodeUnitEnd s
  | .cipher req tag arg => Sys2Proof.Machine.execCipher req tag arg s
  | .cipherJobStart host => Sys2Proof.Machine.execCipherJobStart host s
  | .cipherJobDone host => Sys2Proof.Machine.execCipherJobDone host s
  | .verdict host => Sys2Proof.Machine.execVerdict host s
  | .keyLoad req tag arg => Sys2Proof.Machine.execKeyLoad req tag arg s
  | .keyClear req tag arg => Sys2Proof.Machine.execKeyClear req tag arg s
  | .nodePut req tag arg => Sys2Proof.Machine.execNodePut req tag arg s
  | .nodeClear req tag arg => Sys2Proof.Machine.execNodeClear req tag arg s
  | .random req tag arg => Sys2Proof.Machine.execRandom req tag arg s
  | .sign req tag arg => Sys2Proof.Machine.execSign req tag arg s
  | .verifySignature req tag arg => Sys2Proof.Machine.execVerifySignature req tag arg s
  | .ecdh req tag arg => Sys2Proof.Machine.execEcdh req tag arg s
  | .certCopy req tag arg => Sys2Proof.Machine.execCertCopy req tag arg s
  | .pkDone => Sys2Proof.Machine.execPkDone s
  | .rngFail repetition adaptive => Sys2Proof.Machine.execRngFail repetition adaptive s
  | .blow req tag arg => Sys2Proof.Machine.execBlow req tag arg s
  | .channel req word => Sys2Proof.Machine.execChannel req word s
  | .detection symbolsA symbolsB levelA levelB => Sys2Proof.Machine.execDetection symbolsA symbolsB levelA levelB s
  | .syncFound bits foffset => Sys2Proof.Machine.execSyncFound bits foffset s
  | .falseDetect => Sys2Proof.Machine.execFalseDetect s
  | .provisionalLength raw => Sys2Proof.Machine.execProvisionalLength raw s
  | .captureEnd soft decoded => Sys2Proof.Machine.execCaptureEnd soft decoded s
  | .txRampUpStart vpa => Sys2Proof.Machine.execTxRampUpStart vpa s
  | .txFirstSymbol => Sys2Proof.Machine.execTxFirstSymbol s
  | .txRampDownStart => Sys2Proof.Machine.execTxRampDownStart s
  | .carrierOff => Sys2Proof.Machine.execCarrierOff s
  | .txToRx => Sys2Proof.Machine.execTxToRx s
  | .synthLocked => Sys2Proof.Machine.execSynthLocked s
  | .holdLimitExpiry => Sys2Proof.Machine.execHoldLimitExpiry s
  | .lockLost => Sys2Proof.Machine.execLockLost s
  | .paFault vpa => Sys2Proof.Machine.execPaFault vpa s
  | .calDue temp => Sys2Proof.Machine.execCalDue temp s
  | .calStart => Sys2Proof.Machine.execCalStart s
  | .calDone found vcoBand temp => Sys2Proof.Machine.execCalDone found vcoBand temp s
  | .calRetry => Sys2Proof.Machine.execCalRetry s
  | .synthSettled => Sys2Proof.Machine.execSynthSettled s
  | .meterFrame report => Sys2Proof.Machine.execMeterFrame report s
  | .carrierTest req tag arg => Sys2Proof.Machine.execCarrierTest req tag arg s
  | .send req tag arg => Sys2Proof.Machine.execSend req tag arg s
  | .sendCancel req tag arg => Sys2Proof.Machine.execSendCancel req tag arg s
  | .slotBoundary => Sys2Proof.Machine.execSlotBoundary s
  | .ackWaitExpiry => Sys2Proof.Machine.execAckWaitExpiry s
  | .backoffEnd slot => Sys2Proof.Machine.execBackoffEnd slot s
  | .expired slot => Sys2Proof.Machine.execExpired slot s
  | .inboundFrame => Sys2Proof.Machine.execInboundFrame s
  | .ackStart => Sys2Proof.Machine.execAckStart s
  | .bucketClose band => Sys2Proof.Machine.execBucketClose band s
  | .doneMap req word => Sys2Proof.Machine.execDoneMap req word s
  | .linkEnable req word => Sys2Proof.Machine.execLinkEnable req word s
  | .coxReqLead => Sys2Proof.Machine.execCoxReqLead s
  | .coxGntChange active => Sys2Proof.Machine.execCoxGntChange active s
  | .coxTimeout => Sys2Proof.Machine.execCoxTimeout s
  | .nop m => Sys2Proof.Machine.execNop m s
  | .dup m => Sys2Proof.Machine.execDup m s
  | .drop m => Sys2Proof.Machine.execDrop m s
  | .swap m => Sys2Proof.Machine.execSwap m s
  | .over m => Sys2Proof.Machine.execOver m s
  | .rot m => Sys2Proof.Machine.execRot m s
  | .nip m => Sys2Proof.Machine.execNip m s
  | .pick m n => Sys2Proof.Machine.execPick m n s
  | .add m => Sys2Proof.Machine.execAdd m s
  | .sub m => Sys2Proof.Machine.execSub m s
  | .andOp m => Sys2Proof.Machine.execAndOp m s
  | .orOp m => Sys2Proof.Machine.execOrOp m s
  | .xorOp m => Sys2Proof.Machine.execXorOp m s
  | .notOp m => Sys2Proof.Machine.execNotOp m s
  | .neg m => Sys2Proof.Machine.execNeg m s
  | .addi m imm => Sys2Proof.Machine.execAddi m imm s
  | .shl m n => Sys2Proof.Machine.execShl m n s
  | .shr m n => Sys2Proof.Machine.execShr m n s
  | .sar m n => Sys2Proof.Machine.execSar m n s
  | .rol m n => Sys2Proof.Machine.execRol m n s
  | .shlv m => Sys2Proof.Machine.execShlv m s
  | .shrv m => Sys2Proof.Machine.execShrv m s
  | .sarv m => Sys2Proof.Machine.execSarv m s
  | .lit m imm => Sys2Proof.Machine.execLit m imm s
  | .litu m imm => Sys2Proof.Machine.execLitu m imm s
  | .mul m => Sys2Proof.Machine.execMul m s
  | .mulu m => Sys2Proof.Machine.execMulu m s
  | .productLands m => Sys2Proof.Machine.execProductLands m s
  | .crcb m => Sys2Proof.Machine.execCrcb m s
  | .crcw m => Sys2Proof.Machine.execCrcw m s
  | .brev m => Sys2Proof.Machine.execBrev m s
  | .brevb m => Sys2Proof.Machine.execBrevb m s
  | .mfs m n => Sys2Proof.Machine.execMfs m n s
  | .mts m n => Sys2Proof.Machine.execMts m n s
  | .ldx m => Sys2Proof.Machine.execLdx m s
  | .stx m => Sys2Proof.Machine.execStx m s
  | .ldb m => Sys2Proof.Machine.execLdb m s
  | .stb m => Sys2Proof.Machine.execStb m s
  | .jmpi m => Sys2Proof.Machine.execJmpi m s
  | .ret m => Sys2Proof.Machine.execRet m s
  | .rtt m => Sys2Proof.Machine.execRtt m s
  | .rte m => Sys2Proof.Machine.execRte m s
  | .rep m n => Sys2Proof.Machine.execRep m n s
  | .lbrk m => Sys2Proof.Machine.execLbrk m s
  | .wait m => Sys2Proof.Machine.execWait m s
  | .waitEnd m => Sys2Proof.Machine.execWaitEnd m s
  | .halt m => Sys2Proof.Machine.execHalt m s
  | .brk m => Sys2Proof.Machine.execBrk m s
  | .slt m => Sys2Proof.Machine.execSlt m s
  | .sltu m => Sys2Proof.Machine.execSltu m s
  | .seq m => Sys2Proof.Machine.execSeq m s
  | .ldp m p f => Sys2Proof.Machine.execLdp m p f s
  | .stp m p f => Sys2Proof.Machine.execStp m p f s
  | .ldpi m p f => Sys2Proof.Machine.execLdpi m p f s
  | .stpi m p f => Sys2Proof.Machine.execStpi m p f s
  | .padd m p imm => Sys2Proof.Machine.execPadd m p imm s
  | .pget m p f => Sys2Proof.Machine.execPget m p f s
  | .pset m p => Sys2Proof.Machine.execPset m p s
  | .beq m off => Sys2Proof.Machine.execBeq m off s
  | .bne m off => Sys2Proof.Machine.execBne m off s
  | .blt m off => Sys2Proof.Machine.execBlt m off s
  | .bge m off => Sys2Proof.Machine.execBge m off s
  | .bltu m off => Sys2Proof.Machine.execBltu m off s
  | .bgeu m off => Sys2Proof.Machine.execBgeu m off s
  | .bz m off => Sys2Proof.Machine.execBz m off s
  | .bnz m off => Sys2Proof.Machine.execBnz m off s
  | .litLong m k => Sys2Proof.Machine.execLitLong m k s
  | .litx m k => Sys2Proof.Machine.execLitx m k s
  | .jmp m k => Sys2Proof.Machine.execJmp m k s
  | .call m mask k => Sys2Proof.Machine.execCall m mask k s
  | .calli m mask => Sys2Proof.Machine.execCalli m mask s
  | .ldl m k => Sys2Proof.Machine.execLdl m k s
  | .stl m k => Sys2Proof.Machine.execStl m k s
  | .ldr m index => Sys2Proof.Machine.execLdr m index s
  | .str m index => Sys2Proof.Machine.execStr m index s
  | .pushb m bit => Sys2Proof.Machine.execPushb m bit s
  | .popb m bit => Sys2Proof.Machine.execPopb m bit s
  | .setb m bit => Sys2Proof.Machine.execSetb m bit s
  | .clrb m bit => Sys2Proof.Machine.execClrb m bit s
  | .tglb m bit => Sys2Proof.Machine.execTglb m bit s
  | .par m bit => Sys2Proof.Machine.execPar m bit s
  | .bbc m off bit => Sys2Proof.Machine.execBbc m off bit s
  | .bbs m off bit => Sys2Proof.Machine.execBbs m off bit s
  | .loopOp m k => Sys2Proof.Machine.execLoopOp m k s
  | .loopi m n k => Sys2Proof.Machine.execLoopi m n k s
  | .cksum m sel => Sys2Proof.Machine.execCksum m sel s
  | .ckcopy m sel => Sys2Proof.Machine.execCkcopy m sel s
  | .tbegin m => Sys2Proof.Machine.execTbegin m s
  | .tstage m => Sys2Proof.Machine.execTstage m s
  | .tstagem m => Sys2Proof.Machine.execTstagem m s
  | .tcommit m cond => Sys2Proof.Machine.execTcommit m cond s
  | .tabort m => Sys2Proof.Machine.execTabort m s
  | .externalOperation f => Sys2Proof.Machine.execExternalOperation f s
  | .copTimeout results => Sys2Proof.Machine.execCopTimeout results s
  | .eventEntry m => Sys2Proof.Machine.execEventEntry m s
  | .breakpoint m point => Sys2Proof.Machine.execBreakpoint m point s
  | .haltCommand req m tag arg => Sys2Proof.Machine.execHaltCommand req m tag arg s
  | .resume req m tag arg => Sys2Proof.Machine.execResume req m tag arg s
  | .step req m tag arg => Sys2Proof.Machine.execStep req m tag arg s
  | .reload req m tag arg => Sys2Proof.Machine.execReload req m tag arg s
  | .masonReset req m word => Sys2Proof.Machine.execMasonReset req m word s
  | .programLoadDone m good => Sys2Proof.Machine.execProgramLoadDone m good s
  | .pmData req m word => Sys2Proof.Machine.execPmData req m word s
  | .dmData req m word => Sys2Proof.Machine.execDmData req m word s
  | .tick timer => Sys2Proof.Machine.execTick timer s
  | .overflow timer => Sys2Proof.Machine.execOverflow timer s
  | .matchEvent timer => Sys2Proof.Machine.execMatchEvent timer s
  | .ctrl req timer word => Sys2Proof.Machine.execCtrl req timer word s
  | .cnt req timer which word => Sys2Proof.Machine.execCnt req timer which word s
  | .cntRead req timer => Sys2Proof.Machine.execCntRead req timer s
  | .cmp req timer wide word => Sys2Proof.Machine.execCmp req timer wide word s
  | .link req timer join => Sys2Proof.Machine.execLink req timer join s
  | .globalStart req mask => Sys2Proof.Machine.execGlobalStart req mask s
  | .globalStop req mask => Sys2Proof.Machine.execGlobalStop req mask s
  | .timerCapture timer samples => Sys2Proof.Machine.execTimerCapture timer samples s
  | .checkValueCfg req unit word => Sys2Proof.Machine.execCheckValueCfg req unit word s
  | .value req unit bytes word => Sys2Proof.Machine.execValue req unit bytes word s
  | .lineFill data => Sys2Proof.Machine.execLineFill data s
  | .flashFrame req tag arg => Sys2Proof.Machine.execFlashFrame req tag arg s
  | .flashPoll req tag arg => Sys2Proof.Machine.execFlashPoll req tag arg s
  | .pollInterval => Sys2Proof.Machine.execPollInterval s
  | .pollTimeout => Sys2Proof.Machine.execPollTimeout s
  | .islandClock island locked => Sys2Proof.Machine.execIslandClock island locked s
  | .lfOsc failed => Sys2Proof.Machine.execLfOsc failed s
  | .plumb req word => Sys2Proof.Machine.execPlumb req word s
  | .plumbLocked => Sys2Proof.Machine.execPlumbLocked s
  | .plumbBypass => Sys2Proof.Machine.execPlumbBypass s
  | .refLost => Sys2Proof.Machine.execRefLost s
  | .refRestored => Sys2Proof.Machine.execRefRestored s
  | .rtcTrim ppm10 => Sys2Proof.Machine.execRtcTrim ppm10 s
  | .setTime req tag arg => Sys2Proof.Machine.execSetTime req tag arg s
  | .alarm => Sys2Proof.Machine.execAlarm s
  | .powerOn req tag arg => Sys2Proof.Machine.execPowerOn req tag arg s
  | .domainReady d => Sys2Proof.Machine.execDomainReady d s
  | .powerOff req tag arg => Sys2Proof.Machine.execPowerOff req tag arg s
  | .drainEnd => Sys2Proof.Machine.execDrainEnd s
  | .drainLimit => Sys2Proof.Machine.execDrainLimit s
  | .bankReady one => Sys2Proof.Machine.execBankReady one s
  | .stop req tag arg => Sys2Proof.Machine.execStop req tag arg s
  | .stopEntered => Sys2Proof.Machine.execStopEntered s
  | .wake samples hsel good => Sys2Proof.Machine.execWake samples hsel good s
  | .supply vd18 => Sys2Proof.Machine.execSupply vd18 s
  | .powerUp lost => Sys2Proof.Machine.execPowerUp lost s
  | .resetN => Sys2Proof.Machine.execResetN s
  | .reset req tag arg => Sys2Proof.Machine.execReset req tag arg s
  | .startDone req tag arg => Sys2Proof.Machine.execStartDone req tag arg s
  | .idReady ok => Sys2Proof.Machine.execIdReady ok s
  | .mramWrite req tag arg => Sys2Proof.Machine.execMramWrite req tag arg s
  | .mramRead req tag arg => Sys2Proof.Machine.execMramRead req tag arg s
  | .scrub memory found => Sys2Proof.Machine.execScrub memory found s
  | .telemetry sensors vpa supply => Sys2Proof.Machine.execTelemetry sensors vpa supply s
  | .overtemp sensors => Sys2Proof.Machine.execOvertemp sensors s
  | .inject req tag arg => Sys2Proof.Machine.execInject req tag arg s
  | .zero req tag arg => Sys2Proof.Machine.execZero req tag arg s
  | .dropBad req tag arg => Sys2Proof.Machine.execDropBad req tag arg s
  | .hello wire peer => Sys2Proof.Machine.execHello wire peer s
  | .ident wire peer => Sys2Proof.Machine.execIdent wire peer s
  | .keyConfirm wire counter good => Sys2Proof.Machine.execKeyConfirm wire counter good s
  | .heartbeat wire counter good received boundaryUs => Sys2Proof.Machine.execHeartbeat wire counter good received boundaryUs s
  | .heartbeatMissed => Sys2Proof.Machine.execHeartbeatMissed s
  | .bulk wire counter good part => Sys2Proof.Machine.execBulk wire counter good part s
  | .txn wire counter good body => Sys2Proof.Machine.execTxn wire counter good body s
  | .valve wire counter good item => Sys2Proof.Machine.execValve wire counter good item s
  | .record wire counter good timeQueue words => Sys2Proof.Machine.execRecord wire counter good timeQueue words s
  | .ack wire counter good applied => Sys2Proof.Machine.execAck wire counter good applied s
  | .detach wire counter good => Sys2Proof.Machine.execDetach wire counter good s
  | .resend counter => Sys2Proof.Machine.execResend counter s
  | .lintelPoll ready => Sys2Proof.Machine.execLintelPoll ready s
  | .confirm req tag arg => Sys2Proof.Machine.execConfirm req tag arg s
  | .confirmTimeout => Sys2Proof.Machine.execConfirmTimeout s
  | .unpair req tag arg => Sys2Proof.Machine.execUnpair req tag arg s
  | .resumeSolo req tag arg => Sys2Proof.Machine.execResumeSolo req tag arg s
  | .endorse req tag arg => Sys2Proof.Machine.execEndorse req tag arg s
  | .probe wire position => Sys2Proof.Machine.execProbe wire position s
  | .answer wire position serial silicon present chains => Sys2Proof.Machine.execAnswer wire position serial silicon present chains s
  | .alignment => Sys2Proof.Machine.execAlignment s
  | .sync wire => Sys2Proof.Machine.execSync wire s
  | .sync2 wire latched => Sys2Proof.Machine.execSync2 wire latched s
  | .load wire ashlar member words => Sys2Proof.Machine.execLoad wire ashlar member words s
  | .switch wire cycle ashlar => Sys2Proof.Machine.execSwitch wire cycle ashlar s
  | .estimate wire position reply block words => Sys2Proof.Machine.execEstimate wire position reply block words s
  | .field wire position cycle action => Sys2Proof.Machine.execField wire position cycle action s
  | .quiet wire => Sys2Proof.Machine.execQuiet wire s
  | .memberStatus wire position plumb quiet late faulted => Sys2Proof.Machine.execMemberStatus wire position plumb quiet late faulted s
  | .memberPoll position answered => Sys2Proof.Machine.execMemberPoll position answered s
  | .memberLeft position => Sys2Proof.Machine.execMemberLeft position s
  | .orphaned => Sys2Proof.Machine.execOrphaned s
  | .func req ball word => Sys2Proof.Machine.execFunc req ball word s
  | .edge ball level => Sys2Proof.Machine.execEdge ball level s
  | .resetEnd boot0 good flash => Sys2Proof.Machine.execResetEnd boot0 good flash s
  | .supplyLow vsup => Sys2Proof.Machine.execSupplyLow vsup s
  | .rdsSyncLost path => Sys2Proof.Machine.execRdsSyncLost path s
  | .tempHigh sensors => Sys2Proof.Machine.execTempHigh sensors s
  | .flashFrameEnd data => Sys2Proof.Machine.execFlashFrameEnd data s
  | .coprocessorReady results => Sys2Proof.Machine.execCoprocessorReady results s
  | .mramCopyDone => Sys2Proof.Machine.execMramCopyDone s
  | .blowDone bits => Sys2Proof.Machine.execBlowDone bits s
  | .checkResult path report ident => Sys2Proof.Machine.execCheckResult path report ident s
  | .relearnNotRun => Sys2Proof.Machine.execRelearnNotRun s
  | .recoveryOutcome done => Sys2Proof.Machine.execRecoveryOutcome done s
  | .undefinedOpcode m => Sys2Proof.Machine.execUndefinedOpcode m s

end Sys2Proof.Machine
end

