-- ==== Sys2Proof/Machine/Idle.lean ====
section
/-!
DEFINITION. Sys2Proof/Machine/Idle.lean: what happens by itself as a carrier cycle passes (notes/assumptions/20.md).
-/
namespace Sys2Proof.Machine

/-- One carrier cycle passes with no command waiting: time goes on, a copy moves one word (18 R633), the limiter's step that
waited for a frame's end is taken (05 R217), records that waited for space are delivered (07 R290), and actions announced
to the cascade are taken at their cycles (16 R604). -/
def idle (s : State) : State := copyTick { s with now := s.now + 1 } |> limiterTick |> flushLate |> fieldActions

end Sys2Proof.Machine
end

