-- ==== Sys2Proof/Safety.lean ====
section
/-!
DEFINITION. Sys2Proof/Safety.lean: the terms the statements use: what a safe run is, when a mason or a door meets a
command, and what it then shows. No host frame begins while HRDY is low (02 R58) is all that the environment owes.
-/
namespace Sys2Proof.Machine

/-! ## Soundness -/

/-- The stored registers have one entry an index, rising, and none at its reset value. -/
def regsWf (l : List (Nat × Word)) : Bool := keysRise l && l.all (fun e => e.2 != regReset e.1)

/-- The data of the machine have their form: both memories and the stored registers are canonical, and there are five
masons (13 R488), eight transactions (04 R148), and four check-value units (14 R542). -/
structure State.Sound (s : State) : Prop where
  mortar : Memory.wf s.mem.mortar = true
  mram : Memory.wf s.mem.mram = true
  regs : regsWf s.regs = true
  masons : s.masons.length = 5
  ids : s.txn.ids.length = 8
  checks : s.checks.length = 4

/-- A command completes at a state, in a next state of which `P` holds. -/
def Completes (c : Instr) (s : State) (P : State → Prop) : Prop := ∃ t, exec c s = .next t ∧ P t

/-! ## Masons (13) -/

/-- Mason `m` as an instruction issued now sees it, products due written (13 R510). -/
def unitNow (s : State) (m : Fin 5) : MasonUnit := (masonAt s m).landed

/-- Mason `m` is about to carry out the instruction with these words, of which none is repeated and no loop ends at it,
and no HALT or STEP is in progress. -/
structure Issues (s : State) (m : Fin 5) (ws : List (BitVec 14)) : Prop where
  issue : canIssue s m ws = true
  five : s.masons.length = 5
  once : (masonAt s m).rep = 0
  notLe : (unitNow s m).atLe (unitNow s m).pc = false
  levels : (unitNow s m).ld ≤ 4
  inside : (unitNow s m).pc + ws.length < 0x4000
  noHalt : (masonAt s m).haltIds = []
  noStep : (masonAt s m).stepId = none

/-- There is room for an instruction that pops and pushes so many entries. -/
def HasRoom (s : State) (m : Fin 5) (pops pushes : Nat) : Prop :=
  pops ≤ (unitNow s m).depth ∧ (unitNow s m).depth - pops + pushes ≤ 16

/-- The machine with mason `m` become `u` at `pc`, an instruction of `cycles` cycles having completed. Nothing else of
the machine is touched. The statements apply it to `fetchInstr m s`: the machine with the instruction fetched, which in
Recovery moves the buffer of the window for mason 0 (02 R87, R88) and is `s` itself otherwise. -/
def afterInstr (s : State) (m : Fin 5) (u : MasonUnit) (pc cycles : Nat) : State :=
  setMason m { u with pc := pc, cycle := u.cycle + cycles, skipBp := false, stall := none, rep := 0, repFirst := false, stepLeft := u.stepLeft - 1 } s

/-- An instruction whose words are `ws` replaces the top `pops` entries of the stack by `push`, the last on top, goes on
behind itself, and leaves everything else but what its fetch moves. -/
def StackEffect (c : Instr) (m : Fin 5) (ws : List (BitVec 14)) (pops pushes cycles : Nat)
    (push : MasonUnit → List Word) : Prop :=
  ∀ s, Issues s m ws → HasRoom s m pops pushes →
    exec c s = .next (afterInstr (fetchInstr m s) m (((unitNow s m).pop pops).pushAll (push (unitNow s m)))
      ((unitNow s m).pc + ws.length) cycles)

/-! ## Doors (03 R131 to R138, R659) -/

/-- A door word of a requester at a page comes to its own refusals: the page is on and enabled, its firmware runs, the
device is not entering Stop, the tag is not remembered, and an MS page is not behind the debug lock. Nothing holds it up: the
island has its clock and no earlier write of the requester to it is held (15 R558, 01 R24), its mason is bound to no decryption (12 R476), and the bank
of its descriptor is not being re-initialised (01 R30). -/
structure DoorOpen (s : State) (req : Requester) (p : Nat) (word : Word) : Prop where
  up : pageUp s p = true
  fuse : (decide (0x28 ≤ p) && decide (p ≤ 0x2C) && s.ident.locks.getLsbD 1) = false
  fresh : remembered s p req (bitsOf word 31 24) = none
  stays : stopEntryRefuses s p = false
  enabled : pageEnabled s p = true
  first : crossingWaits s req (pageReg p 0x0D) = false
  unbound : ∀ m, req = .mason m → isBound s m = false
  ready : doorWaits s p word = false

/-- DOOR_STATUS of a page shows a requester the command with this outcome, not as a duplicate. -/
def DoorShows (t : State) (req : Requester) (p : Nat) (word : Word) (outcome : Nat) : Prop :=
  let v := viewAt t p (Requester.set req)
  v.tag = bitsOf word 31 24 ∧ v.cmd = bitsOf word 23 16 ∧ v.dup = false ∧ v.outcome = outcome

/-- Command `id` is no longer in progress, and DOOR_STATUS shows it with this outcome to every requester that it still
shows it to (03 R136). -/
def EndsWith (t : State) (id outcome : Nat) : Prop :=
  runningCmd t id = none ∧ ∀ v ∈ t.doors.views, v.follows = id → v.outcome = outcome

/-! ## Register writes (00 R11, 03 R126, 04 R168, R177) -/

/-- A direct write of a register is neither discarded, held nor refused, no transaction holds the register, and no twin is
told of it. The island has its clock, no earlier write of the requester to it is held (15 R558, 01 R24), and its mason is
bound to no decryption (12 R476). -/
structure WriteOpen (s : State) (req : Requester) (i : Nat) (w : Word) : Prop where
  page : inDirectory (i / 256) = true
  up : pageUp s (i / 256) = true
  debug : debugBars s i = false
  free : s.txn.ids.all (fun x => !(x.touches i)) = true
  accepted : writeRefusal req s i w = none
  solo : twinRole s ≠ 1
  first : crossingWaits s req i = false
  unbound : ∀ m, req = .mason m → isBound s m = false

/-- The word a register holds once `w` is written to it: each field by its access type. -/
def mergedWord (s : State) (i : Nat) (w : Word) : Word :=
  match rowNow s i with
  | none => getReg s i
  | some r => r.merge (getReg s i) w

/-- The machine with that word stored, and nothing else changed. -/
def withWritten (s : State) (i : Nat) (w : Word) : State := setReg i (mergedWord s i w) s

end Sys2Proof.Machine
end

