-- ==== Sys2Proof/Certificates/Slice0/Obligations.lean ====
section
/-!
DEFINITION. Sys2Proof/Certificates/Slice0/Obligations.lean: the statements for the provers.
-/
open Sys2Proof Sys2Proof.Machine

/-! ## The machine -/

/-- A step with a command at the front of the queue runs that command with the queue's rest. -/
def Obligations.StepRunsFrontCommand : Prop :=
  ∀ (c : Instr) (rest : List Instr) (s : State), s.pending = c :: rest → step s = exec c { s with pending := rest }

/-- Reset is sound. -/
def Obligations.ResetIsSound : Prop := State.reset.Sound

/-! ## Mason instructions (13) -/

/-- Stack and logic instructions (R504): each replaces the entries it pops by what the table gives, in one cycle, and leaves
everything else as it was. -/
def Obligations.MasonStackInstructions : Prop :=
  ∀ m : Fin 5,
    StackEffect (.nop m) m [0x0000#14] 0 0 1 (fun _ => [])
    ∧ StackEffect (.dup m) m [0x0040#14] 1 2 1 (fun u => [u.top 0, u.top 0])
    ∧ StackEffect (.drop m) m [0x0080#14] 1 0 1 (fun _ => [])
    ∧ StackEffect (.swap m) m [0x00C0#14] 2 2 1 (fun u => [u.top 0, u.top 1])
    ∧ StackEffect (.over m) m [0x0100#14] 2 3 1 (fun u => [u.top 1, u.top 0, u.top 1])
    ∧ StackEffect (.rot m) m [0x0140#14] 3 3 1 (fun u => [u.top 1, u.top 0, u.top 2])
    ∧ StackEffect (.nip m) m [0x0180#14] 2 1 1 (fun u => [u.top 0])
    ∧ StackEffect (.add m) m [0x0200#14] 2 1 1 (fun u => [u.top 1 + u.top 0])
    ∧ StackEffect (.sub m) m [0x0240#14] 2 1 1 (fun u => [u.top 1 - u.top 0])
    ∧ StackEffect (.andOp m) m [0x0280#14] 2 1 1 (fun u => [u.top 1 &&& u.top 0])
    ∧ StackEffect (.orOp m) m [0x02C0#14] 2 1 1 (fun u => [u.top 1 ||| u.top 0])
    ∧ StackEffect (.xorOp m) m [0x0300#14] 2 1 1 (fun u => [u.top 1 ^^^ u.top 0])
    ∧ StackEffect (.notOp m) m [0x0340#14] 1 1 1 (fun u => [~~~(u.top 0)])
    ∧ StackEffect (.neg m) m [0x0380#14] 1 1 1 (fun u => [0#32 - u.top 0])
    ∧ StackEffect (.slt m) m [0x0B80#14] 2 1 1 (fun u => [if (u.top 1).toInt < (u.top 0).toInt then 1#32 else 0#32])
    ∧ StackEffect (.sltu m) m [0x0BC0#14] 2 1 1 (fun u => [if (u.top 1).toNat < (u.top 0).toNat then 1#32 else 0#32])
    ∧ StackEffect (.seq m) m [0x0C00#14] 2 1 1 (fun u => [if u.top 1 = u.top 0 then 1#32 else 0#32])
    ∧ (∀ (n : Fin 16) (s : State), Issues s m [opWord 0x01C0 n.val] → HasRoom s m (n.val + 1) (n.val + 2) →
      exec (.pick m n) s = .next (afterInstr (fetchInstr m s) m ((unitNow s m).push ((unitNow s m).top n.val)) ((unitNow s m).pc + 1) 1))

/-- Shifts and immediates (R504): an immediate of 6 bits is sign-extended by ADDI and LIT, and not by LITU; a count from
the stack is its low five bits.
CRC steps, bit reversals and long literals (R504, R512, R513). -/
def Obligations.MasonShiftsAndLiterals : Prop :=
  (
  ∀ m : Fin 5,
    (∀ n : Fin 32, StackEffect (.shl m n) m [opWord 0x0400 n.val] 1 1 1 (fun u => [u.top 0 <<< n.val])
      ∧ StackEffect (.shr m n) m [opWord 0x0440 n.val] 1 1 1 (fun u => [u.top 0 >>> n.val])
      ∧ StackEffect (.sar m n) m [opWord 0x0480 n.val] 1 1 1 (fun u => [(u.top 0).sshiftRight n.val])
      ∧ StackEffect (.rol m n) m [opWord 0x04C0 n.val] 1 1 1 (fun u => [(u.top 0).rotateLeft n.val]))
    ∧ StackEffect (.shlv m) m [0x0500#14] 2 1 1 (fun u => [u.top 1 <<< ((u.top 0).toNat % 32)])
    ∧ StackEffect (.shrv m) m [0x0540#14] 2 1 1 (fun u => [u.top 1 >>> ((u.top 0).toNat % 32)])
    ∧ StackEffect (.sarv m) m [0x0580#14] 2 1 1 (fun u => [(u.top 1).sshiftRight ((u.top 0).toNat % 32)])
    ∧ (∀ i : BitVec 6, StackEffect (.addi m i) m [opWord 0x03C0 i.toNat] 1 1 1 (fun u => [u.top 0 + i.signExtend 32])
      ∧ StackEffect (.lit m i) m [opWord 0x05C0 i.toNat] 0 1 1 (fun _ => [i.signExtend 32])
      ∧ StackEffect (.litu m i) m [opWord 0x0600 i.toNat] 0 1 1 (fun _ => [i.setWidth 32]))
    ∧ (∀ n : Fin 64, StackEffect (.mfs m n) m [opWord 0x07C0 n.val] 0 1 1 (fun u => [sprRead m u n.val]))
    ∧ (∀ (p : Fin 8) (f : BitVec 6), StackEffect (.pget m p f) m [opWord 0x1A00 (64 * p.val + f.toNat)] 0 1 1
        (fun u => [u.pt p.val + BitVec.ofNat 32 (4 * f.toNat)])))
  ∧ (
  ∀ m : Fin 5,
    StackEffect (.crcb m) m [0x06C0#14] 2 1 1 (fun u => [crcBytes (crcOfSel u.crcSel) (u.top 1) [(u.top 0).setWidth 8]])
    ∧ StackEffect (.crcw m) m [0x0700#14] 2 1 2
        (fun u => [crcBytes (crcOfSel u.crcSel) (u.top 1) (leBytes 4 (u.top 0).toNat)])
    ∧ StackEffect (.brev m) m [0x0740#14] 1 1 1 (fun u => [(u.top 0).reverse])
    ∧ StackEffect (.brevb m) m [0x0780#14] 1 1 1 (fun u =>
        [((u.top 0).extractLsb' 24 8).reverse ++ ((u.top 0).extractLsb' 16 8).reverse
          ++ ((u.top 0).extractLsb' 8 8).reverse ++ ((u.top 0).extractLsb' 0 8).reverse])
    ∧ (∀ k : BitVec 14, StackEffect (.litLong m k) m [0x3000#14, k] 0 1 1 (fun _ => [k.signExtend 32])
      ∧ StackEffect (.litx m k) m [0x3040#14, k] 1 1 1 (fun u => [(u.top 0 <<< 14) ||| k.setWidth 32])))

/-- The multiplier and the registers of a mason (R499, R501, R510): a product lands three cycles after issue; MTS writes a
special register, or leaves it and raises FAULT.SPR; PADD and PSET write a pointer. -/
def Obligations.MasonMultiplierAndRegisters : Prop :=
  ∀ (m : Fin 5) (s : State),
    (Issues s m [0x0640#14] → HasRoom s m 2 0 →
      exec (.mul m) s = .next (afterInstr (fetchInstr m s) m { (unitNow s m).pop 2 with
        products := (unitNow s m).products ++ [Product.mk ((unitNow s m).cycle + 4)
          (BitVec.ofInt 32 (((unitNow s m).top 1).toInt * ((unitNow s m).top 0).toInt))
          (BitVec.ofInt 32 (((unitNow s m).top 1).toInt * ((unitNow s m).top 0).toInt / 2 ^ 32))] } ((unitNow s m).pc + 1) 1))
    ∧ (Issues s m [0x0680#14] → HasRoom s m 2 0 →
      exec (.mulu m) s = .next (afterInstr (fetchInstr m s) m { (unitNow s m).pop 2 with
        products := (unitNow s m).products ++ [Product.mk ((unitNow s m).cycle + 4)
          (BitVec.ofNat 32 (((unitNow s m).top 1).toNat * ((unitNow s m).top 0).toNat))
          (BitVec.ofNat 32 (((unitNow s m).top 1).toNat * ((unitNow s m).top 0).toNat / 2 ^ 32))] } ((unitNow s m).pc + 1) 1))
    ∧ (∀ p rest, (masonAt s m).products = p :: rest → p.due ≤ (masonAt s m).cycle →
      exec (.productLands m) s = .next (setMason m { masonAt s m with mlo := p.lo, mhi := p.hi, products := rest } s))
    ∧ (∀ (n : Fin 64) (v : MasonUnit), Issues s m [opWord 0x0800 n.val] → HasRoom s m 1 0 →
      sprWrite ((unitNow s m).pop 1) n.val ((unitNow s m).top 0) = some v → v.atLe v.pc = false → 
      exec (.mts m n) s = .next (afterInstr (fetchInstr m s) m v ((unitNow s m).pc + 1) 1))
    ∧ (∀ (n : Fin 64), Issues s m [opWord 0x0800 n.val] → HasRoom s m 1 0 →
      sprWrite ((unitNow s m).pop 1) n.val ((unitNow s m).top 0) = none →
      exec (.mts m n) s = .next (afterInstr (masonFault m 3 (unitNow s m).pc (fetchInstr m s)) m ((unitNow s m).pop 1)
        ((unitNow s m).pc + 1) 1))
    ∧ (∀ (p : Fin 8) (i : BitVec 6), Issues s m [opWord 0x1800 (64 * p.val + i.toNat)] →
      exec (.padd m p i) s = .next (afterInstr (fetchInstr m s) m
        ((unitNow s m).setPt p.val ((unitNow s m).pt p.val + BitVec.ofInt 32 (4 * i.toInt))) ((unitNow s m).pc + 1) 1))
    ∧ (∀ p : Fin 8, Issues s m [opWord 0x1C00 (64 * p.val)] → HasRoom s m 1 0 →
      exec (.pset m p) s = .next (afterInstr (fetchInstr m s) m
        (((unitNow s m).pop 1).setPt p.val ((unitNow s m).top 0)) ((unitNow s m).pc + 1) 1))

/-- Branches (R504, R507): a branch taken goes to the address behind it plus its signed offset in two cycles; one not
taken goes on behind itself in one.
Jumps, calls and the return (R504, R508, R509): CALL saves the pointers its mask names and a link entry with the
address behind it; RET goes to the address of the link entry and restores them. -/
def Obligations.MasonBranchesAndCalls : Prop :=
  (
  ∀ (m : Fin 5) (off : BitVec 9) (s : State),
    let branch := fun (c : Instr) (n pops : Nat) (cond : Word → Word → Prop) =>
      Issues s m [opWord 0x2000 (0x200 * n + off.toNat)] → HasRoom s m pops 0 →
        let u := unitNow s m
        let target : Int := u.pc + 1 + off.toInt
        (¬ cond (u.top 1) (u.top 0) → exec c s = .next (afterInstr (fetchInstr m s) m (u.pop pops) (u.pc + 1) 1))
        ∧ (cond (u.top 1) (u.top 0) → 0 ≤ target → target ≤ 0x3FFF →
          exec c s = .next (afterInstr (fetchInstr m s) m (u.pop pops) target.toNat 2))
    branch (.beq m off) 0 2 (fun a b => a = b) ∧ branch (.bne m off) 1 2 (fun a b => a ≠ b)
    ∧ branch (.blt m off) 2 2 (fun a b => a.toInt < b.toInt) ∧ branch (.bge m off) 3 2 (fun a b => b.toInt ≤ a.toInt)
    ∧ branch (.bltu m off) 4 2 (fun a b => a.toNat < b.toNat) ∧ branch (.bgeu m off) 5 2 (fun a b => b.toNat ≤ a.toNat)
    ∧ branch (.bz m off) 6 1 (fun _ b => b = 0#32) ∧ branch (.bnz m off) 7 1 (fun _ b => b ≠ 0#32))
  ∧ (
  ∀ (m : Fin 5) (s : State),
    let u := unitNow s m
    (∀ k : BitVec 14, Issues s m [0x3080#14, k] → exec (.jmp m k) s = .next (afterInstr (fetchInstr m s) m u k.toNat 2))
    ∧ (Issues s m [0x0940#14] → HasRoom s m 1 0 → (u.top 0).toNat < 0x4000 →
      exec (.jmpi m) s = .next (afterInstr (fetchInstr m s) m (u.pop 1) (u.top 0).toNat 2))
    ∧ (∀ (mask : Byte) (k : BitVec 14), Issues s m [opWord 0x3100 mask.toNat, k] →
      u.rdepth + (maskList mask.toNat).length + 1 ≤ 32 →
      exec (.call m mask k) s = .next (afterInstr (fetchInstr m s) m (pushLink mask.toNat (u.pc + 2) u) k.toNat
        (2 + (maskList mask.toNat).length)))
    ∧ (∀ mask : Byte, Issues s m [opWord 0x3600 mask.toNat, 0#14] → HasRoom s m 1 0 → (u.top 0).toNat < 0x4000 →
      u.rdepth + (maskList mask.toNat).length + 1 ≤ 32 →
      exec (.calli m mask) s = .next (afterInstr (fetchInstr m s) m (pushLink mask.toNat (u.pc + 2) (u.pop 1)) (u.top 0).toNat
        (2 + (maskList mask.toNat).length)))
    ∧ (Issues s m [0x0980#14] → 0 < u.rdepth →
      exec (.ret m) s = .next (afterInstr (fetchInstr m s) m (popLink u).1 ((u.rtop 0).toNat % 0x4000)
        (2 + (maskList ((u.rtop 0).toNat / 0x4000 % 256)).length))))

/-- The link entries of calls nest (R508): popping the link that a call pushed gives back the pointers it saved and the
return stack's depth, whatever the pointers have become in between. -/
def Obligations.MasonLinkRoundTrip : Prop :=
  ∀ (u : MasonUnit) (mask : Byte) (ret : Nat) (pts : List Word),
    u.rstack.length = 32 → u.pts.length = 8 → pts.length = 8 → u.rdepth + (maskList mask.toNat).length + 1 ≤ 32 →
    ret < 0x4000 →
    let v := pushLink mask.toNat ret u
    let w := (popLink { v with pts := pts }).1
    (v.rtop 0).toNat % 0x4000 = ret ∧ w.rdepth = u.rdepth
      ∧ (∀ p, p < 8 → w.pt p = if mask.toNat.testBit p then u.pt p else pts.getD p 0#32)

/-- Repeats, loops, handlers and waiting (R511, R515, R518, R519): REP sets the count of the next instruction; LOOP and LOOPI
open a level and LBRK closes one; a trap's and an event's return go back to the saved address; WAIT waits for EVT, which of
masons 0 to 3 is a free value, and WAIT_END goes on; an event is entered at 0x14. -/
def Obligations.MasonLoopsAndHandlers : Prop :=
  ∀ (m : Fin 5) (s : State),
    let u := unitNow s m
    let opened := fun (v : MasonUnit) (le : Nat) (n : Word) => { v with ls := v.ls.set v.ld (v.pc + 2), le := v.le.set v.ld le, lc := v.lc.set v.ld n, ld := v.ld + 1 }
    u.le.length = 4 →
    (∀ (n : Fin 64), 0 < n.val → Issues s m [opWord 0x0A40 n.val] → fetched s m (u.pc + 1) = true →
      repBad (progWord s m (u.pc + 1)) = false →
      exec (.rep m n) s = .next (setMason m { u with cycle := u.cycle + 1, skipBp := false, pc := u.pc + 1, rep := n.val, repFirst := true }
        (fetchInstr m s)))
    ∧ (∀ k : BitVec 14, Issues s m [0x3500#14, k] → HasRoom s m 1 0 → u.top 0 ≠ 0#32 → u.ld < 4 → u.pc + 2 ≤ k.toNat →
      exec (.loopOp m k) s = .next (afterInstr (fetchInstr m s) m (opened (u.pop 1) k.toNat (u.top 0)) (u.pc + 2) 1))
    ∧ (∀ (n : Fin 64) (k : BitVec 14), Issues s m [opWord 0x3540 n.val, k] → 0 < n.val → u.ld < 4 → u.pc + 2 ≤ k.toNat →
      exec (.loopi m n k) s = .next (afterInstr (fetchInstr m s) m (opened u k.toNat (BitVec.ofNat 32 n.val)) (u.pc + 2) 1))
    ∧ (Issues s m [0x0A80#14] → 0 < u.ld → 
      exec (.lbrk m) s = .next (afterInstr (fetchInstr m s) m { u with ld := u.ld - 1, lbase := min u.lbase (u.ld - 1) } (u.pc + 1) 1))
    ∧ (Issues s m [0x09C0#14] → u.tact = true → u.rleft = 0#32 → u.lbase ≤ 4 → 
      exec (.rtt m) s = .next (afterInstr (fetchInstr m s) m { u with tact := false, ld := u.lbase, lbase := u.tlb } u.tpc 2))
    ∧ (Issues s m [0x0A00#14] → u.eact = true → u.lbase ≤ 4 →
      exec (.rte m) s = .next (afterInstr (fetchInstr m s) m { u with eact := false, ld := u.lbase, lbase := u.elb } u.epc 2))
    ∧ (Issues s 4 [0x0AC0#14] →
      (masonEvt (setMason 4 (unitNow s 4) s) = false →
        exec (.wait 4) s = .next (setMason 4 { unitNow s 4 with state := .waiting } s))
      ∧ (masonEvt (setMason 4 (unitNow s 4) s) = true →
        exec (.wait 4) s = .next (afterInstr s 4 (unitNow s 4) ((unitNow s 4).pc + 1) 1)))
    ∧ (m ≠ 4 → Issues s m [0x0AC0#14] → exec (.wait m) s = .next (if freeBit s
      then afterInstr (useFree (fetchInstr m s)) m u (u.pc + 1) 1
      else setMason m { u with state := .waiting } (useFree (fetchInstr m s))))
    ∧ ((masonAt s m).state = .waiting → domainOn s (masonDomain m) = true → testRuns s (0x28 + m.val) = false →
      (m = 4 → masonEvt s = true) →
      exec (.waitEnd m) s = .next (endInstr m { masonAt s m with state := .running } ((masonAt s m).pc + 1) false 1 none s))
    ∧ (masonFree s m = true → eventDue s m = true →
      exec (.eventEntry m) s = .next (setMason m { masonAt s m with cycle := (masonAt s m).cycle + 2, epc := (masonAt s m).pc, eact := true, elb := (masonAt s m).lbase, lbase := (masonAt s m).ld, pc := 0x14, skipBp := false } s))

/-- Halting, and what an unassigned encoding does (R503, R518, R523): HALT, BRK and a breakpoint halt the mason with their
cause and set its EVENT[0]; an undefined opcode is not carried out but traps with cause 1.
The traps of the stack (R518): an instruction that finds too few entries traps with cause 3, one that finds no room with
cause 2, and neither changes the stack. -/
def Obligations.MasonTraps : Prop :=
  (
  ∀ (m : Fin 5) (s : State),
    let u := unitNow s m
    let halted := fun (c : Instr) (why pc : Nat) => Completes c s (fun t =>
      (masonAt t m).state = .halted ∧ (masonAt t m).haltWhy = why ∧ (masonAt t m).pc = pc
        ∧ regBit t (pageReg (0x28 + m.val) 4) 0 = true ∧ t.mem = s.mem)
    (Issues s m [0x0B00#14] → debugLocked s = false → halted (.halt m) 3 (u.pc + 1))
    ∧ (Issues s m [0x0B40#14] → debugLocked s = false → halted (.brk m) 4 (u.pc + 1))
    ∧ (∀ i : Fin 4, s.masons.length = 5 → masonFree s m = true → (m = 4 → eventDue s 4 = false) → bpStops s m i.val = true →
      halted (.breakpoint m i) (5 + i.val) (masonAt s m).pc)
    ∧ (∀ w : BitVec 14, wordsOf w = 1 → progWord s m u.pc = w → Issues s m [w] → (masonAt s m).tact = false →
      slotAbsent m w = false → assignedWords m w (progWord s m (u.pc + 1)) = false →
      Completes (.undefinedOpcode m) s (fun t =>
        (masonAt t m).tact = true ∧ (masonAt t m).tcause = 1 ∧ (masonAt t m).tpc = u.pc ∧ (masonAt t m).pc = 2
          ∧ (masonAt t m).stack = u.stack ∧ (masonAt t m).depth = u.depth
          ∧ regBit t (pageReg (0x28 + m.val) 4) 1 = true ∧ t.mem = s.mem)))
  ∧ (
  ∀ (m : Fin 5) (s : State),
    let u := unitNow s m
    let traps := fun (c : Instr) (cause : Nat) => Completes c s (fun t =>
      (masonAt t m).tcause = cause ∧ (masonAt t m).tpc = u.pc ∧ (masonAt t m).pc = 2 * cause
        ∧ (masonAt t m).stack = u.stack ∧ (masonAt t m).depth = u.depth)
    (masonAt s m).tact = false →
    (Issues s m [0x0200#14] → u.depth < 2 → traps (.add m) 3)
    ∧ (Issues s m [0x0080#14] → u.depth < 1 → traps (.drop m) 3)
    ∧ (Issues s m [0x0040#14] → u.depth = 16 → traps (.dup m) 2)
    ∧ (∀ k : BitVec 14, Issues s m [0x3000#14, k] → u.depth = 16 → traps (.litLong m k) 2))

/-- The bit instructions on bit RAM (R496, R504, R507). -/
def Obligations.MasonBitInstructions : Prop :=
  ∀ (m : Fin 5) (bit : BitVec 12) (s : State),
    let u := unitNow s m
    let words := fun (op : Nat) => [opWord 0x3300 op, opWord 0 bit.toNat]
    let old := u.bits.getLsbD bit.toNat
    let put := fun (v : MasonUnit) (b : Bool) => { v with bits := putBit v.bits bit.toNat b }
    bit.toNat < 0x400 →
    (Issues s m (words 0) → HasRoom s m 0 1 →
      exec (.pushb m bit) s = .next (afterInstr (fetchInstr m s) m (u.push (if old then 1#32 else 0#32)) (u.pc + 2) 1))
    ∧ (Issues s m (words 1) → HasRoom s m 1 0 →
      exec (.popb m bit) s = .next (afterInstr (fetchInstr m s) m (put (u.pop 1) ((u.top 0).getLsbD 0)) (u.pc + 2) 1))
    ∧ (Issues s m (words 2) → exec (.setb m bit) s = .next (afterInstr (fetchInstr m s) m (put u true) (u.pc + 2) 1))
    ∧ (Issues s m (words 3) → exec (.clrb m bit) s = .next (afterInstr (fetchInstr m s) m (put u false) (u.pc + 2) 1))
    ∧ (Issues s m (words 4) → exec (.tglb m bit) s = .next (afterInstr (fetchInstr m s) m (put u (!old)) (u.pc + 2) 1))
    ∧ (Issues s m (words 5) → HasRoom s m 1 0 →
      exec (.par m bit) s = .next (afterInstr (fetchInstr m s) m (put (u.pop 1) (parityOf (u.top 0))) (u.pc + 2) 1))
    ∧ (∀ off : BitVec 7, 0 ≤ (u.pc : Int) + 2 + off.toInt → (u.pc : Int) + 2 + off.toInt ≤ 0x3FFF →
      (Issues s m [opWord 0x3400 off.toNat, opWord 0 bit.toNat] → exec (.bbc m off bit) s = .next
        (if old then afterInstr (fetchInstr m s) m u (u.pc + 2) 1 else afterInstr (fetchInstr m s) m u ((u.pc : Int) + 2 + off.toInt).toNat 2))
      ∧ (Issues s m [opWord 0x3480 off.toNat, opWord 0 bit.toNat] → exec (.bbs m off bit) s = .next
        (if old then afterInstr (fetchInstr m s) m u ((u.pc : Int) + 2 + off.toInt).toNat 2 else afterInstr (fetchInstr m s) m u (u.pc + 2) 1)))

/-- Loads from local RAM (R492, R504): the word or byte at the address is pushed, and nothing else changes.
Stores to local RAM (R492, R504): the stored bytes, at the address the operands name, and the stack are all that
changes. -/
def Obligations.MasonLocalMemory : Prop :=
  (
  ∀ (m : Fin 5) (s : State),
    let u := unitNow s m
    let word := fun (a : Nat) => memWord u.dram (a / 4 * 4)
    (Issues s m [0x0840#14] → HasRoom s m 1 1 → (u.top 0).toNat < 0x8000 →
      exec (.ldx m) s = .next (afterInstr (fetchInstr m s) m ((u.pop 1).push (word (u.top 0).toNat)) (u.pc + 1) 1))
    ∧ (Issues s m [0x08C0#14] → HasRoom s m 1 1 → (u.top 0).toNat < 0x8000 →
      exec (.ldb m) s = .next (afterInstr (fetchInstr m s) m ((u.pop 1).push ((memGet u.dram (u.top 0).toNat).setWidth 32)) (u.pc + 1) 1))
    ∧ (∀ (p : Fin 8) (f : BitVec 6), HasRoom s m 0 1 →
      (Issues s m [opWord 0x1000 (64 * p.val + f.toNat)] → (u.pt p.val + BitVec.ofNat 32 (4 * f.toNat)).toNat < 0x8000 →
        exec (.ldp m p f) s = .next (afterInstr (fetchInstr m s) m
          (u.push (word (u.pt p.val + BitVec.ofNat 32 (4 * f.toNat)).toNat)) (u.pc + 1) 1))
      ∧ (Issues s m [opWord 0x1400 (64 * p.val + f.toNat)] → (u.pt p.val).toNat < 0x8000 →
        exec (.ldpi m p f) s = .next (afterInstr (fetchInstr m s) m
          ((u.push (word (u.pt p.val).toNat)).setPt p.val (u.pt p.val + BitVec.ofInt 32 (4 * f.toInt))) (u.pc + 1) 1)))
    ∧ (∀ k : BitVec 14, k.toNat < 8192 → HasRoom s m 0 1 → Issues s m [0x3200#14, k] →
      exec (.ldl m k) s = .next (afterInstr (fetchInstr m s) m (u.push (word (4 * k.toNat))) (u.pc + 2) 1)))
  ∧ (
  ∀ (m : Fin 5) (s : State),
    let u := unitNow s m
    let stored := fun (v : MasonUnit) (a : Nat) (w : Word) => { v with dram := memPutWord v.dram (a / 4 * 4) w }
    (Issues s m [0x0880#14] → HasRoom s m 2 0 → (u.top 0).toNat < 0x8000 →
      exec (.stx m) s = .next (afterInstr (fetchInstr m s) m (stored (u.pop 2) (u.top 0).toNat (u.top 1)) (u.pc + 1) 1))
    ∧ (Issues s m [0x0900#14] → HasRoom s m 2 0 → (u.top 0).toNat < 0x8000 →
      exec (.stb m) s = .next (afterInstr (fetchInstr m s) m
        { u.pop 2 with dram := memSet u.dram (u.top 0).toNat ((u.top 1).setWidth 8) } (u.pc + 1) 1))
    ∧ (∀ (p : Fin 8) (f : BitVec 6), HasRoom s m 1 0 →
      (Issues s m [opWord 0x1200 (64 * p.val + f.toNat)] → (u.pt p.val + BitVec.ofNat 32 (4 * f.toNat)).toNat < 0x8000 →
        exec (.stp m p f) s = .next (afterInstr (fetchInstr m s) m
          (stored (u.pop 1) (u.pt p.val + BitVec.ofNat 32 (4 * f.toNat)).toNat (u.top 0)) (u.pc + 1) 1))
      ∧ (Issues s m [opWord 0x1600 (64 * p.val + f.toNat)] → (u.pt p.val).toNat < 0x8000 →
        exec (.stpi m p f) s = .next (afterInstr (fetchInstr m s) m
          ((stored (u.pop 1) (u.pt p.val).toNat (u.top 0)).setPt p.val (u.pt p.val + BitVec.ofInt 32 (4 * f.toInt)))
          (u.pc + 1) 1)))
    ∧ (∀ k : BitVec 14, k.toNat < 8192 → HasRoom s m 1 0 → Issues s m [0x3240#14, k] →
      exec (.stl m k) s = .next (afterInstr (fetchInstr m s) m (stored (u.pop 1) (4 * k.toNat) (u.top 0)) (u.pc + 2) 1)))

/-- The byte form of the local-memory frame (R492): a word stored reads back byte by byte, and every other byte of the
memory reads as before. -/
def Obligations.MemoryWordWrite : Prop :=
  ∀ (mem : Memory) (a b : Nat) (w : Word),
    (∀ i, i < 4 → b = a + i → memGet (memPutWord mem a w) b = w.extractLsb' (8 * i) 8)
    ∧ ((b < a ∨ a + 4 ≤ b) → memGet (memPutWord mem a w) b = memGet mem b)
    ∧ (Memory.wf mem = true → Memory.wf (memPutWord mem a w) = true)

/-- CKSUM over local RAM (R512, R517): it pushes the CRC over the `n` bytes, started from the operand, two cycles and one
for every word begun.
CKCOPY within local RAM between ranges that do not meet (R517): the bytes are copied and their CRC is pushed. -/
def Obligations.MasonChecksumAndCopy : Prop :=
  (
  ∀ (m : Fin 5) (sel : Fin 5) (s : State),
    let u := unitNow s m
    let n := (u.top 0).toNat % 0x10000
    let a := (u.top 1).toNat
    Issues s m [0x3F00#14, BitVec.ofNat 14 sel.val] → HasRoom s m 3 1 → a + n ≤ 0x8000 → (masonAt s m).stall = none →
      exec (.cksum m sel) s = .next (afterInstr (fetchInstr m s) m
        ((u.pop 3).push (crcBytes (crcOfSel sel.val) (u.top 2) (memBytes u.dram a n))) (u.pc + 2) (2 + (n + 3) / 4)))
  ∧ (
  ∀ (m : Fin 5) (sel : Fin 5) (s : State),
    let u := unitNow s m
    let n := (u.top 0).toNat % 0x10000
    let d := (u.top 1).toNat
    let a := (u.top 2).toNat
    Issues s m [0x3F01#14, BitVec.ofNat 14 sel.val] → HasRoom s m 4 1 → a + n ≤ 0x8000 → d + n ≤ 0x8000 →
      (a + n ≤ d ∨ d + n ≤ a) → (masonAt s m).stall = none →
      exec (.ckcopy m sel) s = .next (afterInstr (fetchInstr m s) m
        { (u.pop 4).push (crcBytes (crcOfSel sel.val) (u.top 3) (memBytes u.dram a n)) with
          dram := memPut u.dram d (memBytes u.dram a n) } (u.pc + 2) (2 + (n + 3) / 4)))

/-- Register loads and stores by LDR and STR (R493, R504, R505): LDR pushes what a read of the register gives this mason,
STR writes the top of the stack to it; the other masons are left as they were. -/
def Obligations.MasonRegisterAccess : Prop :=
  ∀ (m : Fin 5) (i : RegIndex) (s : State),
    let b := setMason m (unitNow s m) (fetchInstr m s)
    let r := readRegister (.mason m) i.toNat b
    (Issues s m [opWord 0x3280 (i.toNat / 0x4000), BitVec.ofNat 14 (i.toNat % 0x4000)] → HasRoom s m 0 1 →
      inDirectory (i.toNat / 256) = true → applyingReg s i.toNat = false → msPage (i.toNat / 256) = none →
      pageUp b (i.toNat / 256) = true → timerOf i.toNat = none → crossingWaits s (.mason m) i.toNat = false →
      exec (.ldr m i) s = .next (afterInstr (useFree (fetchInstr m s)) m ((unitNow s m).push r.2) ((unitNow s m).pc + 2)
        (1 + regStall m b (i.toNat / 256))))
    ∧ (Issues s m [opWord 0x32C0 (i.toNat / 0x4000), BitVec.ofNat 14 (i.toNat % 0x4000)] → HasRoom s m 1 0 →
      inDirectory (i.toNat / 256) = true → boundJobs s m = [] →
      exec (.str m i) s = .next (endInstr m
        ((masonAt (directWrite (.mason m) i.toNat ((unitNow s m).top 0) b) m).pop 1) ((unitNow s m).pc + 2) false 1 none
        (directWrite (.mason m) i.toNat ((unitNow s m).top 0) b)))

/-- Transactions by a mason (R517): TBEGIN opens the lowest free identifier and pushes its reply word, TSTAGE and TSTAGEM
add an entry, TCOMMIT pushes the reply of its commit, TABORT ends it. -/
def Obligations.MasonTransactions : Prop :=
  ∀ (m : Fin 5) (s : State),
    let u := unitNow s m
    let b := setMason m u (fetchInstr m s)
    let opened := fun n => setTxn n { Txn.free with phase := .openPhase, requester := .mason m, openedAt := s.now, limitMs := regBits s Reg.txnTimeout 13 0, serial := s.txn.nextSerial } (fetchInstr m s)
    let k := (u.top 0).toNat
    (∀ n, Issues s m [0x3FC0#14, 0#14] → HasRoom s m 0 1 → activeSecondary b = false → lowestFree s.txn.ids 0 = some n →
      exec (.tbegin m) s = .next (afterInstr { opened n with txn := { (opened n).txn with nextSerial := s.txn.nextSerial + 1 } }
        m (u.push (0x80000000#32 ||| BitVec.ofNat 32 (n % 8))) (u.pc + 2) 1))
    ∧ (Issues s m [0x3FC1#14, 0#14] → HasRoom s m 3 0 → boundJobs s m = [] → stagesInto b (.mason m) k = true →
      (txnAt s k).phase = .openPhase → (u.top 1).toNat < 0x200 → pageUp b ((u.top 1).toNat / 256) = true →
      stageRefusal (.mason m) b (u.top 1).toNat (u.top 2) = none → (txnAt s k).regs = [] → entryFits b (txnAt s k) false = true →
      exec (.tstage m) s = .next (afterInstr
        (setTxn k { txnAt s k with regs := [((u.top 1).toNat, u.top 2)] } (fetchInstr m s)) m (u.pop 3) (u.pc + 2) 1))
    ∧ (Issues s m [0x3FC2#14, 0#14] → HasRoom s m 3 0 → boundJobs s m = [] → stagesInto b (.mason m) k = true →
      (txnAt s k).phase = .openPhase → (u.top 1).toNat < 0x100000 → (txnAt s k).mortar = [] → poolWords s < 16384 →
      exec (.tstagem m) s = .next (afterInstr
        (setTxn k { txnAt s k with mortar := [((u.top 1).toNat / 4 * 4, u.top 2)] } (fetchInstr m s)) m (u.pop 3) (u.pc + 2) 1))
    ∧ (∀ cond : Byte, Issues s m [0x3FC3#14, cond.setWidth 14] → HasRoom s m 2 1 → boundJobs s m = [] → s.cipher.held = [] →
      let r := commitTxn (.mason m) k ((u.top 1).toNat % 0x10000) cond.toNat (setMason m (u.pop 2) b)
      ∀ w, r.2 = some w → exec (.tcommit m cond) s = .next (endOperation m [w] r.1))
    ∧ (Issues s m [0x3FC4#14, 0#14] → HasRoom s m 1 0 → (txnAt s k).requester = .mason m → k < 8 → s.txn.ids.length = 8 →
      (txnAt s k).phase = .openPhase →
      Completes (.tabort m) s (fun t => (txnAt t k).phase = .free
        ∧ getReg t (Reg.txnOutcome + k) = txnWord 3 Ab.requesterAbort (txnAt s k).tag))

/-- External operations of mason 4 (R517, 02 R94, R95, R97): the operand words leave the stack, the last on top, for a frame
on MSEL1_N; its results are pushed in the order received, and zeros for those that the time-out cuts off. -/
def Obligations.ExternalOperations : Prop :=
  ∀ (f : Fin 32) (s : State),
    let u := unitNow s 4
    let nin := regBits s (Reg.mptCopShape + f.val) 6 4
    let nout := regBits s (Reg.mptCopShape + f.val) 2 0
    let ops := (List.range nin).map (fun i => u.top (nin - 1 - i))
    (Issues s 4 [opWord 0x3FE0 f.val, 0#14] → HasRoom s 4 nin nout → boundJobs s 4 = [] →
      exec (.externalOperation f) s = .next (grantPort (setMason 4 { u.pop nin with stall := some (.frame f ops nout false) } s)))
    ∧ (∀ fn os n (results : List Word), (masonAt s 4).stall = some (.frame fn os n true) → domainOn s 9 = true →
      (results.length = n → exec (.coprocessorReady results) s = .next (endFrame os results n s))
      ∧ (passedUs s s.port.copNow (regBits s Reg.mptCopTimeout 9 0) = true → results.length ≤ n → exec (.copTimeout results) s = .next (endFrame os results n (raiseFault 0x04 0 fn.val s))))

/-- The memory port (02 R86, R87, R92): a line fill puts its 64 bytes at the front of the prefetch buffer, which keeps four
lines; an interval's end makes the next frame of a poll due, and a poll that times out ends TIMEOUT.
Flash commands of the memory port (02 R90 to R92): FLASH_FRAME and FLASH_POLL take the port when it is free; the end of
a frame ends the command, stores what a read frame brought, and empties the prefetch buffer; a poll that misses waits. -/
def Obligations.MemoryPortAndFlash : Prop :=
  (
  ∀ s : State,
    (∀ (n : Nat) (demand : Bool) (data : List Byte), s.port.fill = some (n, demand) → s.port.fillOn = true → live s = true →
      data.length = 64 →
      Completes (.lineFill data) s (fun t => lineOf t n = some data ∧ t.port.lines.length ≤ 4
        ∧ t.port.lines.head? = some (n, data)))
    ∧ (∀ j : FlashJob, s.port.flash = some j → j.poll = true →
      (j.onPort = false → j.due = false → passedUs s j.lastEnd (leField j.desc 10 2) = true → portBusy s = false →
        exec .pollInterval s = .next (startFlash { j with due := true } (setPort { s.port with flash := some { j with due := true } } s)))
      ∧ (passedMs s j.since (leField j.desc 12 2) = true → (runningCmd s j.id).isSome = true →
        Completes .pollTimeout s (fun t => t.port.flash = none ∧ t.port.lines = [] ∧ EndsWith t j.id 0x40 ∧ t.mem = s.mem))))
  ∧ (
  ∀ (s : State),
    (∀ (req : Requester) (tag : Byte) (arg : BitVec 16), s.mem.symErr = [] → descOff s (16 * arg.toNat) 16 = false →
      s.port.flash = none → portBusy s = false →
      let job := fun (poll : Bool) => FlashJob.mk s.doors.nextId poll (mortarBytes s (16 * arg.toNat) 16) true true false s.now s.now
      let started := fun (poll : Bool) => { s.port with flash := some { job poll with first := false, due := false, onPort := true }, head := flashHead (job poll) }
      (DoorOpen s req 0x04 (doorWord tag 0x10 arg) → flashFrameBad s (mortarBytes s (16 * arg.toNat) 16) = false →
        Completes (.flashFrame req tag arg) s (fun t => DoorShows t req 0x04 (doorWord tag 0x10 arg) Oc.accepted
          ∧ t.port = started false
          ∧ t.regs = s.regs ∧ t.mem = s.mem))
      ∧ (DoorOpen s req 0x04 (doorWord tag 0x11 arg) → flashPollBad (mortarBytes s (16 * arg.toNat) 16) = false →
        Completes (.flashPoll req tag arg) s (fun t => DoorShows t req 0x04 (doorWord tag 0x11 arg) Oc.accepted
          ∧ t.port = started true
          ∧ t.regs = s.regs ∧ t.mem = s.mem)))
    ∧ (∀ j : FlashJob, s.port.flash = some j → j.onPort = true →
      (j.poll = false → leField j.desc 1 1 / 8 % 2 = 1 → ∀ data, Completes (.flashFrameEnd data) s (fun t =>
        t.port.flash = none ∧ t.port.lines = [] ∧ runningCmd t j.id = none ∧ t.mem = s.mem))
      ∧ (j.poll = false → leField j.desc 1 1 / 8 % 2 = 0 → leField j.desc 1 1 % 2 = 1 →
        rangeBusy s (leField j.desc 8 4) (leField j.desc 12 2) = false → s.mem.symErr = [] → ∀ data, Completes (.flashFrameEnd data) s
        (fun t => t.port.flash = none ∧ t.port.lines = [] ∧ runningCmd t j.id = none ∧ t.mem = s.mem))
      ∧ (j.poll = false → leField j.desc 1 1 / 8 % 2 = 0 → leField j.desc 1 1 % 2 = 0 → ∀ data : List Byte,
        data.length = leField j.desc 12 2 → Completes (.flashFrameEnd data) s (fun t =>
          t.port.flash = none ∧ t.port.lines = [] ∧ runningCmd t j.id = none
            ∧ t.mem = (engineWrite (leField j.desc 8 4) data (portFrame false data s)).mem))
      ∧ (j.poll = true → j.due = false → ∀ b : Byte, pollHit j.desc b = false → Completes (.flashFrameEnd [b]) s (fun t =>
        t.port.flash = some { j with onPort := false, lastEnd := s.now } ∧ regBits t Reg.mptFlashStatus 7 0 = b.toNat ∧ t.mem = s.mem))))

/-! ## Host frames (02) -/

/-- Frames that read (02 R61 to R73): a register word that is ready, with the words fetched beside it, is answered with the
status 0x3C and its value; STATUS gives
HPT.LANES and HPT.STATUS; a window read of one settled word gives that word. -/
def Obligations.HostReads : Prop :=
  ∀ (s : State), s.phase = .run → s.host.held = none →
    let b := frameBegin s
    let answers := fun (c : Instr) (w : Word) => Completes c s (fun t =>
      t.host.reply = some { statuses := [0x3C#8], words := [w] } ∧ t.host.held = none ∧ (s.mem.symErr = [] → t.mem = s.mem)
        ∧ t.masons = s.masons)
    let fetchedAtOnce := fun (x : HostItem) => itemCause b x = none ∧ itemHeld b x = none
    (∀ addr : RegIndex, (∃ r, pageRow (addr.toNat / 256) = some r ∧ addr.toNat % 256 ≤ r.last) →
      (fetchedAtOnce (.reg addr.toNat false) → answers (.rd 0x10#8 addr false false) (readWord b 0 addr.toNat))
      ∧ (addr.toNat / 256 ≠ 0x3F → (∀ x ∈ groupItems false (mwinBase s) addr.toNat 0 1, fetchedAtOnce x) →
        answers (.rdInc addr 1 false) (readWord b 0 addr.toNat)))
    ∧ answers .status (fieldWord 31 16 (bitsOf b.host.lanes 15 0) ||| fieldWord 15 0 (regBits s Reg.hptStatus 15 0))
    ∧ (∀ addr : RegIndex, 
      let a := mwinBase s + 4 * addr.toNat
      a < 0x100000 → (∀ x ∈ groupItems true (mwinBase s) addr.toNat 0 1, itemHeld b x = none) →
      keyGet s.mem.symErr (a / 8) 0 = 0 → isPoison s (a / 8) = false →
      answers (.mwinRd addr 1 false) (memWord s.mem.mortar (a / 4 * 4)))

/-- Frames that write (02 R61, R64, R77): each accepted word is the direct write of one register or one half of a Mortar
word; a word clocked while the posted words fill the buffer is discarded and sets WR_OVERRUN (R78).
What a host word does to Mortar (02 R64, 12 R476, 17 R610): on a powered bank, at a word that is neither provisional,
poisoned nor in error, its four bytes are stored at the address with its low bits dropped, and no other byte changes. -/
def Obligations.HostWrites : Prop :=
  (
  ∀ (s : State) (addr : RegIndex) (w : Word), s.phase = .run → s.host.held = none →
    let b := frameBegin s
    let c := chkWords 0 1 [w] b
    (postedWords s < 16 → inDirectory (addr.toNat / 256) = true → addr.toNat / 256 ≠ 0x3F →
      exec (.wr addr w false false) s = .next (frameDone (directWrite .host addr.toNat w c))
      ∧ exec (.wrInc addr [w] 1) s = .next (frameDone (directWrite .host addr.toNat w c))
      ∧ ((addr.toNat / 256 = 0x00 ∨ addr.toNat / 256 = 0x02 ∨ addr.toNat / 256 = 0x06 ∨ addr.toNat / 256 = 0x0D) →
        16 ≤ addr.toNat % 256 → WriteOpen c .host addr.toNat w → (rowNow c addr.toNat).isSome = true →
        exec (.wr addr w false false) s = .next (frameDone (withWritten c addr.toNat w))
        ∧ exec (.wrInc addr [w] 1) s = .next (frameDone (withWritten c addr.toNat w))))
    ∧ (16 ≤ postedWords s → ∀ n, exec (.wrInc addr [w] n) s = .next (frameDone (portSticky 6 b)))
    ∧ (postedWords s < 16 →
      exec (.mwinWr addr [w] 1) s = .next (frameDone (hostMortar (mwinBase s + 4 * addr.toNat) addr.toNat w c))))
  ∧ (
  ∀ (s : State) (a idx b : Nat) (w : Word), a < 0x200000 → bankOff s a = false → bankBusy s a = false →
    writeWaits s .host a = none →
    keyGet s.mem.symErr (a / 8) 0 = 0 → isPoison s (a / 8) = false →
    let t := hostMortar a idx w s
    (∀ i, i < 4 → b = a / 4 * 4 + i → memGet t.mem.mortar b = w.extractLsb' (8 * i) 8)
    ∧ ((b < a / 4 * 4 ∨ a / 4 * 4 + 4 ≤ b) → memGet t.mem.mortar b = memGet s.mem.mortar b)
    ∧ t.mem.mram = s.mem.mram ∧ t.regs = s.regs)

/-- Transaction frames (02 R66, R67; 04 R152, R154, R178, R181): TXN_BEGIN opens the lowest free identifier and replies
with it; WR_TXN stages a register; TXN_COMMIT replies as its commit does; TXN_ABORT ends the host's open identifier. -/
def Obligations.HostTransactions : Prop :=
  ∀ (s : State), s.phase = .run → s.host.held = none → s.txn.ids.length = 8 →
    let b := frameBegin s
    (∀ k, activeSecondary s = false → lowestFree s.txn.ids 0 = some k → Completes .txnBegin s (fun t =>
      (txnAt t k).phase = .openPhase ∧ (txnAt t k).requester = .host ∧ (txnAt t k).openedAt = s.now
        ∧ t.host.reply = some { statuses := [0x3C#8], words := [0x80000000#32 ||| BitVec.ofNat 32 k] }))
    ∧ (∀ (k : Fin 8) (addr : RegIndex) (w : Word), (txnAt s k.val).phase = .openPhase → (txnAt s k.val).requester = .host →
      let c := chkWords 0 1 [w] b
      postedWords s < 16 → addr.toNat < 0x200 → pageUp s (addr.toNat / 256) = true → stageRefusal .host c addr.toNat w = none →
      (txnAt s k.val).regs = [] → entryFits c (txnAt s k.val) false = true →
      Completes (.wrTxn (BitVec.ofNat 8 k.val) addr [w] 1) s (fun t =>
        (txnAt t k.val).regs = [(addr.toNat, w)] ∧ t.mem = s.mem
          ∧ ((∀ u, u < 4 → regBit s (chkReg u 0) 31 = false) → t.regs = s.regs)))
    ∧ (∀ (addr : Word) (w : Word), bitsOf addr 31 24 < 8 → (hostCommit addr b).2 = some w →
      exec (.txnCommit addr) s = .next (frameDone (sendWords 0x3C#8 [w] (hostCommit addr b).1)))
    ∧ (∀ k : Fin 8, (txnAt s k.val).phase = .openPhase → (txnAt s k.val).requester = .host →
      Completes (.txnAbort (BitVec.ofNat 8 k.val)) s (fun t => (txnAt t k.val).phase = .free
        ∧ getReg t (Reg.txnOutcome + k.val) = txnWord 3 Ab.hostAbort (txnAt s k.val).tag))

/-- Queues and held frames (02 R68, R72, R74, R79): QPOP of a queue that holds an entry sends its header and payload and takes it
from the queue; a held commit frame sends its reply when it is ready; a held read that reaches the limit is answered 0x96
with cause 0x03, and its index with it; a select that rises part-way sets HPT.STATUS bit 7. -/
def Obligations.HostQueuesAndHeldFrames : Prop :=
  ∀ (s : State), s.phase = .run →
    (∀ (addr : RegIndex) (e : QEntry) (rest : List QEntry), s.host.held = none → queueCap addr.toNat ≠ 0 →
      pageUp s (addr.toNat / 256) = true → crossingWaits s .host addr.toNat = false →
      (queueAt s addr.toNat).entries = e :: rest →
      Completes (.qpop addr (e.words.length + 1) false) s (fun t => (queueAt t addr.toNat).entries = rest
        ∧ t.host.reply = some { statuses := [0x3C#8], words := popHeader e.poison e :: e.words }))
    ∧ (∀ r : Reply, s.host.reply = some r →
      (∀ a w why, s.host.held = some (.commit a (some w), why) → Completes .readReady s (fun t =>
        t.host.held = none ∧ t.host.reply = some { statuses := r.statuses ++ [0x3C#8], words := r.words ++ [w] }))
      ∧ (∀ addr why, addr < 0x10000 → busyExpired s = true →
        (s.host.held = some (.one addr, why) ∨ (addr / 256 ≠ 0x3F ∧ s.host.held = some (.read false 0 addr 1, why))) →
        Completes .busyTimeout s (fun t => t.host.held = none
          ∧ t.host.reply = some { statuses := r.statuses ++ [0x96#8], words := r.words ++ [0#32] }
          ∧ bitsOf (getReg t Reg.hptErrInfo) 23 16 = 3 ∧ bitsOf (getReg t Reg.hptErrInfo) 15 0 = addr)))
    ∧ (s.host.held = none → s.mem.symErr = [] → ∀ window addr,
      Completes (.selectReleasedMidWord .host (.readData window addr 0)) s (fun t =>
        regBit t Reg.hptStatus 7 = true ∧ t.mem = s.mem ∧ t.txn = s.txn))

/-- A host frame in reset (02 R58): the spec leaves it undefined, and the model stops by name.
A command stops only so (02 R58): every command answers a next state but a host frame in reset. -/
def Obligations.OnlyHostFramesInResetStop : Prop :=
  (
  ∀ (s : State), s.phase = .inReset →
    exec .status s = .fault .frameWhileNotReady ∧ exec .txnBegin s = .fault .frameWhileNotReady
    ∧ (∀ a w o p, exec (.wr a w o p) s = .fault .frameWhileNotReady)
    ∧ (∀ c a l p, exec (.rd c a l p) s = .fault .frameWhileNotReady)
    ∧ (∀ a n l, exec (.rdInc a n l) s = .fault .frameWhileNotReady ∧ exec (.mwinRd a n l) s = .fault .frameWhileNotReady)
    ∧ (∀ a ws n, exec (.wrInc a ws n) s = .fault .frameWhileNotReady ∧ exec (.mwinWr a ws n) s = .fault .frameWhileNotReady)
    ∧ (∀ i a ws n, exec (.wrTxn i a ws n) s = .fault .frameWhileNotReady ∧ exec (.txnAbort i) s = .fault .frameWhileNotReady)
    ∧ (∀ a, exec (.txnCommit a) s = .fault .frameWhileNotReady)
    ∧ (∀ a n p, exec (.qpop a n p) s = .fault .frameWhileNotReady)
    ∧ (∀ f, exec (.selectReleasedMidWord .host f) s = .fault .frameWhileNotReady))
  ∧ (
  ∀ (c : Instr) (s : State), s.phase ≠ .inReset → ∃ t, exec c s = .next t)

/-! ## Register commands (00 R11, 03) -/

/-- Header controls (03 R114, R116, R128, R144): LOCK sets its bit and changes no other register; a soft reset leaves EVENT,
FAULT and WRITE_REJECT clear and no door tag remembered; SNAPSHOT captures the registers of the group as they stand;
RESULT_RELEASE of the shown ticket takes the result away, and a release of another ticket leaves every result. -/
def Obligations.HeaderCommands : Prop :=
  ∀ (s : State) (req : Requester) (page : Byte),
    let p := page.toNat
    (WriteOpen s req (pageReg p 2) (pageCtrlWord s p 31) → Completes (.lock req page) s (fun t =>
      regBit t (pageReg p 2) 31 = true ∧ (∀ j, j ≠ pageReg p 2 → getReg t j = getReg s j) ∧ t.mem = s.mem ∧ t.txn = s.txn))
    ∧ (WriteOpen s req (pageReg p 2) (pageCtrlWord s p 1) → softResets p = true → Completes (.softReset req page) s (fun t =>
      getReg t (pageReg p 4) = 0#32 ∧ getReg t (pageReg p 8) = 0#32 ∧ getReg t (pageReg p 0xA) = 0#32
        ∧ (∀ r tag, remembered t p r tag = none)))
    ∧ (∀ g : Byte, WriteOpen s req (pageReg p 0xB) (oneBit 31 ||| g.setWidth 32) → Completes (.snapshot req page g) s (fun t =>
      (snapCtlAt t p (Requester.set req)).group = g.toNat
        ∧ (snapCtlAt t p (Requester.set req)).seq = (snapCtlAt s p (Requester.set req)).seq + 1
        ∧ (∀ i ∈ groupRegs p g.toNat, keyFind t.snaps (snapKey (Requester.set req) i)
            = some (pageWord { s with snapCtl := t.snapCtl } (Requester.set req) i))
        ∧ t.regs = s.regs ∧ t.mem = s.mem))
    ∧ (∀ (word : Word) (h n rel : Nat) (r : ResultEntry) (rest : List ResultEntry), resultBlock p = some (h, n, rel) →
      WriteOpen s req rel word → resultsOf s p = r :: rest → word.toNat = r.ticket →
      Completes (.resultRelease req page word) s (fun t => resultsOf t p = rest ∧ t.regs = s.regs ∧ t.mem = s.mem))
    ∧ (∀ (word : Word) (h n rel : Nat) (r : ResultEntry) (rest : List ResultEntry), resultBlock p = some (h, n, rel) →
      resultsOf s p = r :: rest → word.toNat ≠ r.ticket →
      Completes (.resultRelease req page word) s (fun t => t.doors.results = s.doors.results ∧ t.mem = s.mem))

/-- A write to a register without behaviour of its own (00 R11, 03 R106, R126): accepted, it changes that register alone,
each field by its access type; refused, it changes no register but the page's WRITE_REJECT and EVENT, which record the
requester, the reason and the index.
Writes whose register controls a block: the word is stored, and the block follows (05 R205, R212; 08 R322, R339; 09 R378;
10 R392; 11 R433, R456; 15 R563; 18 R650). -/
def Obligations.RegisterWrites : Prop :=
  (
  ∀ (s : State) (req : Requester) (i : RegIndex) (w : Word),
    (i.toNat / 256 = 0x00 ∨ i.toNat / 256 = 0x02 ∨ i.toNat / 256 = 0x06 ∨ i.toNat / 256 = 0x0D) → 16 ≤ i.toNat % 256 →
    (WriteOpen s req i.toNat w → (rowNow s i.toNat).isSome = true →
      exec (.registerWrite req i w) s = .next (withWritten s i.toNat w))
    ∧ (∀ reason, pageUp s (i.toNat / 256) = true → heldByApply s i.toNat = false → crossingWaits s req i.toNat = false →
      (∀ m, req = .mason m → isBound s m = false) → writeRefusal req s i.toNat w = some reason → (req = .host → reason ≠ 4) →
      twinRole s ≠ 1 →
      Completes (.registerWrite req i w) s (fun t =>
        let rej := getReg t (pageReg (i.toNat / 256) 0xA)
        rej.getLsbD 31 = true ∧ bitsOf rej 27 24 = Requester.code req ∧ bitsOf rej 23 16 = reason % 256
          ∧ bitsOf rej 15 0 = i.toNat ∧ regBit t (pageReg (i.toNat / 256) 4) 29 = true
          ∧ (∀ j, j ≠ pageReg (i.toNat / 256) 0xA → j ≠ pageReg (i.toNat / 256) 4 → getReg t j = getReg s j) ∧ t.mem = s.mem)))
  ∧ (
  ∀ (s : State) (req : Requester) (w : Word),
    (WriteOpen s req 0x1011 w → Completes (.patsel req w) s (fun t =>
      regBits t 0x1011 3 0 = bitsOf w 3 0 ∧ t.fld.sel = bitsOf w 3 0 ∧ t.fld.changeDue = true))
    ∧ (WriteOpen s req 0x1010 w → exec (.fieldRequest (.register req w)) s = .next (fieldFollow (withWritten s 0x1010 w)))
    ∧ (∀ holds, domainOn s 3 = true →
      exec (.fieldRequest (.job holds)) s = .next (fieldFollow (setFld { s.fld with jobHold := holds } s)))
    ∧ (∀ p : Fin 4, WriteOpen s req (bpReg p.val 0x10) w →
      exec (.tune req p w) s = .next (tuneWritten req p.val (getReg s (bpReg p.val 0x10)) (withWritten s (bpReg p.val 0x10) w)))
    ∧ (∀ p : Fin 4, WriteOpen s req (bpReg p.val 0x11) w →
      exec (.role req p w) s = .next (rolesApplied s (withWritten s (bpReg p.val 0x11) w)))
    ∧ (∀ k : Fin 8, WriteOpen s req (0x1D18 + k.val) w → Completes (.stream req (BitVec.ofNat 16 (0x1D18 + k.val)) w) s (fun t =>
      getReg t (0x1D18 + k.val) = mergedWord s (0x1D18 + k.val) w
        ∧ (∀ v ∈ t.bcast.votes, v.stream ≠ k.val) ∧ (∀ v ∈ t.bcast.closed, v.stream ≠ k.val)))
    ∧ (WriteOpen s req 0x2012 w →
      exec (.channel req w) s = .next (radioWritten 0x2012 (getReg s 0x2012) (withWritten s 0x2012 w)))
    ∧ (WriteOpen s req 0x2216 w → exec (.doneMap req w) s = .next (doneMapWritten w s))
    ∧ (WriteOpen s req 0x2210 w → Completes (.linkEnable req w) s (fun t =>
      regBit t 0x2210 31 = w.getLsbD 31 ∧ (w.getLsbD 31 = true → regBit s 0x2210 31 = false → t.link.activeNow = some s.now)
        ∧ (w.getLsbD 31 = false → regBit s 0x2210 31 = true → t.link.activeNow = none)))
    ∧ (WriteOpen s req 0x0511 w → s.clocks.plumb ≠ .off → Completes (.plumb req w) s (fun t =>
      t.clocks.plumb = .acquiring ∧ t.clocks.acqNow = s.now))
    ∧ (∀ ball : Fin 12, WriteOpen s req (0x3010 + ball.val) w →
      exec (.func req ball w) s = .next (withWritten s (0x3010 + ball.val) w)))

/-- Timer registers (14 R527 to R534, R540): CTRL is stored, and with EN newly set the edge counter restarts and the count stays;
CNT and TOP are stored and fire nothing; a write of CMP fires the match at once if the count has passed it; the global start and stop
set and clear EN of exactly the timers named that do not have it so.
The timers tick, overflow, match and capture (14 R527, R528, R534, R537): the count rises by one, or returns to 0 at
TOP and stops there in one-shot mode; a match and an overflow raise their events; a capture takes the count.
A stopped timer (14 R530): while EN is 0 no tick, match, overflow or capture changes anything, whatever CMP is written. -/
def Obligations.Timers : Prop :=
  (
  ∀ (s : State) (req : Requester) (n : Fin 16) (w : Word), 
    let r := fun off => timerReg n.val off
    (WriteOpen s req (r 0) w → timerReserved s n.val 0 = false →
      exec (.ctrl req n w) s = .next (timerWritten n.val 0 (getReg s (r 0)) (withWritten s (r 0) w))
      ∧ (s.timers.edges.length = 16 → bitAt (mergedWord s (r 0) w) 31 = true → timerEn s n.val = false →
        Completes (.ctrl req n w) s (fun t => getReg t (r 0) = mergedWord s (r 0) w ∧ t.timers.edges.getD n.val 0 = 0
          ∧ getReg t (r 1) = getReg s (r 1) ∧ getReg t (pageReg (timerPage n.val) 4) = getReg s (pageReg (timerPage n.val) 4))))
    ∧ (WriteOpen s req (r 1) w → exec (.cnt req n .count w) s = .next (withWritten s (r 1) w))
    ∧ (WriteOpen s req (r 2) w → exec (.cnt req n .top w) s = .next (withWritten s (r 2) w))
    ∧ (WriteOpen s req (r 3) w → timerLinked s n.val = false → (rowNow s (r 3)).isSome = true →
      let t := withWritten s (r 3) w
      exec (.cmp req n false w) s = .next (if getReg t (r 3) ≠ getReg s (r 3) ∧ timerRuns t n.val ∧ cmpPassed t n.val
        then timerMatch n.val t else t))
    ∧ (∀ join, let x := if join then (getReg s (r 0) &&& ~~~(oneBit 29)) ||| oneBit 29 else getReg s (r 0) &&& ~~~(oneBit 29)
      WriteOpen s req (r 0) x → n.val % 2 = 0 → Completes (.link req n join) s (fun t => timerLinked t n.val = join
        ∧ t.mem = s.mem))
    ∧ (∀ mask : BitVec 16, WriteOpen s req 0x0710 (mask.setWidth 32) → Completes (.globalStart req mask) s (fun t =>
      ∀ k : Fin 16, timerEn t k.val = (timerEn s k.val || (mask.getLsbD k.val && !(highHalf s k.val)))))
    ∧ (∀ mask : BitVec 16, WriteOpen s req 0x0711 (mask.setWidth 32) → Completes (.globalStop req mask) s (fun t =>
      ∀ k : Fin 16, timerEn t k.val = (timerEn s k.val && !(mask.getLsbD k.val && !(highHalf s k.val)))))
    ∧ (pageUp s (r 1 / 256) = true → crossingWaits s req (r 1) = false → timerLinked s n.val = true → Completes (.cntRead req n) s (fun t =>
      keyFind t.timers.snaps (snapOf (Requester.set req) n.val (n.val % 2))
          = some (BitVec.ofNat 32 (regBits s (timerReg (if n.val % 2 = 0 then n.val + 1 else n.val - 1) 1) 15 0))
        ∧ t.regs = s.regs ∧ t.mem = s.mem)))
  ∧ (
  ∀ (s : State) (n : Fin 16), timerRuns s n.val = true →
    let ticked := { s.timers with ticks := s.timers.ticks.set n.val (s.timers.ticks.getD n.val 0 + 1) }
    (tickDue s n.val = true →
      (timerCount s n.val < timerTop s n.val → Completes (.tick n) s (fun t =>
        timerCount t n.val = timerCount s n.val + 1 ∧ timerEn t n.val = true ∧ t.timers = ticked ∧ t.mem = s.mem))
      ∧ (timerTop s n.val ≤ timerCount s n.val → exec (.tick n) s = exec (.overflow n) s ∧ Completes (.overflow n) s (fun t =>
        timerCount t n.val = 0 ∧ regBit t (pageReg (timerPage n.val) 4) (8 + n.val % 8) = true
          ∧ timerEn t n.val = !(regBit s (timerReg n.val 0) 30) ∧ t.timers = ticked ∧ t.mem = s.mem))
      ∧ (timerCount s n.val < timerTop s n.val → timerCmp s n.val = timerCount s n.val + 1 → Completes (.matchEvent n) s (fun t =>
        timerCount t n.val = timerCount s n.val + 1 ∧ regBit t (pageReg (timerPage n.val) 4) (n.val % 8) = true
          ∧ t.timers = ticked ∧ t.mem = s.mem)))
    ∧ (∀ level : Bool, regBit s (timerReg n.val 0) 28 = true → s.timers.edges.length = 16 →
      s.timers.accepted.getD n.val none = some (!level) → captureKind s n.val level = true →
      regBits s (timerReg n.val 5) 19 16 ≤ s.timers.differing.getD n.val 0 + 1 →
      (s.timers.edges.getD n.val 0 + 1 ≤ regBits s (timerReg n.val 5) 7 0 → Completes (.timerCapture n [level]) s (fun t =>
        t.timers.edges.getD n.val 0 = s.timers.edges.getD n.val 0 + 1 ∧ t.regs = s.regs ∧ t.mem = s.mem))
      ∧ (regBits s (timerReg n.val 5) 7 0 < s.timers.edges.getD n.val 0 + 1 → Completes (.timerCapture n [level]) s (fun t =>
        t.timers.edges.getD n.val 0 = 0 ∧ regBit t (timerReg n.val 7) 29 = true
          ∧ regBit t (pageReg (timerPage n.val) 4) (16 + n.val % 8) = true
          ∧ getReg t (timerReg n.val (if timerLinked s n.val then 13 else 4)) = BitVec.ofNat 32 (timerCount s n.val)
          ∧ t.mem = s.mem))))
  ∧ (
  ∀ (s : State) (n : Fin 16), timerEn s n.val = false →
    exec (.tick n) s = .next s ∧ exec (.overflow n) s = .next s ∧ exec (.matchEvent n) s = .next s
    ∧ (∀ samples, exec (.timerCapture n samples) s = .next s)
    ∧ (∀ (req : Requester) (w : Word), WriteOpen s req (timerReg n.val 3) w → timerLinked s n.val = false →
      exec (.cmp req n false w) s = .next (withWritten s (timerReg n.val 3) w)))

/-- Check-value and mason registers (14 R546, R547; 13 R499, R522): a write of CFG is stored, and one that opens a unit loads
the parameters of SEL; VALUE and BYTES are stored; CTRL.RESET of mason 4 holds it in reset; a halted mason's data windows write program and
data at ADDR and advance it. -/
def Obligations.CheckAndMasonRegisters : Prop :=
  ∀ (s : State) (req : Requester) (w : Word),
    (∀ u : Fin 4, WriteOpen s req (chkReg u.val 0) w →
      exec (.checkValueCfg req u w) s = .next (chkCfgWritten u.val (getReg s (chkReg u.val 0)) (withWritten s (chkReg u.val 0) w))
      ∧ (bitAt (mergedWord s (chkReg u.val 0) w) 30 = true → regBit s (chkReg u.val 0) 30 = false →
        let p := crcOfSel (bitsOf (mergedWord s (chkReg u.val 0) w) 2 0)
        Completes (.checkValueCfg req u w) s (fun t => getReg t (chkReg u.val 0) = mergedWord s (chkReg u.val 0) w
          ∧ getReg t (chkReg u.val 1) = p.poly ∧ getReg t (chkReg u.val 2) = p.init ∧ getReg t (chkReg u.val 3) = p.xorOut
          ∧ t.mem = s.mem)))
    ∧ (∀ u : Fin 4, WriteOpen s req (chkReg u.val 5) w → exec (.value req u false w) s = .next (withWritten s (chkReg u.val 5) w))
    ∧ (∀ u : Fin 4, WriteOpen s req (chkReg u.val 7) w → exec (.value req u true w) s = .next (withWritten s (chkReg u.val 7) w))
    ∧ (WriteOpen s req 0x2C10 w → s.masons.length = 5 → w.getLsbD 0 = true → (masonAt s 4).resetHeld = false →
      (masonAt s 4).state ≠ .loading → Completes (.masonReset req 4 w) s (fun t =>
        (masonAt t 4).state = .reset ∧ (masonAt t 4).resetHeld = true ∧ (masonAt t 4).dram = (masonAt s 4).dram))
    ∧ (WriteOpen s req 0x2C15 w → s.masons.length = 5 → Completes (.pmData req 4 (some w)) s (fun t =>
      progWord t 4 (regBits s 0x2C14 13 0) = BitVec.ofNat 14 w.toNat
        ∧ regBits t 0x2C14 13 0 = (regBits s 0x2C14 13 0 + 1) % 0x4000 ∧ t.mem = s.mem))
    ∧ (WriteOpen s req 0x2C17 w → s.masons.length = 5 → Completes (.dmData req 4 (some w)) s (fun t =>
      (masonAt t 4).dram = memPutWord (masonAt s 4).dram (regBits s 0x2C16 14 0) w ∧ t.mem = s.mem))
    ∧ (pageUp s 0x2C = true → debugLocked s = false → crossingWaits s req 0x2C15 = false → Completes (.pmData req 4 none) s (fun t =>
      regBits t 0x2C14 13 0 = (regBits s 0x2C14 13 0 + 1) % 0x4000 ∧ t.masons = s.masons ∧ t.mem = s.mem))

/-! ## Transactions (04) and tests (03 R140, R657) -/

/-- Commit conditions, windows, time-outs and aborts (04 R152, R173, R176, R181, R191): the condition of a waiting
transaction strobes it; the end of a window without Mortar words ends it COMMITTED; the limit and the ABORT door end it
ABORTED with their codes.
What a strobe applies (04 R168, R174): with guards that pass, a transaction of one entry to a DEV register and nothing
else leaves exactly that register written, and the identifier APPLYING until its window ends. -/
def Obligations.TransactionEndsAndStrobe : Prop :=
  (
  ∀ (s : State) (k : Fin 8), live s = true → s.txn.ids.length = 8 →
    let x := txnAt s k.val
    (x.phase = .waiting → condMet s x = true → repairYields s k.val x = false →
      exec (.commitConditionMet k) s = .next (strobe k.val s))
    ∧ (x.phase = .applying → x.mortar = [] → mirrors s = false → s.txn.held = [] → Completes (.applyWindowEnd k) s (fun t =>
      (txnAt t k.val).phase = .free ∧ getReg t (Reg.txnOutcome + k.val) = txnWord 2 0 x.tag ∧ t.mem = s.mem))
    ∧ (x.phase = .openPhase → x.openedAt + x.limitMs * 13560 ≤ s.now → Completes (.txnTimeout k) s (fun t =>
      (txnAt t k.val).phase = .free ∧ getReg t (Reg.txnOutcome + k.val) = txnWord 3 0x03 x.tag ∧ t.mem = s.mem))
    ∧ (∀ (req : Requester) (tag : Byte), DoorOpen s req 0x02 (doorWord tag 0x01 (BitVec.ofNat 16 k.val)) → x.phase = .openPhase →
      (req = .host ∨ x.requester = req) →
      Completes (.abort req tag (BitVec.ofNat 16 k.val)) s (fun t =>
        (txnAt t k.val).phase = .free ∧ getReg t (Reg.txnOutcome + k.val) = txnWord 3 0x07 x.tag
          ∧ DoorShows t req 0x02 (doorWord tag 0x01 (BitVec.ofNat 16 k.val)) Oc.done ∧ t.mem = s.mem)))
  ∧ (
  ∀ (s : State) (k : Fin 8) (off : Nat) (w : Word), s.txn.ids.length = 8 → 16 ≤ off → off < 256 →
    (txnAt s k.val).regs = [(off, w)] → (txnAt s k.val).guards = [] → (txnAt s k.val).doors = [] →
    (txnAt s k.val).mortar = [] → (txnAt s k.val).cond ≠ 0x20 →
    (∀ j, j < 8 → j ≠ k.val → (txnAt s j).touches off = false) → (rowNow s off).isSome = true →
    (∀ m : Fin 5, ∀ i tag, (masonAt s m).stall ≠ some (.commit i tag)) → s.bcast.swap = none → (txnAt s k.val).requester = .host →
    let t := strobe k.val s
    getReg t off = mergedWord s off w ∧ (∀ i, i ≠ off → getReg t i = getReg s i) ∧ t.mem = s.mem
      ∧ (txnAt t k.val).phase = .applying)

/-- Self-tests and calibrations (03 R139, R140, R657, 17 R615): on a page that offers it, is idle and has no other, one starts
at once and reads ACCEPTED; a deferred one starts in its gap, and an urgent one at its page's boundary where it preempts
nothing; one whose deadline passes ends NOT_RUN, and one that completes ends DONE or FAILED. -/
def Obligations.SelfTests : Prop :=
  ∀ (s : State) (req : Requester) (tag : Byte) (arg : BitVec 16),
    (∀ page : Byte, s.doors.tests = [] → testIdle s page.toNat = true →
      (offersTest page.toNat 0xF0 = true → DoorOpen s req page.toNat (doorWord tag 0xF0 arg) →
        Completes (.selfTest req page tag arg) s (fun t =>
          DoorShows t req page.toNat (doorWord tag 0xF0 arg) Oc.accepted ∧ testRuns t page.toNat = true ∧ t.mem = s.mem))
      ∧ (offersTest page.toNat 0xF1 = true → DoorOpen s req page.toNat (doorWord tag 0xF1 arg) →
        Completes (.calibrate req page tag arg) s (fun t =>
          DoorShows t req page.toNat (doorWord tag 0xF1 arg) Oc.accepted ∧ testRuns t page.toNat = true ∧ t.mem = s.mem)))
    ∧ (∀ (page : Byte) (c : TestCmd), nextTest s page.toNat = some c → pageUp s page.toNat = true → s.now < c.deadline →
      (testIdle s page.toNat = true → Completes (.deferredStart page) s (fun t => testRuns t page.toNat = true ∧ t.mem = s.mem))
      ∧ (c.urgent = true → testBoundary s page.toNat = true →
        (pagePath page.toNat = none ∧ page.toNat ≠ 0x10 ∧ page.toNat ≠ 0x12 ∧ page.toNat ≠ 0x14
          ∨ ∃ b, pagePath page.toNat = some b ∧ (pathAt s b.val).jobs = []) →
        Completes (.urgentStart page) s (fun t => testRuns t page.toNat = true ∧ t.mem = s.mem)))
    ∧ (∀ (page : Byte) (c : TestCmd), (testsOf s page.toNat).find? (fun c => !c.started && c.deadline ≤ s.now) = some c →
      Completes (.notRun page) s (fun t => EndsWith t c.id Oc.notRun ∧ (∀ u ∈ t.doors.tests, u.id ≠ c.id) ∧ t.mem = s.mem))
    ∧ (∀ (page : Byte) (c : TestCmd) (pass : Bool) (detail : BitVec 24) (trims : List Int),
      (testsOf s page.toNat).find? (·.started) = some c → pageUp s page.toNat = true →
      (pagePath page.toNat = none ∧ page.toNat ≠ 0x20 ∧ page.toNat ≠ 0x21
          ∧ (page.toNat = 0x10 → pass = true ∧ s.fld.surveyFull = false)
        ∨ ∃ b, pagePath page.toNat = some b ∧ (pathAt s b.val).jobs = []) →
      Completes (.testComplete page pass detail trims) s (fun t => EndsWith t c.id (if pass then Oc.done else Oc.failed)
        ∧ (∀ u ∈ t.doors.tests, u.id ≠ c.id) ∧ t.mem = s.mem))

/-! ## Field synthesis (05) -/

/-- The field follows its commands (05 R195, R205, R212 to R218): a due change drives the selected ashlar with its words;
a fault stops its port and raises FAULT.PORT; the ramps end in ON and OFF; the limiter takes one step.
The limiter's rule (05 R217, R218): above POWER_MW or at TEMP_C it adds one step, and none beyond 500; at 95 % of
POWER_MW or less and 5 °C below TEMP_C it takes one away, not below 0; otherwise it keeps what it has. -/
def Obligations.FieldAndLimiter : Prop :=
  (
  ∀ (s : State), domainOn s 3 = true →
    (∀ trims : List Int, s.fld.changeDue = true → s.clocks.bypass = false → (selection s).1 < 16 → changeRefused s = false →
      readerFrameOn s = false → s.frx.windowOpen = false →
      let driven := drivenPorts s (selection s).1 (ashlarWords s (selection s).1)
      Completes (.ashlarChange trims) s (fun t =>
        activeAshlar t = (selection s).1 ∧ t.fld.driven = ashlarWords s (selection s).1 ∧ t.fld.changeDue = false
          ∧ ((∀ p ∈ driven, -64 ≤ trims.getD p 0 ∧ trims.getD p 0 ≤ 64) →
            ∀ p ∈ driven, regBits t (Reg.fldPortStatus + p) 9 0 = intField 10 (trims.getD p 0)) ∧ t.mem = s.mem))
    ∧ (∀ (p : Fin 8) (k : Fin 4), k ≠ 0 → portInUse s p.val = true → Completes (.portFault p k) s (fun t =>
      portFaulted t p.val = true ∧ regBits t (Reg.fldPortStatus + p.val) 29 28 = k.val ∧ regBit t 0x1008 0 = true
        ∧ (getReg s 0x1008 = 0#32 → bitsOf (getReg t 0x1009) 23 0 = p.val * 256 + k.val) ∧ t.mem = s.mem))
    ∧ (fieldState s = Fs.rampUp → s.fld.since + regBits s Reg.fldRamp 5 0 + 1 ≤ s.now → Completes .rampUpEnd s (fun t => fieldState t = Fs.on ∧ t.mem = s.mem))
    ∧ (fieldState s = Fs.rampDown → s.fld.since + regBits s Reg.fldRamp 13 8 + 1 ≤ s.now → Completes .rampDownEnd s (fun t => fieldState t = Fs.off ∧ t.fld.offMinDone = false
      ∧ regBit t Reg.proSession 31 = false ∧ t.mem = s.mem))
    ∧ (fieldRequested s = false → fieldState s = Fs.off → passedUs s s.fld.since (100 * regBits s Reg.fldRamp 23 16) = true →
      Completes .offMinExpiry s (fun t => t.fld.offMinDone = true
      ∧ fieldState t = Fs.off ∧ t.mem = s.mem))
    ∧ (∀ outMw average hottest, fieldState s ≠ Fs.thermalOff → average ≤ 4095 → s.fld.limitAt + 256 ≤ s.now →
      (readerFrameOn s = true → Completes (.limiterStep outMw average hottest) s (fun t =>
        t.fld.limitDue = some (average, hottest) ∧ atten t = atten s ∧ fieldState t = fieldState s ∧ t.mem = s.mem))
      ∧ (readerFrameOn s = false →
      (∀ a, limiterNext s average hottest = some a → a < 512 → Completes (.limiterStep outMw average hottest) s (fun t =>
        atten t = a ∧ regBits t Reg.fldLimitStatus 11 0 = average ∧ fieldState t = fieldState s ∧ t.mem = s.mem))
      ∧ (limiterNext s average hottest = none → s.nfc.run = none → Completes (.limiterStep outMw average hottest) s (fun t =>
        fieldState t = Fs.thermalOff ∧ regBit t 0x1008 1 = true ∧ t.mem = s.mem))))
    ∧ (∀ hottest, fieldState s = Fs.thermalOff → hottest ≤ (regBits s Reg.fldLimit 7 0 : Int) - 15 → fieldRequested s = false →
      Completes (.thermalRecovery hottest) s (fun t => fieldState t = Fs.off ∧ atten t = 250 ∧ t.mem = s.mem)))
  ∧ (
  ∀ (s : State) (average : Nat) (hottest : Int),
    let limit := regBits s Reg.fldLimit 27 16
    let temp : Int := (regBits s Reg.fldLimit 7 0 : Nat)
    ((limit < average ∨ temp ≤ hottest) → atten s < 500 → limiterNext s average hottest = some (atten s + 1))
    ∧ ((limit < average ∨ temp ≤ hottest) → 500 ≤ atten s → limiterNext s average hottest = none)
    ∧ (average ≤ limit → average * 100 ≤ limit * 95 → hottest ≤ temp - 5 →
      limiterNext s average hottest = some (atten s - 1))
    ∧ (average ≤ limit → hottest < temp → (limit * 95 < average * 100 ∨ temp - 5 < hottest) →
      limiterNext s average hottest = some (atten s)))

/-- Surveys, solves and cascade switches (05 R219, R227, R228, R235, R236): a survey step joins the port's responses; SOLVE
takes its inputs under a ticket, and its result is delivered in order and ends it DONE; CASC_LOAD sends to the members
present; CASC_SWITCH schedules the ashlar, which is driven at its cycle. -/
def Obligations.SurveySolveSwitch : Prop :=
  ∀ (s : State) (req : Requester) (tag : Byte),
    (∀ (r : SurveyReport), domainOn s 3 = true → domainOn s 4 = true → surveyMayRun s = true →
      nextSurveyPort s = some r.port.val → surveyAllowed s r.port.val = true → r.selfOk = true →
      let self := r.responses.getD r.port.val (0, 0)
      let row := (List.range 8).map (fun j => couplingWord (freeWordOf s) self (r.responses.getD j (0, 0)))
      (nextSurveyPort (setFld { s.fld with survey := s.fld.survey ++ [(r.port.val, row)] } s)).isSome = true →
      Completes (.surveyStep r) s (fun t => t.fld.survey = s.fld.survey ++ [(r.port.val, row)] ∧ t.regs = s.regs))
    ∧ (DoorOpen s req 0x10 (doorWord tag 0x10 0) → s.fld.surveyValid = true → resultFull s 0x10 [0x10] = false →
      Completes (.solve req tag 0) s (fun t =>
        DoorShows t req 0x10 (doorWord tag 0x10 0) Oc.accepted ∧ t.fld.solves.length = s.fld.solves.length + 1
          ∧ (viewAt t 0x10 (Requester.set req)).ticket = nextTicket s 0x10 % 256
          ∧ t.fld.reference = s.fld.last ∧ t.regs = s.regs ∧ t.mem = s.mem))
    ∧ (∀ (j : SolveJob) (rest : List SolveJob), s.fld.solves = j :: rest → Completes .solveResult s (fun t =>
        t.fld.solves = rest ∧ runningCmd t j.id = none
          ∧ (resultsOf t 0x10).length = (resultsOf s 0x10).length + 1
          ∧ ((resultsOf t 0x10).getLast?.map (fun r => (r.ticket, r.words))) = some (j.ticket, solveWords j s) ∧ t.mem = s.mem))
    ∧ (∀ arg : BitVec 16, DoorOpen s req 0x10 (doorWord tag 0x20 arg) → arrayMode s = 1 → arg.getLsbD (activeAshlar s) = false →
      s.fld.load = none → arg ≠ 0 → membersPresent s ≠ [] → Completes (.cascLoad req tag arg) s (fun t =>
        DoorShows t req 0x10 (doorWord tag 0x20 arg) Oc.accepted ∧ t.fld.load.isSome = true ∧ t.regs = s.regs ∧ t.mem = s.mem))
    ∧ (∀ arg : BitVec 16, arg.toNat < 16 → DoorOpen s req 0x10 (doorWord tag 0x21 arg) → arrayMode s = 1 → s.clocks.bypass = false →
      regBit s Reg.fldCascStatus 31 = false → Completes (.cascSwitch req tag arg) s (fun t =>
        DoorShows t req 0x10 (doorWord tag 0x21 arg) Oc.accepted ∧ regBit t Reg.fldCascStatus 31 = true
          ∧ regBits t Reg.fldCascStatus 27 24 = arg.toNat
          ∧ getReg t Reg.fldCascAt = BitVec.ofNat 32 (fldCycle s + regBits s Reg.fldCascLead 15 0) ∧ t.mem = s.mem))
    ∧ (∀ late : BitVec 3, domainOn s 3 = true → regBit s Reg.fldCascStatus 31 = true → arrayMode s = 1 → s.clocks.bypass = false →
      cycleReached s (getReg s Reg.fldCascAt) = true → s.fld.stepDue = none →
      fieldAllowed s (regBits s Reg.fldCascStatus 27 24) (ashlarWords s (regBits s Reg.fldCascStatus 27 24)) = true →
      Completes (.switchCycleReached late) s (fun t => activeAshlar t = regBits s Reg.fldCascStatus 27 24
        ∧ regBit t Reg.fldCascStatus 31 = false ∧ regBits t Reg.fldCascStatus 10 8 = late.toNat ∧ t.mem = s.mem))

/-! ## Receive chains and contactless jobs (06, 07) -/

/-- The receive chains and captures (06 R249, R250, R253 to R257, R260, R264, R271, R273): a reply begins in a window and is
formed or withdrawn at the end of its estimation window; overloads, trims and late members are marked; a capture stores
its samples. -/
def Obligations.ReceiveChains : Prop :=
  ∀ (s : State), domainOn s 4 = true →
    (s.frx.windowOpen = true → s.frx.reply = none → Completes .replyDetected s (fun t =>
      (∃ r, t.frx.reply = some r ∧ r.ctrl = getReg s Reg.umxCtrl ∧ r.limits = getReg s Reg.umxLimits ∧ r.est = getReg s Reg.umxEst
        ∧ r.formed = false ∧ r.broken = false ∧ r.used = usedChains s
        ∧ (∀ p, p ∈ r.clipped ↔ p ∈ usedChains s ∧ regBit s (Reg.frxChainStatus + p) 30 = true))
      ∧ ((∀ p ∈ usedChains s, regBit s (Reg.frxChainStatus + p) 30 = false) → t.regs = s.regs) ∧ t.mem = s.mem))
    ∧ (∀ (r : ReplyRun) (estimates vectors : List (List (Int × Int))), s.frx.reply = some r → r.formed = false → r.window = none →
      (forwarding s = 0#3 →
        let found := sourceCount (bitsOf r.est 15 8) r.used (windowRows s r estimates 0#3)
        let k := if unmixable s then found else min found 1
        Completes (.estimationWindowEnd estimates vectors) s (fun t =>
          (k = 0 → t.frx.reply = none)
          ∧ (k ≠ 0 → ∃ q, t.frx.reply = some q ∧ q.formed = true ∧ q.k = k ∧ q.members = 0#3
            ∧ q.coils = r.used.filter (fun c => !(r.clipped.contains c)) ∧ q.chains = q.coils.length
            ∧ (1 ∈ q.fails ↔ bitsOf r.ctrl 2 0 < k ∨ r.used.length < k)
            ∧ (2 ∈ q.fails ↔ bitsOf r.limits 7 0 * 4096 < q.kappa)
            ∧ (7 ∈ q.fails ↔ q.chains < k)
            ∧ (8 ∈ q.fails ↔ bitAt r.ctrl 31 = false ∧ 2 ≤ k))
          ∧ t.regs = s.regs ∧ t.mem = s.mem))
      ∧ (lateMembers s r.number r.len (forwarding s) ≠ [] → exec (.estimationWindowEnd estimates vectors) s = .next
        (setFrx { s.frx with reply := some { r with window := some (estimates, vectors, s.now) } } s)))
    ∧ (∀ (c : Fin 8) (o : Bool), Completes (.chainClip c o) s (fun t => regBit t (Reg.frxChainStatus + c.val) 30 = o
        ∧ (s.frx.reply = none ∨ o = false → getReg t (Reg.frxClipCnt + c.val) = getReg s (Reg.frxClipCnt + c.val)) ∧ t.mem = s.mem
        ∧ (∀ r, s.frx.reply = some r → o = true → regBit t 0x1204 0 = true
            ∧ (r.clippedAny.contains c.val = true → getReg t (Reg.frxClipCnt + c.val) = getReg s (Reg.frxClipCnt + c.val))
            ∧ (r.clippedAny.contains c.val = false →
              getReg t (Reg.frxClipCnt + c.val) = getReg s (Reg.frxClipCnt + c.val) + 1#32
                ∧ ∃ q, t.frx.reply = some q ∧ q.clippedAny = c.val :: r.clippedAny))))
    ∧ (∀ (c : Fin 8) (full : Bool), domainOn s 3 = true → s.frx.windowOpen = false → chainUsed s c.val = true →
      regBit s Reg.frxCtrl 31 = true →
      Completes (.chainTrimStep c full true) s (fun t => t.regs = s.regs ∧ t.mem = s.mem
        ∧ t.frx.trimAt = if full then s.frx.trimAt.set c.val (some s.now) else s.frx.trimAt)
      ∧ Completes (.chainTrimStep c full false) s (fun t => regBit t (Reg.frxChainStatus + c.val) 29 = true
        ∧ regBit t 0x1208 0 = true ∧ t.frx = s.frx ∧ t.mem = s.mem))
    ∧ (∀ (r : ReplyRun) (own vectors : List (List (Int × Int))) (since : Nat), s.frx.reply = some r →
      r.window = some (own, vectors, since) → passedUs s since (bitsOf r.wait 8 0) = true →
      let late := lateMembers s r.number r.len (forwarding s)
      late ≠ [] → Completes .cascWaitExpiry s (fun t =>
        (∀ m ∈ late, regBit t Reg.umxStatus (23 + m) = false)
        ∧ getReg t Reg.umxCascLate = getReg s Reg.umxCascLate + BitVec.ofNat 32 (late.map (missingBlocks s r.number r.len)).sum
        ∧ regBit t 0x1304 2 = true ∧ (∀ q, t.frx.reply = some q → q.formed = true ∧ q.window = none) ∧ t.mem = s.mem))
    ∧ (∀ (req : Requester) (tag arg : Byte) (c : Fin 8), DoorOpen s req 0x12 (doorWord tag 0x10 (arg.setWidth 16)) →
      s.frx.capture = none → arg.getLsbD c.val = true → regBit s (Reg.frxChainCfg + c.val) 31 = true →
      regBits s Reg.frxCapCtrl 12 0 ≤ 64 → regBits s Reg.frxCapBase 20 0 ≤ 0xFD000 →
      Completes (.capture req tag (arg.setWidth 16)) s (fun t =>
        DoorShows t req 0x12 (doorWord tag 0x10 (arg.setWidth 16)) Oc.accepted
        ∧ (∃ j, t.frx.capture = some j ∧ j.base = regBits s Reg.frxCapBase 20 0 ∧ j.pairs = regBits s Reg.frxCapCtrl 12 0
            ∧ j.cycles = 2 ^ regBits s Reg.frxCapCtrl 30 28
            ∧ j.chains = (List.range 8).filter (fun p => arg.getLsbD p) ∧ j.waiting = regBit s Reg.frxCapCtrl 31)
        ∧ t.regs = s.regs ∧ t.mem = s.mem))
    ∧ (∀ (j : CaptureJob) (samples : List (Int × Int)), s.frx.capture = some j → j.waiting = false →
      j.since + j.pairs * j.cycles ≤ s.now →
      Completes (.captureDone samples) s (fun t => t.frx.capture = none ∧ runningCmd t j.id = none
        ∧ t.mem = (engineWrite j.base (wordsBytes (captureWords j j.pairs samples)) s).mem))
    ∧ (∀ (j : CaptureJob), s.frx.capture = some j → j.waiting = true → passedMs s j.since 1000 = true →
      Completes .noWindow s (fun t => t.frx.capture = none ∧ runningCmd t j.id = none ∧ t.mem = s.mem))

/-- The contactless jobs are submitted, cancelled and started (07 R287 to R291, R294 to R297, R304): EXCHANGE and INVENTORY
copy their descriptors into the job table; CANCEL takes a queued job out; the head starts with its records reserved. -/
def Obligations.ContactlessJobs : Prop :=
  ∀ (s : State) (req : Requester) (tag : Byte) (arg : BitVec 16),
    (domainOn s 3 = true → arrayMode s ≠ 2 → s.mem.symErr = [] → 0 < nfcFree s →
      (DoorOpen s req 0x14 (doorWord tag 0x10 arg) →
        exchangeBad (mortarBytes s (16 * arg.toNat) 16) (0x100000 - (16 * arg.toNat + 16)) = false →
        Completes (.exchange req tag arg) s (fun t => DoorShows t req 0x14 (doorWord tag 0x10 arg) Oc.accepted
          ∧ t.mem = s.mem ∧ t.regs = s.regs ∧ ∃ j, t.nfc.table = s.nfc.table ++ [j] ∧ j.inventory = false
            ∧ j.id = s.doors.nextId ∧ j.ticket = nextTicket s 0x14 ∧ j.desc = mortarBytes s (16 * arg.toNat) 16
            ∧ j.tx = mortarBytes s (16 * arg.toNat + 16) (descField j.desc 6 2)))
      ∧ (DoorOpen s req 0x15 (doorWord tag 0x10 arg) → 16 * arg.toNat + 32 ≤ 0x100000 →
        inventoryBad s (mortarBytes s (16 * arg.toNat) 32) = false →
        Completes (.inventory req tag arg) s (fun t => DoorShows t req 0x15 (doorWord tag 0x10 arg) Oc.accepted
          ∧ t.mem = s.mem ∧ t.regs = s.regs ∧ ∃ j, t.nfc.table = s.nfc.table ++ [j] ∧ j.inventory = true
            ∧ j.id = s.doors.nextId ∧ j.ticket = nextTicket s 0x14 ∧ j.desc = mortarBytes s (16 * arg.toNat) 32)))
    ∧ (∀ j, DoorOpen s req 0x15 (doorWord tag 0x11 arg) → s.nfc.run = none → j ∈ s.nfc.table →
      s.nfc.table.find? (fun j => j.ticket == arg.toNat) = some j → j.id ≠ s.doors.nextId →
      Completes (.cancel req tag arg) s (fun t => DoorShows t req 0x15 (doorWord tag 0x11 arg) Oc.done
        ∧ t.nfc.table = s.nfc.table.filter (fun k => k.id != j.id) ∧ runningCmd t j.id = none))
    ∧ (∀ j rest, s.nfc.table = j :: rest → s.nfc.run = none → domainOn s 3 = true → domainOn s 4 = true → jobsHeld s = false →
      fieldTested s = false → draining s 3 = false → headHeld s = false →
      jobSpace s j ≤ queueFree s j.pop → fieldState s = Fs.on → j.layer ≠ 1 → j.layer ≠ 3 →
      (j.inventory = true → descByte j.desc 2 / 64 % 2 = 0) →
      Completes .jobStart s (fun t => t.fld.jobHold = true ∧ fieldState t = Fs.on ∧ t.nfc.table = s.nfc.table ∧ t.mem = s.mem
        ∧ ∃ r, t.nfc.run = some r ∧ r.job = j ∧ r.reserved = jobSpace s j ∧ r.guardDue = false ∧ r.inFrame = false))

/-- The frames, windows and timers of the running job (07 R283 to R285, R291, R297 to R299, R308; 06 R252, R266): a frame
is counted and expects its reply; the window opens once; a reply's end delivers the streams that pass, and an empty window
a TIMEOUT; a raw exchange then is over. -/
def Obligations.ContactlessFrames : Prop :=
  ∀ (s : State),
    (∀ r, s.nfc.run = some r → fieldState s = Fs.on → domainOn s 3 = true → s.fld.surveyFull = false →
      s.fld.since + r.guardOn ≤ s.now → (r.job.inventory = true → r.job.flag 0 = true → s.fld.surveyAt + r.guardOn ≤ s.now) →
      Completes .guardOnExpiry s (fun t =>
      t.nfc.run = some { r with guardDue := false } ∧ t.regs = s.regs ∧ t.mem = s.mem))
    ∧ (∀ r (cycles : Nat) (pauses : List (Nat × Nat)), s.nfc.run = some r → frameAllowed s r = true → r.job.inventory = false →
      (r.job.layer = 0 → descByte r.job.desc 3 / 16 % 2 = 0) →
      Completes (.readerFrame cycles pauses) s (fun t => getReg t Reg.proFramesTx = getReg s Reg.proFramesTx + 1#32
        ∧ (∃ q, t.nfc.run = some q ∧ q.job = r.job ∧ q.inFrame = true ∧ q.framed = true ∧ q.frameEnd = s.now + cycles
          ∧ (jobFrame s r).map (·.1) = some q.sent)
        ∧ t.fld.pauses = pauses.map (fun p => (s.now + p.1, s.now + p.2, jobDepth s r.job)) ∧ t.mem = s.mem))
    ∧ (∀ r (carriers noises : List Nat), s.nfc.run = some r → domainOn s 4 = true → r.inFrame = true → s.frx.windowOpen = false →
      r.frameEnd + (replyStart s r).1 ≤ s.now + r.early → Completes (.windowOpen carriers noises) s (fun t => t.frx.windowOpen = true ∧ t.frx.reply = s.frx.reply
        ∧ t.nfc.run = some { r with slots := r.slots + 1 } ∧ t.mem = s.mem))
    ∧ (∀ r, s.nfc.run = some r → r.job.inventory = false → r.job.layer = 0 → r.endWith = none → domainOn s 4 = true →
      s.frx.gainDue = [] →
      (s.frx.windowOpen = true → s.frx.reply = none → r.frameEnd + (replyStart s r).2 + r.lateBy ≤ s.now →
        Completes .windowClose s (fun t =>
        t.frx.windowOpen = false ∧ t.nfc.run = none ∧ getReg t Reg.proTimeouts = getReg s Reg.proTimeouts + 1#32 ∧ t.mem = s.mem))
      ∧ (∀ q streams symbols residual collision data, s.frx.reply = some q → q.formed = true → q.members = 0#3 →
        let v := { q with chains := q.coils.length, fails := q.fails ++ (if q.coils.length < q.k then [7] else []) }
        Completes (.replyEnd streams symbols residual collision data) s (fun t =>
        t.frx.windowOpen = false ∧ t.frx.reply = none ∧ t.nfc.run = none
          ∧ getReg t Reg.umxSlots = getReg s Reg.umxSlots + 1#32
          ∧ getReg t Reg.proFramesRx = getReg s Reg.proFramesRx + BitVec.ofNat 32 (deliveredFrames s v symbols residual (v.streams streams)).length
          ∧ t.mem = s.mem)))
    ∧ (∀ r, s.nfc.run = some r → r.job.inventory = true → passedMs s r.startNow (descField r.job.desc 16 2) = true →
      (r.inFrame = true → Completes .budget s (fun t => t.regs = s.regs ∧ t.mem = s.mem
        ∧ t.nfc.run = some { r with endWith := some (r.endWith.getD (NfcEnd.mk 2 0 Oc.done)) }))
      ∧ (r.inFrame = false → Completes .budget s (fun t => t.nfc.run = none
        ∧ getReg t Reg.invJobsDone = getReg s Reg.invJobsDone + 1#32)))
    ∧ (s.nfc.keep = true → s.nfc.run = none → domainOn s 3 = true → passedMs s s.nfc.keepAt (regBits s Reg.proCtrl 21 12) = true →
      Completes .keepFieldExpiry s (fun t =>
      t.nfc.keep = false ∧ t.fld.jobHold = false ∧ t.mem = s.mem))

/-- Card detection (07 R312 to R316): learning scans add up; a scan in range of the baselines lets them track; CONFIRM scans
beyond the threshold make a hit, which is counted; a probe in Stop learns; RELEARN asks for four scans, and one that waits
for 1 s without a scan ends. -/
def Obligations.CardDetection : Prop :=
  ∀ (s : State),
    (∀ responses, scanMayRun s = true → scanDue s s.card.scanAt (regBits s Reg.lpdRunCtrl 25 16) = true → (scanPorts s).all (surveyAllowed s) = true →
      (0 < s.card.learn → Completes (.runScan responses) s (fun t => t.card.learn = s.card.learn - 1 ∧ t.mem = s.mem
        ∧ getReg t Reg.lpdHits = getReg s Reg.lpdHits))
      ∧ (s.card.learn = 0 → s.card.hold = false →
        (scanPorts s).all (fun p => !(beyond (regBits s Reg.lpdRunCtrl 7 0) (responses.getD p (0, 0)) (s.card.base.getD p (0, 0)))) = true →
        0 < regBits s Reg.lpdRunCtrl 9 8 → Completes (.runScan responses) s (fun t => t.card.above = false ∧ t.card.overs = 0
          ∧ t.card.base = trackBase (regBits s Reg.lpdRunCtrl 7 0) (scanPorts s) responses s.card.base
          ∧ t.regs = s.regs ∧ t.mem = s.mem))
      ∧ (s.card.learn = 0 → s.card.hold = false →
        (scanPorts s).any (fun p => beyond (regBits s Reg.lpdRunCtrl 7 0) (responses.getD p (0, 0)) (s.card.base.getD p (0, 0))) = true →
        regBits s Reg.lpdRunCtrl 9 8 ≤ s.card.overs + 1 → Completes (.runScan responses) s (fun t =>
          t.card.above = true ∧ t.card.hold = true ∧ getReg t Reg.lpdHits = getReg s Reg.lpdHits + 1#32
          ∧ regBits t Reg.lpdHit 31 30 = 1 ∧ t.card.base = s.card.base ∧ t.mem = s.mem)))
    ∧ (∀ codes, s.phase = .stopped → regBit s Reg.lpdStopCtrl 31 = true → s.rtc.lfOk = true →
      scanDue s s.card.probeAt (1000 / 2 ^ regBits s Reg.lpdStopCtrl 25 24) = true → 0 < s.card.probeLearn →
      Completes (.probeScan codes) s (fun t => t.card.probeLearn = s.card.probeLearn - 1 ∧ t.regs = s.regs ∧ t.mem = s.mem))
    ∧ (∀ req tag, DoorOpen s req 0x16 (doorWord tag 0x10 0) → Completes (.relearn req tag 0) s (fun t =>
      DoorShows t req 0x16 (doorWord tag 0x10 0) Oc.accepted ∧ t.card.learn = 4
        ∧ t.card.relearn = s.card.relearn ++ [(s.doors.nextId, s.now)] ∧ t.regs = s.regs ∧ t.mem = s.mem))
    ∧ (∀ id since rest, s.card.relearn = (id, since) :: rest → s.card.learn = 4 → passedMs s since 1000 = true → Completes .relearnNotRun s (fun t =>
      t.card.relearn = rest ∧ runningCmd t id = none ∧ t.mem = s.mem))

/-! ## Broadcast reception and data (08, 09) -/

/-- The broadcast paths follow what they receive (08 R324 to R328, R333, R335): a settled synthesiser takes its gain and
searches; LOCKED, frame sync and their losses change STATE and SYNC; a frame boundary counts; the gain takes the step that is
due. -/
def Obligations.BroadcastPaths : Prop :=
  ∀ (s : State) (path : Fin 4), domainOn s 6 = true → s.bcast.paths.length = 4 →
    (∀ gain, bpState s path.val = Bs.settling → Completes (.synthesiserSettled path gain) s (fun t =>
      bpState t path.val = Bs.searching ∧ (pathAt t path.val).gain = gainAsked s path.val gain
        ∧ regBits t (bpReg path.val Reg.bpQual1) 15 8
            = (if regBit s (bpReg path.val Reg.bpAgc) 31 then capAt 60 (regBits s (bpReg path.val Reg.bpAgc) 23 16)
               else capAt 60 gain.toNat)
        ∧ t.mem = s.mem))
    ∧ (∀ report, bpState s path.val = Bs.searching ∨ bpState s path.val = Bs.lost → offsetHeld s path.val report = true →
      Completes (.locked path report) s (fun t =>
      bpState t path.val = Bs.locked ∧ regBits t (bpReg path.val Reg.bpQual0) 31 24 = report.level.toNat
        ∧ (bpMode s path.val = 1 → bpSync t path.val = true) ∧ regBit t (pageReg (0x18 + path.val) 4) 0 = true ∧ t.mem = s.mem))
    ∧ (bpState s path.val = Bs.locked → bpSync s path.val = false → Completes (.frameSync path) s (fun t =>
      bpSync t path.val = true ∧ bpState t path.val = Bs.locked ∧ t.bcast = s.bcast ∧ t.mem = s.mem))
    ∧ (bpState s path.val = Bs.locked → bpMode s path.val = 2 → Completes (.rdsSyncLost path) s (fun t =>
      bpSync t path.val = false ∧ bpState t path.val = Bs.locked ∧ t.bcast = s.bcast ∧ t.mem = s.mem))
    ∧ (bpState s path.val = Bs.locked → lossDue s path.val = true → s.bcast.swap = none → Completes (.lost path) s (fun t =>
      bpState t path.val = Bs.lost ∧ bpSync t path.val = false ∧ regBit t (pageReg (0x18 + path.val) 4) 1 = true
        ∧ getReg t (bpReg path.val Reg.bpLosses) = getReg s (bpReg path.val Reg.bpLosses) + 1#32 ∧ t.mem = s.mem))
    ∧ (∀ report, bpSync s path.val = true → (bpMode s path.val = 1 → passedMs s (pathAt s path.val).markNow 100 = true) →
      Completes (.frameBoundary path report) s (fun t =>
        regBits t (bpReg path.val Reg.bpStatus) 15 0 = (regBits s (bpReg path.val Reg.bpStatus) 15 0 + 1) % 65536
          ∧ bpState t path.val = bpState s path.val ∧ (pathAt t path.val).markNow = s.now ∧ t.mem = s.mem))
    ∧ (∀ gain report, Bs.settling ≤ bpState s path.val → Completes (.agcStep path gain report) s (fun t =>
      regBits t (bpReg path.val Reg.bpQual1) 15 8
          = (match gainNext s path.val (gainAsked s path.val gain) with
             | some g => g / 2 % 256
             | none => regBits s (bpReg path.val Reg.bpQual1) 15 8)
        ∧ bpState t path.val = bpState s path.val ∧ t.mem = s.mem))

/-- Service following, SCAN, CHECK and the audio output (08 R343 to R353): a check records its score; a verification stages the
swap, or bars the candidate after 2 s; SCAN's points are queued and CHECK's result delivered; ramps end. -/
def Obligations.FollowingAndScans : Prop :=
  ∀ (s : State), domainOn s 6 = true →
    (∀ (p c : Nat) report imageOk, domainOn s 5 = true → scanPath s = some p → nextVisit s = some c →
      (pathAt s p).jobs = [] → testRuns s (0x18 + p) = false → s.bcast.verifying = none → s.bcast.swap = none →
      passedMs s s.bcast.checkNow (measureMs (bpMode s (c / 16))) = true →
      Completes (.candidateCheck report imageOk) s (fun t =>
        regBits t (bpReg (c / 16) Reg.bpCand + c % 16) 29 22 = scoreOf (bpMode s (c / 16)) report
          ∧ bpState t p = Bs.searching ∧ t.bcast.visit = c
          ∧ keyGet t.bcast.better c 0
            = (if betterCheck s (c / 16) (scoreOf (bpMode s (c / 16)) report) then keyGet s.bcast.better c 0 + 1 else 0)
          ∧ t.mem = s.mem))
    ∧ (∀ (l i p k : Nat) (lead : Int), s.bcast.verifying = some (l, i) → scanPath s = some p → s.bcast.swap = none →
      (passedMs s s.bcast.verifyNow 2000 = true → Completes (.verify false lead) s (fun t =>
        t.bcast.verifying = none ∧ t.bcast.swap = none
          ∧ regBit t (bpReg l Reg.bpCand + i) 30 = true ∧ keyFind t.bcast.barred (16 * l + i) = some s.now ∧ t.mem = s.mem))
      ∧ (verifyIdent s p l = true → verifyFits s l lead = true → follows s l = true →
        keyGet s.bcast.noSwap (bpSlot s l) 0 ≤ s.now →
        lowestFree s.txn.ids 0 = some k → Completes (.verify true lead) s (fun t => t.bcast.verifying = none
          ∧ t.regs = s.regs ∧ t.mem = s.mem ∧ (txnAt t k).requester = .mason 2
          ∧ (txnAt t k).cond = 0x40 + (if bpState s l = Bs.lost then p else l)
          ∧ ∃ w, t.bcast.swap = some w ∧ w.txn = k ∧ w.listener = l ∧ w.scanner = p ∧ w.slot = bpSlot s l)))
    ∧ (∀ (path : Fin 4) (i : Fin 16) at_, keyFind s.bcast.barred (16 * path.val + i.val) = some at_ →
      passedMs s at_ 60000 = true → Completes (.barredExpiry path i) s (fun t =>
        regBit t (bpReg path.val Reg.bpCand + i.val) 30 = false ∧ keyFind t.bcast.barred (16 * path.val + i.val) = none
          ∧ t.mem = s.mem))
    ∧ (s.bcast.fadeUntil ≤ s.now → Completes .crossfadeEnd s (fun t =>
      regBit t Reg.audStatus 26 = false ∧ t.bcast = s.bcast ∧ t.mem = s.mem))
    ∧ (s.bcast.audio ≠ audFormat (getReg s Reg.audCtrl) → s.bcast.fadeUntil ≤ s.now →
      Completes .audioFormatChange s (fun t => t.bcast.audio = audFormat (getReg s Reg.audCtrl)
        ∧ t.bcast.fadeUntil = s.now + 50 * 13560 ∧ t.mem = s.mem))
    ∧ (∀ (path : Fin 4) (req : Requester) (tag : Byte), s.bcast.paths.length = 4 → bpRole s path.val ≠ 1 → domainOn s 5 = true →
      0 < bcastFree s →
      (∀ arg, DoorOpen s req (0x18 + path.val) (doorWord tag 0x10 arg) → scanArgBad arg.toNat = false →
        Completes (.scan req path tag arg) s (fun t => DoorShows t req (0x18 + path.val) (doorWord tag 0x10 arg) Oc.accepted
          ∧ (pathAt t path.val).jobs.length = (pathAt s path.val).jobs.length + 1 ∧ t.mem = s.mem))
      ∧ (DoorOpen s req (0x18 + path.val) (doorWord tag 0x11 0) → resultFull s (0x18 + path.val) [0x11] = false →
        Completes (.check req path tag 0) s (fun t => DoorShows t req (0x18 + path.val) (doorWord tag 0x11 0) Oc.accepted
          ∧ (pathAt t path.val).jobs.length = (pathAt s path.val).jobs.length + 1 ∧ t.mem = s.mem)))
    ∧ (∀ (path : Fin 4) (j : BpJob) rest report ident freq, s.bcast.paths.length = 4 → domainOn s 5 = true →
      (pathAt s path.val).jobs = j :: rest → j.scan = true → j.started = true → scanFreq j.arg j.point = some freq →
      let score := scoreOf ([1, 1, 2, 3].getD (j.arg % 16) 0) report
      (j.arg / 16 % 16 * 6 ≤ score → j.stations < 119 → (scanFreq j.arg (j.point + 1)).isSome = true →
        queueCount s (bpReg path.val Reg.bpQPop) < 128 →
        Completes (.scanPoint path report ident) s (fun t => t.mem = s.mem
          ∧ (pathAt t path.val).jobs = { j with stations := j.stations + 1, point := j.point + 1 } :: rest
          ∧ queueCount t (bpReg path.val Reg.bpQPop) = queueCount s (bpReg path.val Reg.bpQPop) + 1))
      ∧ (score < j.arg / 16 % 16 * 6 → j.stations < 120 → (scanFreq j.arg (j.point + 1)).isSome = true →
        Completes (.scanPoint path report ident) s (fun t => t.regs = s.regs ∧ t.queues = s.queues ∧ t.mem = s.mem
          ∧ (pathAt t path.val).jobs = { j with point := j.point + 1 } :: rest))
      ∧ (scanFreq j.arg (j.point + 1) = none → Completes (.scanPoint path report ident) s (fun t =>
        runningCmd t j.id = none ∧ t.mem = s.mem ∧ (pathAt t path.val).jobs.length = rest.length)))
    ∧ (∀ (path : Fin 4) (j : BpJob) rest report ident, s.bcast.paths.length = 4 → domainOn s 5 = true →
      (pathAt s path.val).jobs = j :: rest → j.scan = false → j.started = true →
      passedMs s j.startNow (measureMs (bitsOf j.tune 31 28)) = true →
      Completes (.checkResult path report ident) s (fun t => runningCmd t j.id = none ∧ t.mem = s.mem
        ∧ (resultsOf t (0x18 + path.val)).length = (resultsOf s (0x18 + path.val)).length + 1
        ∧ (resultsOf t (0x18 + path.val)).getLast?.map (·.ticket) = some j.ticket))

/-- Items of the broadcast data unit (09 R362 to R372; 08 R333, R336, R338): good groups, blocks and frames give records of the
queue of their slot, bad ones are counted; SELECT sets and clears an entry; a minute that fails clears its run. -/
def Obligations.BroadcastItems : Prop :=
  ∀ (s : State) (path : Fin 4) (k : Nat),
    (∀ (a b c d : BitVec 26), delivers s path.val 2 = true → bpSync s path.val = true →
      (rdsGroupOf a b c d = none → bpRole s path.val = 1 → Completes (.rdsGroup path a b c d) s (fun t =>
        getReg t Reg.bdaGroupsBad = getReg s Reg.bdaGroupsBad + 1#32 ∧ t.queues = s.queues ∧ t.bcast = s.bcast ∧ t.mem = s.mem))
      ∧ (∀ g, rdsGroupOf a b c d = some g → listenSlot s path.val = some k → messageSlot s path.val = none →
        rdsTime g = none → regBit s (Reg.bdaGroupMask + k) (groupType g) = true → queueFree s Reg.bdaQPop ≠ 0 →
        Completes (.rdsGroup path a b c d) s (fun t => getReg t Reg.bdaGroups = getReg s Reg.bdaGroups + 1#32
          ∧ queueCount t Reg.bdaQPop = queueCount s Reg.bdaQPop + 1 ∧ t.mem = s.mem)))
    ∧ (∀ (cif : Fin 4) (index : Fin 3) (bytes : List Byte), delivers s path.val 3 = true → bytes.length = 32 →
      (crcEnds bytes = false → Completes (.fib path cif index bytes) s (fun t => getReg t Reg.bdaFibs = getReg s Reg.bdaFibs + 1#32
        ∧ getReg t Reg.bdaFibCrc = getReg s Reg.bdaFibCrc + 1#32 ∧ t.queues = s.queues ∧ t.bcast = s.bcast ∧ t.mem = s.mem))
      ∧ (crcEnds bytes = true → ficTime (bytes.take 30) = none → listenSlot s path.val = some k →
        regBit s (Reg.bdaSlotCfg + k) 31 = true → queueFree s Reg.bdaQPop ≠ 0 →
        Completes (.fib path cif index bytes) s (fun t => getReg t Reg.bdaFibs = getReg s Reg.bdaFibs + 1#32
          ∧ queueCount t Reg.bdaQPop = queueCount s Reg.bdaQPop + 1 ∧ t.mem = s.mem)))
    ∧ (∀ (req : Requester) (tag : Byte) (slot : Fin 3) (j : Fin 4),
      DoorOpen s req 0x1C (doorWord tag 0x10 (BitVec.ofNat 16 (4 * j.val + slot.val))) →
      (regBit s Reg.bdaSelArg 31 = false → Completes (.select req tag (BitVec.ofNat 16 (4 * j.val + slot.val))) s (fun t =>
        DoorShows t req 0x1C (doorWord tag 0x10 (BitVec.ofNat 16 (4 * j.val + slot.val))) Oc.done
          ∧ getReg t (selReg slot.val j.val) = 0#32 ∧ t.bcast = s.bcast ∧ t.mem = s.mem))
      ∧ (regBit s Reg.bdaSelArg 31 = true → slotPath s slot.val = none → selState s slot.val j.val ≠ 0 ∨ 0 < bcastFree s →
        Completes (.select req tag (BitVec.ofNat 16 (4 * j.val + slot.val))) s (fun t =>
          DoorShows t req 0x1C (doorWord tag 0x10 (BitVec.ofNat 16 (4 * j.val + slot.val))) Oc.done
          ∧ selState t slot.val j.val = 1
          ∧ regBits t (selReg slot.val j.val) 11 0 = regBits s Reg.bdaSelArg 21 10 ∧ t.mem = s.mem)))
    ∧ (∀ (j index : Fin 4) bytes, listenSlot s path.val = some k → delivers s path.val 3 = true → selState s k j.val = 2 →
      regBit s (selReg k j.val) 29 = false → bytes.length = 24 * regBits s (selReg k j.val) 21 14 →
      queueFree s Reg.bdaSubQPop ≠ 0 → Completes (.cif path j index bytes) s (fun t =>
        queueCount t Reg.bdaSubQPop = queueCount s Reg.bdaSubQPop + 1 ∧ t.mem = s.mem))
    ∧ (∀ (j : Fin 4) (packets : List (List Byte)), listenSlot s path.val = some k → delivers s path.val 3 = true →
      selState s k j.val = 2 → regBit s (selReg k j.val) 29 = true →
      s.bcast.aux.getD (4 * k + j.val) 0 = packetAddress (packets.getD 0 []) → packetAddress (packets.getD 0 []) ≠ 0 →
      (dataField packets = none → Completes (.dataGroup path j packets) s (fun t =>
        getReg t Reg.bdaPktCrc = getReg s Reg.bdaPktCrc + 1#32
          ∧ t.bcast = s.bcast ∧ t.queues = s.queues ∧ t.mem = s.mem))
      ∧ (∀ bytes, dataField packets = some bytes → messageSlot s path.val = none → regBit s (selReg k j.val) 28 = false →
        Completes (.dataGroup path j packets) s (fun t =>
          getReg t Reg.bdaPktGroups = getReg s Reg.bdaPktGroups + 1#32 ∧ t.bcast = s.bcast ∧ t.queues = s.queues ∧ t.mem = s.mem)))
    ∧ (∀ (r : MinuteReport), delivers s path.val 4 = true → bpSync s path.val = true → r.seconds.length = 60 →
      let format := regBits s (bpReg path.val Reg.bpTcCfg) 2 0
      let bad := tcBad format (r.seconds.map (tcSymbol format))
      (bad ≠ 0 → Completes (.tcMinute path r) s (fun t => regBits t (bpReg path.val Reg.bpTcStatus) 23 16 = 0
        ∧ regBits t (bpReg path.val Reg.bpTcStatus) 15 8 = capAt 255 bad ∧ t.bcast = s.bcast ∧ t.mem = s.mem))
      ∧ (bad = 0 → listenSlot s path.val = none → Completes (.tcMinute path r) s (fun t =>
        regBits t (bpReg path.val Reg.bpTcStatus) 23 16 = capAt 255 (regBits s (bpReg path.val Reg.bpTcStatus) 23 16 + 1)
          ∧ regBit t (pageReg (0x18 + path.val) 4) 5 = true ∧ t.bcast = s.bcast ∧ t.mem = s.mem)))
    ∧ (∀ (raw : List Bool), delivers s path.val 1 = true → regBit s (bpReg path.val Reg.bpPskCfg) 31 = true →
      let bits := pskBits (regBit s (bpReg path.val Reg.bpPskCfg) 27) raw
      bits.length = 16 + regBits s (bpReg path.val Reg.bpPskCfg) 9 0 →
      syncErrors (regBits s (bpReg path.val Reg.bpPskSync) 15 0) bits ≤ regBits s (bpReg path.val Reg.bpPskCfg) 15 12 →
      listenSlot s path.val = some k →
      regBit s (Reg.bdaSlotCfg + k) 29 = true → messageSlot s path.val = none → queueFree s Reg.bdaQPop ≠ 0 →
      Completes (.pskFrame path raw) s (fun t => queueCount t Reg.bdaQPop = queueCount s Reg.bdaQPop + 1 ∧ t.mem = s.mem))

/-- The votes on messages and time, and the trellis decoder (09 R373 to R384; 01 R35 to R42): a copy too short is
malformed, a first copy opens a message, an equal one on another bearer confirms it; windows close; the decoder takes
requests in order and a unit at a time. -/
def Obligations.VotesAndDecoder : Prop :=
  ∀ (s : State),
    (∀ (c : CopyRec), domainOn s 6 = true → s.bcast.ready = [c] → c.entry < 8 →
      let k := mapStream s c.entry
      let cfg := getReg s (Reg.ccdStream + k)
      let off := bitsOf cfg 21 16
      let len := bitsOf cfg 13 12 + 1
      let seq := beNat ((c.bytes.drop off).take len)
      (c.bytes.length < off + len → Completes .messageCopy s (fun t =>
        getReg t Reg.ccdMalformed = getReg s Reg.ccdMalformed + 1#32 ∧ t.bcast.ready = [] ∧ t.bcast.votes = s.bcast.votes
          ∧ t.mem = s.mem))
      ∧ (off + len ≤ c.bytes.length → s.bcast.votes.length < 32 →
        s.bcast.votes.find? (fun v => v.stream == k && v.seq == seq) = none →
        s.bcast.closed.find? (fun m => m.stream == k && m.seq == seq) = none → Completes .messageCopy s (fun t =>
          t.bcast.ready = [] ∧ t.regs = s.regs ∧ t.mem = s.mem ∧ ∃ v, t.bcast.votes = s.bcast.votes ++ [v] ∧ v.stream = k
            ∧ v.seq = seq ∧ v.first = c.bytes ∧ v.agree = [c.entry] ∧ v.confirmed = false ∧ v.disputed = false))
      ∧ (∀ v, off + len ≤ c.bytes.length → s.bcast.votes.find? (fun v => v.stream == k && v.seq == seq) = some v →
        v.disputed = false → v.confirmed = false → c.bytes = v.first → v.agree.contains c.entry = false →
        activeSecondary s = false → Completes .messageCopy s (fun t =>
          t.bcast.ready = [] ∧ getReg t Reg.ccdConfirmed = getReg s Reg.ccdConfirmed + 1#32)))
    ∧ (∀ (stream : Fin 8) (seq : Word) (v : VoteEntry), domainOn s 6 = true → s.bcast.ready = [] →
      s.bcast.votes.find? (fun v => v.stream == stream.val && v.seq == seq.toNat) = some v → voteWindowOver s v = true →
      Completes (.messageWindowEnd stream seq) s (fun t =>
        t.bcast.votes = s.bcast.votes.filter (fun w => !(w.stream == v.stream && w.seq == v.seq))
          ∧ t.bcast.closed.head?.map (·.outcome) = some (if v.disputed then 3 else if v.confirmed then 1 else 2)
          ∧ (v.confirmed = false → v.disputed = false → activeSecondary s = false →
            getReg t Reg.ccdUnconfirmed = getReg s Reg.ccdUnconfirmed + 1#32)))
    ∧ (∀ r rest, domainOn s 6 = true → s.bcast.reports = r :: rest →
      passedMs s s.bcast.reportsNow (1000 * regBits s Reg.ccdTimeCfg 3 0) = true → Completes .timeVoteClose s (fun t =>
      t.bcast.reports = [] ∧ t.bcast.view.outcome = timeOutcome (regBit s Reg.ccdCtrl 28) (r :: rest)
        ∧ t.bcast.votes = s.bcast.votes))
    ∧ (∀ (bits : Nat), domainOn s 8 = true → 0 < bits →
      (∀ urgent, Completes (.decodeRequest false urgent bits) s (fun t => t.regs = s.regs ∧ t.mem = s.mem
        ∧ t.decoder.urgent = s.decoder.urgent ∧ ∃ r, t.decoder.normal = s.decoder.normal ++ [r] ∧ r.left = bits ∧ r.urgent = false
          ∧ r.submitted = s.now))
      ∧ (urgentShare s + unitCost bits ≤ 20000 → Completes (.decodeRequest true true bits) s (fun t => t.regs = s.regs
        ∧ t.mem = s.mem ∧ t.decoder.normal = s.decoder.normal ∧ ∃ r, t.decoder.urgent = s.decoder.urgent ++ [r] ∧ r.left = bits
          ∧ r.urgent = true))
      ∧ (20000 < urgentShare s + unitCost bits → Completes (.decodeRequest true true bits) s (fun t =>
        getReg t Reg.itgUrgentDemoted = getReg s Reg.itgUrgentDemoted + 1#32 ∧ t.decoder.urgent = s.decoder.urgent
          ∧ t.decoder.normal.length = s.decoder.normal.length + 1)))
    ∧ (∀ (r : DecodeReq) rest, s.decoder.running = some false → s.decoder.normal = r :: rest →
      (4096 < r.left → Completes .decodeUnitEnd s (fun t => t.regs = s.regs ∧ t.mem = s.mem
        ∧ t.decoder.normal = { r with left := r.left - 4096 } :: rest ∧ t.decoder.urgent = s.decoder.urgent))
      ∧ (r.left ≤ 4096 → r.frame = none → r.urgent = false → Completes .decodeUnitEnd s (fun t => t.mem = s.mem
        ∧ t.decoder.normal = rest ∧ t.decoder.urgent = s.decoder.urgent
        ∧ getReg t Reg.itgDecodeLate = getReg s Reg.itgDecodeLate
            + (if 80000 < cyclesSteps (s.now - r.submitted) then 1#32 else 0#32))))

/-! ## The cipher engine, keys and identity (12) -/

/-- Cipher jobs (12 R460, R461, R459, R477): an accepted descriptor joins the table; the head of a class starts, or ends
with the status of the check it fails; a finished job writes its blocks, and a decryption with a tag waits for its verdict;
a verdict ends its job. -/
def Obligations.CipherJobs : Prop :=
  ∀ (s : State),
    (∀ (req : Requester) (tag : Byte) (arg : BitVec 16),
      let d := mortarBytes s (16 * arg.toNat) 48
      let job : CipherJob := { id := s.doors.nextId, ticket := nextTicket s 0x0A, requester := req, kind := .cipher, slot := leField d 2 1, desc := d, phase := .waiting, counter := 0, provReads := 0, good := false, left := 0, startNow := 0 }
      DoorOpen s req 0x0A (doorWord tag 0x10 arg) → s.mem.symErr = [] → descOff s (16 * arg.toNat) 48 = false →
      cipherBad s job = false → (∀ k ∈ s.cipher.jobs, rangesMeet k.dst k.destLen job.dst job.destLen = false) →
      0 < cipherFree s → Completes (.cipher req tag arg) s (fun t =>
        DoorShows t req 0x0A (doorWord tag 0x10 arg) Oc.accepted ∧ t.cipher.jobs = s.cipher.jobs ++ [job] ∧ t.regs = s.regs
          ∧ t.mem = s.mem))
    ∧ (∀ (host : Bool) (j : CipherJob), startable s host = some j → (host = true → startable s false = none) →
      domainOn s 2 = true → testRuns s 0x0A = false →
      (startChecks s j = Cs.ok → j.mode = 6 → j.slot < 28 → Completes (.cipherJobStart host) s (fun t =>
        t.cipher.jobs = s.cipher.jobs.map (fun k => if k.id = j.id then { j with phase := .running, counter := 0, left := j.blocks, startNow := s.now } else k)
          ∧ t.regs = s.regs ∧ t.mem = s.mem))
      ∧ (startChecks s j ≠ Cs.ok → Completes (.cipherJobStart host) s (fun t => runningCmd t j.id = none
        ∧ queueCount t Reg.cphQPop = queueCount s Reg.cphQPop + 1)))
    ∧ (∀ (host : Bool) (j : CipherJob), runningJob s host = some j → domainOn s 2 = true → testRuns s 0x0A = false →
      finishesNext s host j = true → jobTimed s j = true → jobHeld s j = false → s.mem.symErr = [] → s.mem.poison = [] →
      (j.decrypt = false → j.mode < 4 → 0 < j.dataBlocks → (∀ k ∈ s.cipher.jobs, k.kind = .cipher) →
        Completes (.cipherJobDone host) s (fun t => runningCmd t j.id = none
          ∧ t.cipher.jobs.map (·.id) = (s.cipher.jobs.map (·.id)).filter (fun k => k != j.id)
          ∧ t.mem = (engineWrite j.dst (cipherCompute j (((slotAt s j.slot).map (·.key)).getD [])
              (mortarBytes s j.src (16 * j.dataBlocks)) (mortarBytes s j.aad (16 * j.aadBlocks))).1 s).mem))
      ∧ (j.decrypt = true → 4 ≤ j.mode → Completes (.cipherJobDone host) s (fun t =>
        t.cipher.jobs.map (·.id) = s.cipher.jobs.map (·.id) ∧ t.doors = s.doors
          ∧ t.cipher.jobs.find? (fun k => k.id == j.id)
            = some { j with phase := .verdict, left := 0, good := (cipherOutput s j).good })))
    ∧ (∀ (host : Bool) (j : CipherJob),
      s.cipher.jobs.find? (fun j => j.kind == .cipher && j.phase == .verdict && (isMason j.requester != host)) = some j →
      Completes (.verdict host) s (fun t => runningCmd t j.id = none ∧ ∀ k ∈ t.cipher.jobs, k.id ≠ j.id))

/-- Key commands and node entries (12 R467 to R475): a load of a usage-limited slot sets its use count, a load of another slot
sets its counter as the key's history gives it or fails where that refuses the key, and both erase the key in memory; KEY_CLEAR empties a slot; NODE_PUT writes an entry of the node store and NODE_CLEAR erases it. -/
def Obligations.KeyCommands : Prop :=
  ∀ (s : State) (req : Requester) (tag : Byte) (arg : BitVec 16),
    s.mem.symErr = [] → s.cipher.slots.length = 32 →
    (let d := mortarBytes s (16 * arg.toNat) 48
     DoorOpen s req 0x0A (doorWord tag 0x11 arg) → descOff s (16 * arg.toNat) 48 = false → keyLoadBad d = false →
     28 ≤ leField d 0 1 → slotReserved s req (leField d 0 1) = false → limitedLoader s req = true → s.cipher.jobs = [] →
     0 < cipherFree s → Completes (.keyLoad req tag arg) s (fun t =>
       DoorShows t req 0x0A (doorWord tag 0x11 arg) Oc.done ∧ t.mem = (eraseKey (16 * arg.toNat) s).mem ∧ t.cipher.jobs = []
       ∧ ∃ k, slotAt t (leField d 0 1) = some k ∧ k.size = leField d 1 1 ∧ k.modes = leField d 2 1 ∧ k.users = leField d 3 1
         ∧ k.key = (d.drop 16).take (16 + 8 * leField d 1 1) ∧ k.ctr = leField d 4 4))
    ∧ (let d := mortarBytes s (16 * arg.toNat) 48
     let key := (d.drop 16).take (16 + 8 * leField d 1 1)
     DoorOpen s req 0x0A (doorWord tag 0x11 arg) → descOff s (16 * arg.toNat) 48 = false → keyLoadBad d = false →
     leField d 0 1 < 28 → slotReserved s req (leField d 0 1) = false → s.cipher.jobs = [] → 0 < cipherFree s →
     Completes (.keyLoad req tag arg) s (fun t => t.mem.mortar = (eraseKey (16 * arg.toNat) s).mem.mortar ∧ t.cipher.jobs = []
       ∧ match (histLoad key (leField d 4 4) s).2 with
         | none => DoorShows t req 0x0A (doorWord tag 0x11 arg) Oc.failed
         | some (h, c) => DoorShows t req 0x0A (doorWord tag 0x11 arg) Oc.done
           ∧ ∃ k, slotAt t (leField d 0 1) = some k ∧ k.size = leField d 1 1 ∧ k.modes = leField d 2 1 ∧ k.users = leField d 3 1
             ∧ k.key = key ∧ k.ctr = c ∧ k.hist = h))
    ∧ (DoorOpen s req 0x0A (doorWord tag 0x12 arg) → arg.toNat < 32 → slotReserved s req arg.toNat = false →
      s.cipher.jobs = [] → 0 < cipherFree s → Completes (.keyClear req tag arg) s (fun t =>
        DoorShows t req 0x0A (doorWord tag 0x12 arg) Oc.done ∧ slotAt t arg.toNat = none ∧ t.mem = s.mem
        ∧ ∀ i, i ≠ arg.toNat → slotAt t i = slotAt s i))
    ∧ (let d := mortarBytes s (16 * arg.toNat) 48
      DoorOpen s req 0x0A (doorWord tag 0x20 arg) → descOff s (16 * arg.toNat) 48 = false → leField d 0 2 < 512 →
      leField d 2 2 ≠ 0 → leField d 2 2 ≠ 0xFFFF → (leField d 4 1 = 0 ∨ leField d 4 1 = 2) → zeroField d 5 3 = true →
      nodeRefused s req (leField d 0 2) = false → Completes (.nodePut req tag arg) s (fun t =>
        DoorShows t req 0x0A (doorWord tag 0x20 arg) Oc.done ∧ storeNodeAddr t (leField d 0 2) = leField d 2 2
        ∧ (keyFind t.cipher.nodeCtr (leField d 0 2)).isSome = true ∧ t.cipher.jobs = s.cipher.jobs))
    ∧ (DoorOpen s req 0x0A (doorWord tag 0x21 arg) → arg.toNat < 512 → nodeRefused s req arg.toNat = false →
      Completes (.nodeClear req tag arg) s (fun t => DoorShows t req 0x0A (doorWord tag 0x21 arg) Oc.done
        ∧ storeNodeAddr t arg.toNat = 0 ∧ keyFind t.cipher.nodeCtr arg.toNat = none ∧ t.mem.mortar = s.mem.mortar))

/-- The random source and the public-key unit (12 R478, R479, R482, R487): RANDOM writes free bytes while the DRBG runs and
ends RNG_FAIL when it does not; commands of the unit join its queue and are carried out one at a time. -/
def Obligations.RandomAndPublicKey : Prop :=
  ∀ (s : State),
    (∀ (req : Requester) (tag : Byte) (arg : BitVec 16), s.mem.symErr = [] →
      (let d := mortarBytes s (16 * arg.toNat) 8
       DoorOpen s req 0x0B (doorWord tag 0x13 arg) → descOff s (16 * arg.toNat) 8 = false → 16 ≤ leField d 4 4 →
       leField d 4 4 ≤ 4096 → leField d 4 4 % 16 = 0 → destBad s (leField d 0 4) (leField d 4 4) = false →
       Completes (.random req tag arg) s (fun t =>
         (s.ident.rngOk = true → DoorShows t req 0x0B (doorWord tag 0x13 arg) Oc.done
           ∧ t.freeIndex = s.freeIndex + leField d 4 4
           ∧ t.mem = (engineWrite (leField d 0 4) (freeBytesOf s (leField d 4 4)) s).mem)
         ∧ (s.ident.rngOk = false → DoorShows t req 0x0B (doorWord tag 0x13 arg) Io.rngFail ∧ t.mem = s.mem
           ∧ t.freeIndex = s.freeIndex)))
      ∧ (s.ident.state = 3 → resultFull s 0x0B [0x10, 0x11, 0x12] = false →
        (DoorOpen s req 0x0B (doorWord tag 0x10 arg) → descOff s (16 * arg.toNat) 32 = false →
          Completes (.sign req tag arg) s (fun t => DoorShows t req 0x0B (doorWord tag 0x10 arg) Oc.accepted
            ∧ t.ident.jobs = s.ident.jobs ++ [PkJob.mk s.doors.nextId (nextTicket s 0x0B) 0x10 (mortarBytes s (16 * arg.toNat) 32)]
            ∧ t.regs = s.regs ∧ t.mem = s.mem))
        ∧ (DoorOpen s req 0x0B (doorWord tag 0x11 arg) → descOff s (16 * arg.toNat) 160 = false →
          Completes (.verifySignature req tag arg) s (fun t => DoorShows t req 0x0B (doorWord tag 0x11 arg) Oc.accepted
            ∧ t.ident.jobs = s.ident.jobs ++ [PkJob.mk s.doors.nextId (nextTicket s 0x0B) 0x11 (mortarBytes s (16 * arg.toNat) 160)]
            ∧ t.regs = s.regs ∧ t.mem = s.mem))
        ∧ (DoorOpen s req 0x0B (doorWord tag 0x12 arg) → descOff s (16 * arg.toNat) 104 = false →
          ecdhBad (mortarBytes s (16 * arg.toNat) 104) = false →
          Completes (.ecdh req tag arg) s (fun t => DoorShows t req 0x0B (doorWord tag 0x12 arg) Oc.accepted
            ∧ t.ident.jobs = s.ident.jobs ++ [PkJob.mk s.doors.nextId (nextTicket s 0x0B) 0x12 (mortarBytes s (16 * arg.toNat) 104)]
            ∧ t.regs = s.regs ∧ t.mem = s.mem)))
      ∧ (s.ident.state = 3 → DoorOpen s req 0x0B (doorWord tag 0x14 arg) → descOff s (16 * arg.toNat) 4 = false →
        destBad s (leField (mortarBytes s (16 * arg.toNat) 4) 0 4) (certBytes s).length = false →
        Completes (.certCopy req tag arg) s (fun t => DoorShows t req 0x0B (doorWord tag 0x14 arg) Oc.accepted
          ∧ t.ident.jobs = s.ident.jobs ++ [PkJob.mk s.doors.nextId 0 0x14 (mortarBytes s (16 * arg.toNat) 4)]
          ∧ t.regs = s.regs ∧ t.mem = s.mem)))
    ∧ (∀ (j : PkJob) rest, s.ident.jobs = j :: rest → domainOn s 2 = true → testRuns s 0x0B = false →
      (j.code = 0x14 → Completes .pkDone s (fun t => t.ident.jobs = rest ∧ runningCmd t j.id = none
        ∧ t.mem = (engineWrite (leField j.desc 0 4) (certBytes s) s).mem))
      ∧ (j.code = 0x10 → s.ident.rngOk = true → Completes .pkDone s (fun t => t.ident.jobs = rest ∧ runningCmd t j.id = none
        ∧ getReg t Reg.idnSigns = getReg s Reg.idnSigns + 1#32 ∧ t.freeIndex = s.freeIndex + 32 ∧ t.mem = s.mem
        ∧ (resultsOf t 0x0B).length = (resultsOf s 0x0B).length + 1))
      ∧ (j.code = 0x11 → onCurve (bigField j.desc 32) (bigField j.desc 64) = false → Completes .pkDone s (fun t =>
        t.ident.jobs = rest ∧ runningCmd t j.id = none ∧ getReg t Reg.idnVerifies = getReg s Reg.idnVerifies + 1#32
        ∧ t.doors.results = s.doors.results ∧ t.mem = s.mem)))
    ∧ (∀ (repetition adaptive : Bool), domainOn s 2 = true → (repetition || adaptive) = true →
      Completes (.rngFail repetition adaptive) s (fun t => t.ident.rngOk = false ∧ regBit t 0x0B08 0 = true
        ∧ getReg t Reg.idnRngFails = getReg s Reg.idnRngFails + 1#32 ∧ t.mem = s.mem))

/-! ## Resets, Start-up, copies and fuses (18, 12 R483, R484) -/

/-- Resets, Start-up and its end (18 R624, R625, R630): a reset keeps MRAM, the fuses and the counters, and leaves every
register at its reset value; its cause is shown unless the device was in reset already; START_DONE ends Start-up and locks
the regulatory page. -/
def Obligations.ResetsAndStartDone : Prop :=
  ∀ (s : State),
    (let kept := fun (t : State) => t.regs = State.reset.regs ∧ t.phase = State.reset.phase ∧ t.mem.mortar = [] ∧ t.mem.mram = s.mem.mram
       ∧ t.pending = s.pending ∧ t.now = s.now ∧ (s.nvl.blows = [] → t.ident.fuses = s.ident.fuses ∧ t.freeIndex = s.freeIndex)
     Completes .resetN s (fun t => kept t ∧ t.bootUnit.holdReset = true ∧ (s.phase ≠ .inReset → t.bootUnit.cause = 2))
     ∧ (s.phase ≠ .stopped → Completes (.supply none) s (fun t => kept t ∧ (s.phase ≠ .inReset → t.bootUnit.cause = 3)))
     ∧ Completes (.powerUp false) s (fun t => kept t ∧ t.rtc = s.rtc ∧ (s.phase ≠ .inReset → t.bootUnit.cause = 1))
     ∧ (∀ req tag, DoorOpen s req 0x00 (doorWord tag 0x11 0) →
       Completes (.reset req tag 0) s (fun t => kept t ∧ t.rtc = s.rtc ∧ (s.phase ≠ .inReset → t.bootUnit.cause = 5))))
    ∧ (∀ req tag, DoorOpen s req 0x00 (doorWord tag 0x10 0) → s.boot = .startUp →
      (s.bootUnit.idGen = false → Completes (.startDone req tag 0) s (fun t =>
        DoorShows t req 0x00 (doorWord tag 0x10 0) Oc.done ∧ t.boot = .run ∧ t.bootUnit.bootFails = 0
          ∧ regBit t (pageReg 0x23 2) 31 = true ∧ t.mem.mortar = s.mem.mortar))
      ∧ (s.bootUnit.idGen = true → Completes (.startDone req tag 0) s (fun t =>
        DoorShows t req 0x00 (doorWord tag 0x10 0) Oc.accepted ∧ t.boot = .startUp
          ∧ t.bootUnit.startDoneIds = s.bootUnit.startDoneIds ++ [s.doors.nextId] ∧ t.regs = s.regs ∧ t.mem = s.mem)))

/-- Copies to and from MRAM, and the fuses (18 R633; 12 R483, R484): a copy joins those in progress and ends with its last
word; BLOW needs its arm value, and an accepted one clears it; the bits it has blown stay, and all three set its lock. -/
def Obligations.CopiesAndFuses : Prop :=
  ∀ (s : State),
    (∀ (req : Requester) (tag : Byte), copyBad s = false →
      let c := fun w => NvlCopy.mk s.doors.nextId w (regBits s Reg.nvlDst 20 0) (regBits s Reg.nvlSrc 20 0) (regBits s Reg.nvlLength 16 0)
      (DoorOpen s req 0x0C (doorWord tag 0x10 0) → Completes (.mramWrite req tag 0) s (fun t =>
        DoorShows t req 0x0C (doorWord tag 0x10 0) Oc.accepted ∧ t.nvl.copies = s.nvl.copies ++ [c true]
          ∧ t.regs = s.regs ∧ t.mem = s.mem))
      ∧ (DoorOpen s req 0x0C (doorWord tag 0x11 0) → Completes (.mramRead req tag 0) s (fun t =>
        DoorShows t req 0x0C (doorWord tag 0x11 0) Oc.accepted ∧ t.nvl.copies = s.nvl.copies ++ [c false]
          ∧ t.regs = s.regs ∧ t.mem = s.mem)))
    ∧ (∀ (c : NvlCopy) rest, s.nvl.copies = c :: rest → live s = true → Completes .mramCopyDone s (fun t =>
        t.nvl.copies = rest ∧ runningCmd t c.id = none ∧ t.mem = (copyRest (c.left / 8) c s).mem))
    ∧ (∀ (req : Requester) (tag : Byte) (lock : Byte), DoorOpen s req 0x0C (doorWord tag 0x30 (lock.setWidth 16)) →
      s.boot = .startUp → (lock = 1 ∨ lock = 3) → getReg s Reg.nvlBlowArm = BitVec.ofNat 32 (0xB10E0000 + lock.toNat) →
      Completes (.blow req tag (lock.setWidth 16)) s (fun t =>
        DoorShows t req 0x0C (doorWord tag 0x30 (lock.setWidth 16)) Oc.accepted ∧ getReg t Reg.nvlBlowArm = 0#32
          ∧ t.nvl.blows = s.nvl.blows ++ [(s.doors.nextId, lock.toNat)] ∧ t.ident = s.ident ∧ t.mem = s.mem))
    ∧ (∀ id lock rest (bits : BitVec 3), s.nvl.blows = (id, lock) :: rest → live s = true →
      Completes (.blowDone bits) s (fun t => t.nvl.blows = rest ∧ runningCmd t id = none
        ∧ t.ident.fuses = s.ident.fuses ||| BitVec.ofNat 12 (bits.toNat * 8 ^ lock)
        ∧ (bits = 7#3 → lock < 4 → t.ident.locks.getLsbD lock = true) ∧ t.mem = s.mem))

/-! ## The valve radio and link (10, 11) -/

/-- Reception by the valve radio (10 R400 to R405): a detection, its sync word, its provisional length and its end each
change the radio's state and count; what fails is counted and the radio listens again. -/
def Obligations.RadioReception : Prop :=
  ∀ (s : State), domainOn s 7 = true →
    (∀ (symbolsA symbolsB : Nat) (levelA levelB : Byte), radioState s = Ra.listen → synthState s = Sy.locked →
      regBit s Reg.vlrState 27 = false → radioTested s = false → regBits s Reg.vlmDetect 4 0 ≤ symbolsA →
      Completes (.detection symbolsA symbolsB levelA levelB) s (fun t =>
        radioState t = Ra.detected ∧ getReg t Reg.vlmDetects = getReg s Reg.vlmDetects + 1#32
          ∧ regBits t Reg.vlrState 23 16 = levelA.toNat ∧ t.radio.cfg = liveConfig s
          ∧ (∃ rx, t.radio.rx = some rx ∧ rx.level = (if rx.portB then levelB else levelA) ∧ rx.length = none
            ∧ rx.meter = false ∧ rx.atUs = vlrUs s) ∧ t.mem = s.mem))
    ∧ (∀ (rx : Reception) (bits : Word) (word1 : Bool) errors foffset, s.radio.rx = some rx → radioState s = Ra.detected →
      rx.meter = false → syncFoundIn s.radio.cfg bits = some (word1, errors) →
      foffset.natAbs ≤ captureRange s.radio.cfg → vlrUs s ≤ rx.atUs + syncWaitUs s.radio.cfg →
      Completes (.syncFound bits foffset) s (fun t => radioState t = Ra.capture
        ∧ getReg t Reg.vlmSyncs = getReg s Reg.vlmSyncs + 1#32 ∧ t.mem = s.mem
        ∧ t.radio.rx = some { rx with word1 := word1, errors := errors, foffset := latchOffset foffset, syncUs := vlrUs s }))
    ∧ (∀ (rx : Reception), s.radio.rx = some rx → radioState s = Ra.detected → s.radio.waiting = [] →
      rx.atUs + syncWaitUs s.radio.cfg ≤ vlrUs s → Completes .falseDetect s (fun t => t.radio.rx = none
      ∧ getReg t Reg.vlmFalseDetects = getReg s Reg.vlmFalseDetects + 1#32 ∧ t.mem = s.mem))
    ∧ (∀ (rx : Reception) (raw : Byte), s.radio.rx = some rx → radioState s = Ra.capture →
      let length := (lengthOf s.radio.cfg raw).toNat
      (length ≠ 0 → length ≤ bitsOf s.radio.cfg.detect 31 24 → Completes (.provisionalLength raw) s (fun t =>
        t.radio.rx = some { rx with length := some length } ∧ t.regs = s.regs ∧ t.mem = s.mem))
      ∧ (length = 0 ∨ bitsOf s.radio.cfg.detect 31 24 < length → s.radio.waiting = [] →
        Completes (.provisionalLength raw) s (fun t => t.radio.rx = none
          ∧ getReg t Reg.vlmBadLength = getReg s Reg.vlmBadLength + 1#32 ∧ regBit t 0x2104 1 = true ∧ t.mem = s.mem)))
    ∧ (∀ (rx : Reception) (n : Nat) (soft : List (Fin 8)) (decoded : List Byte), s.radio.rx = some rx → rx.length = some n →
      radioState s = Ra.capture → domainOn s 8 = true → s.radio.waiting = [] →
      soft.length = frameCoded s.radio.cfg (n + 1) →
      soft.length * 1000000 ≤ (vlrUs s + 1 - rx.syncUs) * bitRate (bitsOf s.radio.cfg.modulation 7 4) →
      let f := capturedFrame s.radio.cfg rx n (soft.map (fun d => decide (4 ≤ d.val))) decoded (vlrUs s)
      (f.bytes.getD 1 0#8).getLsbD 7 = false → Completes (.captureEnd soft decoded) s (fun t =>
        t.radio.rx = none ∧ t.decoder.urgent = s.decoder.urgent ∧ t.mem = s.mem
          ∧ ∃ r, t.decoder.normal = s.decoder.normal ++ [r] ∧ r.bits = 8 * (n + 1) + 6 ∧ r.urgent = false ∧ r.frame = some f))

/-- Transmission by the valve radio (10 R409 to R413): the ramp starts with the synthesiser LOCKED and the grant present,
and is held otherwise; the carrier's end is logged and counted; a loss of lock and an amplifier fault ramp down. -/
def Obligations.RadioTransmission : Prop :=
  ∀ (s : State) (x : Transmission), domainOn s 7 = true → s.radio.tx = some x →
    (∀ vpa : Byte, radioState s = Ra.turnTx → x.reqUs + 96 ≤ vlrUs s → 27 ≤ vpa.toNat →
      let level := conducted s.radio.cfg.pa vpa
      (rampReady s = true → Completes (.txRampUpStart vpa) s (fun t =>
        radioState t = Ra.rampUp ∧ ∃ y, t.radio.tx = some y ∧ y.ramped = true ∧ y.level = level ∧ y.startUs = vlrUs s
          ∧ y.bytes = x.bytes))
      ∧ (synthState s ≠ Sy.locked → Completes (.txRampUpStart vpa) s (fun t =>
        radioState t = Ra.held ∧ getReg t Reg.vlrTxHeld = getReg s Reg.vlrTxHeld + 1#32 ∧ regBit t 0x2004 1 = true
          ∧ t.radio.tx = some { x with step3Us := vlrUs s, level := level,
                                       capped := decide (level < signed8 (bitsOf s.radio.cfg.pa 7 0)) } ∧ t.mem = s.mem)))
    ∧ (radioState s = Ra.rampUp → x.startUs + (bitsOf s.radio.cfg.pa 21 16 + 1) ≤ vlrUs s →
      Completes .txFirstSymbol s (fun t => radioState t = Ra.tx ∧ t.radio = { s.radio with onAir := airOf s.radio.cfg x }
        ∧ t.mem = s.mem))
    ∧ (radioState s = Ra.tx → x.startUs + x.airtime ≤ vlrUs s + (bitsOf s.radio.cfg.pa 29 24 + 1) →
      Completes .txRampDownStart s (fun t => radioState t = Ra.rampDown
        ∧ t.radio = { s.radio with tx := some { x with downUs := vlrUs s }, onAir := .silent } ∧ t.mem = s.mem))
    ∧ (radioState s = Ra.rampDown → x.downUs + (bitsOf s.radio.cfg.pa 29 24 + 1) ≤ vlrUs s →
      x.kind = .ack none → x.code = 0 → s.radio.waiting = [] → synthState s ≠ Sy.calibrating →
      Completes .carrierOff s (fun t => radioState t = Ra.turnRx ∧ t.radio.tx = none ∧ t.radio.turnUs = vlrUs s
        ∧ getReg t Reg.vlrTxFrames = getReg s Reg.vlrTxFrames + 1#32
        ∧ getReg t Reg.vlqAcksSent = getReg s Reg.vlqAcksSent + 1#32 ∧ t.mem = s.mem))
    ∧ (radioState s = Ra.turnRx → s.radio.turnUs + 64 ≤ vlrUs s →
      radioMode s ≠ 0 → synthState s ≠ Sy.failed → synthState s ≠ Sy.calibrating →
      s.radio.calibrated = true → configOk (liveConfig s) (regBits s Reg.vlrChannel 9 0) = true → Completes .txToRx s (fun t =>
        radioState t = Ra.listen ∧ synthState t = Sy.locked ∧ t.radio.rx = none ∧ t.mem = s.mem))
    ∧ (radioState s = Ra.held → synthState s = Sy.settling →
      (granted s = true → radioTested s = false → Completes .synthLocked s (fun t => radioState t = Ra.rampUp
        ∧ synthState t = Sy.locked ∧ ∃ y, t.radio.tx = some y ∧ y.ramped = true ∧ y.bytes = x.bytes))
      ∧ (x.step3Us + bitsOf s.radio.cfg.holdLimit 9 0 ≤ vlrUs s → x.kind = .ack none → s.radio.waiting = [] →
        Completes .holdLimitExpiry s (fun t => radioState t = Ra.turnRx
        ∧ t.radio.tx = none ∧ getReg t Reg.vlrTxFailed = getReg s Reg.vlrTxFailed + 1#32 ∧ regBit t 0x2004 2 = true
        ∧ regBits t Reg.vlrTxLog2 31 24 = 0x20 ∧ t.mem = s.mem)))
    ∧ (Ra.rampUp ≤ radioState s → radioState s ≤ Ra.rampDown →
      let down := if radioState s = Ra.rampDown then x.downUs else vlrUs s
      Completes .lockLost s (fun t => radioState t = Ra.rampDown ∧ synthState t = Sy.settling ∧ regBit t Reg.vlrSynth 27 = true
        ∧ getReg t Reg.vlrLockLost = getReg s Reg.vlrLockLost + 1#32 ∧ t.radio.onAir = .silent
        ∧ t.radio.tx = some { x with code := if x.code = 0 then 0x21 else x.code, downUs := down } ∧ t.mem = s.mem)
      ∧ ∀ vpa, Completes (.paFault vpa) s (fun t => radioState t = Ra.rampDown ∧ regBit t 0x2008 1 = true
        ∧ t.radio.onAir = .silent
        ∧ t.radio.tx = some { x with code := if x.code = 0 then 0x25 else x.code, downUs := down } ∧ t.mem = s.mem))

/-- The synthesiser, meter frames, carrier tests and the coexistence wires (10 R415 to R419, R425; 11 R451 to R453): a
temperature beyond its limit makes a calibration due, which runs in its gap, is retried and fails with the third; a meter
frame is queued or counted bad; a carrier test waits for the radio or fails where the link is silent; COX_REQ leads the ramp,
and a grant that goes or never comes ends the transmission. -/
def Obligations.RadioCalibrationAndCoexistence : Prop :=
  ∀ (s : State), domainOn s 7 = true →
    (∀ temp : Byte, Completes (.calDue temp) s (fun t => regBits t Reg.vlrSynth 15 8 = temp.toNat ∧ t.radio = s.radio ∧ t.mem = s.mem
      ∧ (s.radio.calibrated = true → regBit s Reg.vlrCtrl 28 = true →
        10 < (signed8 temp.toNat - signed8 (regBits s Reg.vlrSynth 23 16)).natAbs → regBit t Reg.vlrSynth 27 = true)))
    ∧ (calGap s = true → regBit s Reg.vlrSynth 27 = true → Completes .calStart s (fun t =>
      synthState t = Sy.calibrating ∧ radioState t = Ra.cal ∧ t.radio = { s.radio with calNow := s.now } ∧ t.mem = s.mem))
    ∧ (∀ (band : Fin 64) temp, synthState s = Sy.calibrating → s.radio.retryDue = false → passedUs s s.radio.calNow 180 = true →
      Completes (.calDone true band temp) s (fun t => t.radio.calibrated = true ∧ t.radio.calFails = 0
        ∧ getReg t Reg.vlrCals = getReg s Reg.vlrCals + 1#32 ∧ regBit t 0x2004 0 = true
        ∧ regBits t Reg.vlrSynth 5 0 = band.val ∧ t.mem = s.mem)
      ∧ (s.radio.calFails < 2 → Completes (.calDone false band temp) s (fun t => t.radio.calFails = s.radio.calFails + 1
        ∧ t.radio.retryDue = true ∧ getReg t Reg.vlrCalFails = getReg s Reg.vlrCalFails + 1#32
        ∧ synthState t = Sy.calibrating ∧ t.mem = s.mem))
      ∧ (2 ≤ s.radio.calFails → Completes (.calDone false band temp) s (fun t => t.radio.calFails = 0
        ∧ getReg t Reg.vlrCalFails = getReg s Reg.vlrCalFails + 1#32 ∧ regBit t 0x2008 0 = true ∧ t.mem = s.mem)))
    ∧ (s.radio.retryDue = true → passedMs s s.radio.calNow 10 = true → Completes .calRetry s (fun t =>
      t.radio = { s.radio with retryDue := false, calNow := s.now } ∧ t.regs = s.regs ∧ t.mem = s.mem))
    ∧ (synthState s = Sy.settling → s.radio.tx = none → Completes .synthSettled s (fun t =>
      synthState t = Sy.locked ∧ t.radio = s.radio ∧ t.mem = s.mem))
    ∧ (∀ (rx : Reception) report, s.radio.rx = some rx → rx.meter = true → radioState s = Ra.detected → s.radio.waiting = [] →
      regBit s Reg.vlrMeter (if report.modeC1 then 30 else 31) = true →
      let r := meterBytes report s
      let ends := if r.2 then meterFrameData (report.formatB && report.modeC1) r.1 else none
      (ends.isSome = true → queueFree s Reg.vlqQPop ≠ 0 → Completes (.meterFrame report) s (fun t =>
        queueCount t Reg.vlqQPop = queueCount s Reg.vlqQPop + 1 ∧ t.radio.rx = none
          ∧ getReg t Reg.vlmMeterFrames = getReg s Reg.vlmMeterFrames + 1#32 ∧ regBit t 0x2204 0 = true ∧ t.mem = s.mem))
      ∧ (ends = none → regBit s Reg.vlrMeter 29 = false → Completes (.meterFrame report) s (fun t =>
        t.queues = s.queues ∧ t.radio.rx = none
          ∧ getReg t Reg.vlmMeterBad = getReg s Reg.vlmMeterBad + 1#32 ∧ t.mem = s.mem)))
    ∧ (∀ (req : Requester) (tag : Byte) (arg : BitVec 16), DoorOpen s req 0x20 (doorWord tag 0x10 arg) →
      radioMode s = 1 ∨ radioMode s = 3 → 0 < arg.toNat % 32768 → arg.toNat % 32768 ≤ 10000 →
      (linkSilent s = true → Completes (.carrierTest req tag arg) s (fun t =>
        DoorShows t req 0x20 (doorWord tag 0x10 arg) Oc.failed ∧ t.radio = s.radio ∧ t.mem = s.mem))
      ∧ (linkSilent s = false → radioState s = Ra.capture → Completes (.carrierTest req tag arg) s (fun t =>
        DoorShows t req 0x20 (doorWord tag 0x10 arg) Oc.accepted ∧ t.radio.waiting.length = s.radio.waiting.length + 1
          ∧ t.regs = s.regs ∧ t.mem = s.mem)))
    ∧ (∀ x, s.radio.tx = some x → radioState s = Ra.turnTx ∨ radioState s = Ra.held → regBit s Reg.coxCtrl 31 = true →
      x.reqUs + 96 ≤ vlrUs s + regBits s Reg.coxCtrl 25 16 → Completes .coxReqLead s (fun t =>
      t.radio = { s.radio with coxReq := true, coxPri := x.pri } ∧ t.regs = s.regs ∧ t.mem = s.mem))
    ∧ (∀ active, s.radio.coxGnt ≠ active →
      (regBit s Reg.coxCtrl 31 = false → Completes (.coxGntChange active) s (fun t =>
        t.radio = { s.radio with coxGnt := active } ∧ t.regs = s.regs ∧ t.mem = s.mem))
      ∧ (regBit s Reg.coxCtrl 31 = true → active = true → radioState s ≠ Ra.held → Completes (.coxGntChange active) s (fun t =>
        t.radio = { s.radio with coxGnt := true } ∧ getReg t Reg.coxGrants = getReg s Reg.coxGrants + 1#32 ∧ t.mem = s.mem))
      ∧ (∀ x, regBit s Reg.coxCtrl 31 = true → active = false → s.radio.tx = some x → radioState s = Ra.tx →
        Completes (.coxGntChange active) s (fun t => radioState t = Ra.rampDown
          ∧ getReg t Reg.coxAborts = getReg s Reg.coxAborts + 1#32 ∧ regBit t 0x2404 0 = true ∧ t.mem = s.mem)))
    ∧ (∀ x, radioState s = Ra.held → granted s = false → s.radio.tx = some x → x.kind = .ack none → s.radio.waiting = [] →
      x.step3Us + regBits s Reg.coxCtrl 11 0 ≤ vlrUs s →
      synthState s ≠ Sy.calibrating → Completes .coxTimeout s (fun t => t.radio.tx = none ∧ radioState t = Ra.turnRx
        ∧ getReg t Reg.coxGntTimeouts = getReg s Reg.coxGntTimeouts + 1#32 ∧ regBit t 0x2404 1 = true ∧ t.mem = s.mem))

/-- Outbound slots of the valve link (11 R434 to R439): SEND copies its descriptor into the lowest FREE slot; CANCEL ends a
slot that is not on air; a slot boundary starts the oldest QUEUED slot where it may, and nothing where it may not; an
acknowledgement that does not come is counted, a back-off's end queues its slot again, and a held slot expires.
Inbound frames, acknowledgements and duty buckets (11 R440, R441, R449): a frame that fails its first checks is
counted and dropped; a late acknowledgement is counted and dropped; a bucket closes once its minute has passed. -/
def Obligations.ValveLink : Prop :=
  (
  ∀ (s : State), s.link.slots.length = 32 →
    (∀ (req : Requester) (tag : Byte) (arg : BitVec 16) (k : Nat),
      let d := mortarBytes s (16 * arg.toNat) 16
      DoorOpen s req 0x22 (doorWord tag 0x10 arg) → s.mem.symErr = [] → regBit s Reg.vlqCtrl 31 = true →
      activeSecondary s = false → sendBad d (0x100000 - (16 * arg.toNat + 16)) = false →
      0 < freeSlots s → lowestSlot s = some k →
      Completes (.send req tag arg) s (fun t =>
        if (nodeEntry s (leField d 0 2)).isSome = true then
          DoorShows t req 0x22 (doorWord tag 0x10 arg) Oc.accepted ∧ t.mem = s.mem
          ∧ (outAt t k).desc = d ∧ (outAt t k).ticket = nextTicket s 0x22 ∧ (outAt t k).id = s.doors.nextId
          ∧ (outAt t k).payload = mortarBytes s (16 * arg.toNat + 16) (leField d 7 1)
          ∧ (outAt t k).state = (if (outAt t k).hold then Sl.waitNode else Sl.queued)
          ∧ ∀ i, i ≠ k → outAt t i = outAt s i
        else DoorShows t req 0x22 (doorWord tag 0x10 arg) 0x41 ∧ t.link = s.link))
    ∧ (∀ (req : Requester) (tag : Byte) (arg : BitVec 16) (k : Nat), DoorOpen s req 0x22 (doorWord tag 0x11 arg) →
      slotOfTicket s arg.toNat = some k → (outAt s k).state ≠ Sl.active → (outAt s k).id ≠ s.doors.nextId →
      Completes (.sendCancel req tag arg) s (fun t => DoorShows t req 0x22 (doorWord tag 0x11 arg) Oc.done
        ∧ (outAt t k).state = Sl.done ∧ (outAt t k).result = 4 ∧ regBit t Reg.vlqDoneMap k = true ∧ t.mem = s.mem
        ∧ ∀ i, i ≠ k → outAt t i = outAt s i))
    ∧ (linkActive s = true → radioMode s = 1 → s.link.boundaryNow + slotPeriod s ≤ s.now →
      (attemptAllowed s = false → Completes .slotBoundary s (fun t =>
        t.link = { s.link with boundaryNow := s.now - (s.now - s.link.boundaryNow) % slotPeriod s }
          ∧ t.radio = s.radio ∧ t.regs = s.regs ∧ t.mem = s.mem))
      ∧ (∀ k bytes, oldestSlot s (fun o => o.state == Sl.queued) = some k → attemptAllowed s = true → s.link.markWait = none →
        (outAt s k).sealed = some bytes → synthState s ≠ Sy.failed → configOk (liveConfig s) (outAt s k).channel = true →
        (regulatory (latchConfig s) (newTx (.slot k) (outAt s k).channel bytes (packetAirtime (liveConfig s) bytes.length)
          (outAt s k).pri)).1 = 0 →
        Completes .slotBoundary s (fun t => radioState t = Ra.turnTx ∧ (outAt t k).state = Sl.active
          ∧ (outAt t k).attempts = (outAt s k).attempts + 1 ∧ ∃ y, t.radio.tx = some y ∧ y.kind = .slot k ∧ y.bytes = bytes)))
    ∧ (domainOn s 7 = true →
      (∀ w, s.link.await = some w → passedMs s w.since (regBits s Reg.vlqTiming 23 16) = true →
        Completes .ackWaitExpiry s (fun t => t.link.await = none
        ∧ getReg t Reg.vlqNoAck = getReg s Reg.vlqNoAck + 1#32 ∧ t.mem = s.mem))
      ∧ (∀ k : Fin 32, (outAt s k.val).state = Sl.backoff →
        passedMs s (outAt s k.val).failedNow ((outAt s k.val).attempts * leField (outAt s k.val).desc 8 2) = true → Completes (.backoffEnd k) s (fun t =>
        outAt t k.val = { outAt s k.val with state := Sl.queued } ∧ t.radio = s.radio ∧ t.mem = s.mem))
      ∧ (∀ k : Fin 32, (outAt s k.val).hold = true → (outAt s k.val).live = true → s.link.await = none →
        passedMs s (outAt s k.val).acceptedNow (1000 * leField (outAt s k.val).desc 10 2) = true →
        Completes (.expired k) s (fun t => (outAt t k.val).state = Sl.done ∧ (outAt t k.val).result = 3
          ∧ regBit t Reg.vlqDoneMap k.val = true ∧ runningCmd t (outAt s k.val).id = none ∧ t.mem = s.mem))))
  ∧ (
  ∀ (s : State),
    (∀ f rest, domainOn s 7 = true → s.link.inbox = f :: rest →
      (valveFrameGood f.bytes = false → Completes .inboundFrame s (fun t => t.link = { s.link with inbox := rest }
        ∧ getReg t Reg.vlqBadFrame = getReg s Reg.vlqBadFrame + 1#32 ∧ t.queues = s.queues ∧ t.mem = s.mem))
      ∧ (valveFrameGood f.bytes = true → beNat ((f.bytes.drop 2).take 2) ≠ hubAddr s → Completes .inboundFrame s (fun t =>
        t.link = { s.link with inbox := rest } ∧ getReg t Reg.vlqNotMine = getReg s Reg.vlqNotMine + 1#32
          ∧ t.queues = s.queues ∧ t.mem = s.mem)))
    ∧ (∀ a rest, domainOn s 7 = true → s.link.acks = a :: rest → a.dueUs + 2000 < vlrUs s → Completes .ackStart s (fun t =>
      t.link = { s.link with acks := rest } ∧ getReg t Reg.vlqAckLate = getReg s Reg.vlqAckLate + 1#32 ∧ t.mem = s.mem))
    ∧ (∀ band : Fin 8, live s = true →
      ((mono s + 2 ^ 32 - mramWord s (bucketStartAddr band.val)) % 2 ^ 32 < 60 → Completes (.bucketClose band) s (fun t => t = s))
      ∧ (60 ≤ (mono s + 2 ^ 32 - mramWord s (bucketStartAddr band.val)) % 2 ^ 32 → Completes (.bucketClose band) s (fun t =>
        bucketIndex t band.val = (bucketIndex s band.val + 1) % 61
          ∧ mramWord t (bucketAddr band.val ((bucketIndex s band.val + 1) % 61)) = 0
          ∧ mramWord t (bucketStartAddr band.val) = (mramWord s (bucketStartAddr band.val) + 60) % 2 ^ 32
          ∧ t.mem.mortar = s.mem.mortar ∧ t.regs = s.regs))))

/-! ## Mason doors, timers, the memory port, clocks and balls (13, 14, 02, 15, 19) -/

/-- The debug doors of mason 4 and the end of a program load (13 R521, R524): HALT is done in HALTED and waits elsewhere;
RESUME and STEP set a halted mason going; RELOAD holds it in LOADING; a good load runs the mason, a bad one stops it. -/
def Obligations.MasonDoorCommands : Prop :=
  ∀ (s : State), s.masons.length = 5 →
    (∀ (req : Requester) (tag : Byte),
      (DoorOpen s req 0x2C (doorWord tag 0x10 0) →
        ((masonAt s 4).state = .halted → Completes (.haltCommand req 4 tag 0) s (fun t =>
          DoorShows t req 0x2C (doorWord tag 0x10 0) Oc.done ∧ t.masons = s.masons ∧ t.mem = s.mem))
        ∧ ((masonAt s 4).state = .loading ∨ (masonAt s 4).state = .reset → Completes (.haltCommand req 4 tag 0) s (fun t =>
          DoorShows t req 0x2C (doorWord tag 0x10 0) Oc.accepted ∧ t.mem = s.mem
          ∧ masonAt t 4 = { masonAt s 4 with haltIds := (masonAt s 4).haltIds ++ [s.doors.nextId] })))
      ∧ ((masonAt s 4).state = .halted → (masonAt s 4).repHeld = false →
        (DoorOpen s req 0x2C (doorWord tag 0x11 0) → Completes (.resume req 4 tag 0) s (fun t =>
          DoorShows t req 0x2C (doorWord tag 0x11 0) Oc.done ∧ t.mem = s.mem
          ∧ masonAt t 4 = { masonAt s 4 with state := .running, haltWhy := 0, skipBp := true }))
        ∧ (∀ n : BitVec 16, n ≠ 0#16 → DoorOpen s req 0x2C (doorWord tag 0x12 n) → Completes (.step req 4 tag n) s (fun t =>
          DoorShows t req 0x2C (doorWord tag 0x12 n) Oc.accepted ∧ t.mem = s.mem
          ∧ masonAt t 4 = { masonAt s 4 with state := .running, haltWhy := 0, skipBp := true, stepId := some s.doors.nextId, stepLeft := n.toNat })))
      ∧ (DoorOpen s req 0x2C (doorWord tag 0x13 0) → Completes (.reload req 4 tag 0) s (fun t =>
        (masonAt t 4).state = .loading ∧ s.doors.nextId ∈ (masonAt t 4).reloadIds ∧ (masonAt t 4).prog = (masonAt s 4).prog
          ∧ (masonAt t 4).dram = (masonAt s 4).dram ∧ t.mem = s.mem)))
    ∧ (∀ m : Fin 5, m ≠ 4 → (masonAt s m).state = .loading → domainOn s (masonDomain m) = true →
      ((masonAt s m).haltIds = [] → Completes (.programLoadDone m true) s (fun t => (masonAt t m).state = .running
        ∧ (masonAt t m).pc = 0 ∧ (masonAt t m).prog = (masonAt s m).prog ∧ t.mem = s.mem))
      ∧ (∀ w, firmwareBad s = some w → Completes (.programLoadDone m false) s (fun t => (masonAt t m).state = .stopped
        ∧ regBit t 0x0D08 1 = true ∧ t.mem = s.mem)))

/-- Island clocks, the plumb line and the real-time counter (15 R558 to R569): a loss of a clock raises its fault; the
plumb line locks, is bypassed and follows its reference; a trim leaves the count as it is; SET_TIME sets it; the alarm
fires once.
General ports (19 R651): a change of a ball's synchronised level is shown, and raises its event when it is of the kind
selected; a ball the device drives has no other level than its source gives. -/
def Obligations.ClocksAndBalls : Prop :=
  (
  ∀ (s : State), live s = true →
    (∀ (island : Fin 8) (locked : Bool), islandPowered s island.val = true → s.clocks.islands.getLsbD island.val = !locked →
      (locked = true → s.txn.held = []) →
      Completes (.islandClock island locked) s (fun t => t.clocks.islands.getLsbD island.val = locked
        ∧ (locked = false → regBit t 0x0508 1 = true) ∧ (locked = true → t.regs = s.regs) ∧ t.mem = s.mem))
    ∧ (∀ failed, s.rtc.lfOk = failed → Completes (.lfOsc failed) s (fun t => t.rtc.lfOk = !failed
      ∧ rtcCount t = rtcCount s ∧ slewLeft t = slewLeft s ∧ (failed = true → regBit t 0x0508 0 = true) ∧ (failed = false → t.regs = s.regs) ∧ t.mem = s.mem))
    ∧ (s.clocks.plumb = .acquiring → plumbPeriods s 64 = true → Completes .plumbLocked s (fun t => t.clocks.plumb = .locked ∧ t.clocks.bypass = false
      ∧ getReg t Reg.clkLocks = getReg s Reg.clkLocks + 1#32 ∧ regBit t 0x0504 0 = true ∧ t.mem = s.mem))
    ∧ (s.clocks.plumb = .locked → plumbPeriods s 8 = true → Completes .plumbBypass s (fun t => t.clocks.plumb = .acquiring ∧ t.clocks.bypass = true
      ∧ getReg t Reg.clkLosses = getReg s Reg.clkLosses + 1#32 ∧ regBit t 0x0504 1 = true ∧ t.mem = s.mem))
    ∧ (plumbDouble s = true → s.clocks.plumb = .acquiring ∨ s.clocks.plumb = .locked → Completes .refLost s (fun t =>
      t.clocks.plumb = .noRef ∧ regBit t 0x0504 2 = true ∧ t.mem = s.mem))
    ∧ (s.clocks.plumb = .noRef → plumbPeriods s 16 = true → Completes .refRestored s (fun t =>
      t.clocks.plumb = .acquiring ∧ t.regs = s.regs ∧ t.mem = s.mem))
    ∧ (∀ ppm, s.rtc.lfOk = true → passedMs s s.rtc.trimAt 16000 = true → Completes (.rtcTrim ppm) s (fun t => t.rtc.trim = max (-5000) (min 5000 ppm)
      ∧ rtcCount t = rtcCount s ∧ t.regs = s.regs ∧ t.mem = s.mem))
    ∧ (∀ req tag, DoorOpen s req 0x05 (doorWord tag 0x10 0) → Completes (.setTime req tag 0) s (fun t =>
      DoorShows t req 0x05 (doorWord tag 0x10 0) Oc.done ∧ regBit t 0x0504 4 = true ∧ t.rtc.valid = true
        ∧ rtcCount t = regBits s Reg.clkRtcSetSec 31 0 * 32768 + regBits s Reg.clkRtcSetSub 14 0 ∧ t.mem = s.mem))
    ∧ (regBit s Reg.clkRtcCtrl 31 = true → s.rtc.alarmFired = false →
      (alarmPassed s = true → Completes .alarm s (fun t => t.rtc = { s.rtc with alarmFired := true, alarmNow := s.now }
        ∧ regBit t 0x0504 3 = true ∧ t.mem = s.mem))
      ∧ (alarmPassed s = false → Completes .alarm s (fun t => t = s)))
    ∧ (s.rtc.alarmFired = true → Completes .alarm s (fun t => t = s)))
  ∧ (
  ∀ (s : State) (ball : Fin 12) (level : Bool), domainOn s 9 = true →
    (regBit s Reg.gioIn ball.val = !level → gioDriven s ball.val ≠ some (!level) → Completes (.edge ball level) s (fun t =>
      regBit t Reg.gioIn ball.val = level ∧ (∀ k : Fin 12, k ≠ ball → regBit t Reg.gioIn k.val = regBit s Reg.gioIn k.val)
        ∧ (edgeKind s ball.val level = true → regBit t 0x3004 ball.val = true)
        ∧ (edgeKind s ball.val level = false → getReg t 0x3004 = getReg s 0x3004) ∧ t.mem = s.mem))
    ∧ (gioDriven s ball.val = some (!level) → exec (.edge ball level) s = .next s))

/-! ## Power, the boot and integrity (15, 18, 17) -/

/-- The power controller (15 R571 to R573; 01 R30): POWER_ON starts the first domain it may and is DONE with none to start;
a domain that is ready is on; POWER_OFF winds a domain down and DRAIN_END takes it off. -/
def Obligations.PowerCommands : Prop :=
  ∀ (s : State) (req : Requester) (tag : Byte) (arg : BitVec 16),
    (inRecovery s = false → domainArgBad arg.toNat = false → s.power.jobs = [] → s.power.starting = 0#10 →
      s.power.draining = 0#10 →
      (DoorOpen s req 0x06 (doorWord tag 0x10 arg) →
        (∀ d, nextOn s (BitVec.ofNat 10 arg.toNat) = some d → Completes (.powerOn req tag arg) s (fun t =>
          DoorShows t req 0x06 (doorWord tag 0x10 arg) Oc.accepted ∧ t.power.starting = BitVec.ofNat 10 (2 ^ d)
          ∧ t.power.req = s.power.req ||| BitVec.ofNat 10 arg.toNat ∧ t.power.on = s.power.on ∧ t.mem.mram = s.mem.mram))
        ∧ (nextOn s (BitVec.ofNat 10 arg.toNat) = none → Completes (.powerOn req tag arg) s (fun t =>
          DoorShows t req 0x06 (doorWord tag 0x10 arg) Oc.done
          ∧ t.power.req = s.power.req ||| BitVec.ofNat 10 arg.toNat ∧ t.power.jobs = [] ∧ t.mem = s.mem)))
      ∧ (DoorOpen s req 0x06 (doorWord tag 0x11 arg) →
        (BitVec.ofNat 10 arg.toNat &&& s.power.on = 0#10 → Completes (.powerOff req tag arg) s (fun t =>
          DoorShows t req 0x06 (doorWord tag 0x11 arg) Oc.done
          ∧ t.power.req = s.power.req &&& ~~~(BitVec.ofNat 10 arg.toNat) ∧ t.power.jobs = [] ∧ t.mem = s.mem))
        ∧ (arg = 0x100#16 → s.power.on.getLsbD 8 = true → dependentOn s 0x100#10 = false → Completes (.powerOff req tag arg) s (fun t =>
          t.power.draining = 0x100#10 ∧ t.power.on = s.power.on ∧ t.power.req = s.power.req &&& ~~~0x100#10))))
    ∧ (∀ d : Fin 10, live s = true → s.power.starting.getLsbD d.val = true → masonLoaded d.val s = true →
      (d = 8 → s.mem.bank1Busy = false) → (d = 3 → plumbSettled s = true) → s.power.jobs = [] → s.bootUnit.image = 2 →
      s.txn.held = [] → s.power.startedAt + readyTicks d.val ≤ s.now →
      Completes (.domainReady d) s (fun t =>
        t.power.on = s.power.on ||| BitVec.ofNat 10 (2 ^ d.val) ∧ t.power.starting.getLsbD d.val = false
          ∧ regBit t 0x0604 0 = true ∧ t.mem.mram = s.mem.mram))
    ∧ (∀ d, live s = true → drainingDomain s = some d →
      (inFlight d s = false → s.power.jobs = [] → Completes .drainEnd s (fun t => t.power.on.getLsbD d = false
        ∧ draining t d = false ∧ regBit t 0x0604 0 = true))
      ∧ (d = 3 → fieldState s = Fs.rampDown → passedUs s s.power.drainAt (regBits s Reg.pwrDrainLimit 9 0) = true →
        Completes .drainLimit s (fun t => fieldState t = Fs.off
        ∧ getReg t Reg.pwrDrainAborts = getReg s Reg.pwrDrainAborts + 1#32 ∧ regBit t 0x0604 1 = true ∧ t.mem = s.mem)))
    ∧ (live s = true → s.txn.held = [] →
      (s.mem.waits = [] → Completes (.bankReady false) s (fun t => t.mem = { s.mem with bank0Busy := false } ∧ t.regs = s.regs))
      ∧ (∀ e, s.mem.waits = [e] → e.who = none → inBank1 e.addr = false → Completes (.bankReady false) s (fun t =>
        t.mem = (engineWrite e.addr e.bytes { s with mem := { s.mem with bank0Busy := false, waits := [] } }).mem))
      ∧ (s.mem.waits = [] → s.power.on.getLsbD 8 = true ∨ s.power.starting.getLsbD 8 = true → Completes (.bankReady true) s (fun t => t.mem = { s.mem with bank1Busy := false }
        ∧ t.regs = s.regs)))

/-- Stop and waking (15 R575 to R577): STOP begins Stop entry, and one while it lasts joins it; the device stops once PD1
is off; an enabled source abandons Stop entry, and wakes the device from Stop. -/
def Obligations.StopAndWake : Prop :=
  ∀ (s : State),
    (∀ (req : Requester) (tag : Byte), DoorOpen s req 0x06 (doorWord tag 0x20 0) → regBits s Reg.pwrWakeEn 3 0 ≠ 0 →
      s.rtc.lfOk = true → inRecovery s = false →
      (s.power.stopIds = [] → Completes (.stop req tag 0) s (fun t => ∃ n, t.phase = .stopEntry n))
      ∧ (s.power.stopIds ≠ [] → Completes (.stop req tag 0) s (fun t => DoorShows t req 0x06 (doorWord tag 0x20 0) Oc.accepted
        ∧ t.power.stopIds = s.power.stopIds ++ [s.doors.nextId] ∧ t.phase = s.phase ∧ t.regs = s.regs ∧ t.mem = s.mem)))
    ∧ (s.phase = .stopEntry 3 → wakeSources false false s = 0#4 → Completes .stopEntered s (fun t => t.phase = .stopped ∧ t.power.on = 1#10
      ∧ getReg t Reg.pwrStops = getReg s Reg.pwrStops + 1#32 ∧ t.mem.mortar = s.mem.mortar))
    ∧ (∀ n samples hsel good, s.phase = .stopEntry n → wakeSources (wakeBall samples s) (hsel && n == 3) s ≠ 0#4 →
      s.power.jobs.filter (fun j => j.mask != 0#10) = [] → Completes (.wake samples hsel good) s (fun t => t.phase = .run
        ∧ t.power.stopIds = [] ∧ getReg t Reg.pwrWakeCause = 0x80000000#32 ||| (wakeSources (wakeBall samples s) (hsel && n == 3) s).setWidth 32
        ∧ t.mem = s.mem))
    ∧ (∀ samples hsel, s.phase = .stopped → wakeSources (wakeBall samples s) hsel s ≠ 0#4 →
      Completes (.wake samples hsel true) s (fun t =>
      t.phase = .run ∧ t.rtc = { s.rtc with trimAt := s.now } ∧ t.boot = s.boot ∧ t.ident.fuses = s.ident.fuses
        ∧ getReg t Reg.pwrWakeCause = (wakeSources (wakeBall samples s) hsel s).setWidth 32))

/-- The boot, Recovery and the identity (18 R626, R627, R631, R632): a failed boot is counted and resets again with CAUSE 4;
three of them, or BOOT0, lead to Recovery; a good one leads to Start-up; the generation of an identity ends with a key or
FAILED. -/
def Obligations.BootAndIdentity : Prop :=
  ∀ (s : State),
    (s.phase = .inReset → mramRangePoison s 0x0DB000 4 = false →
      let fails := mramWord s 0x0DB000 % 4
      (∀ boot0 good flash, (boot0 = true ∧ s.bootUnit.cause ≤ 3) ∨ fails = 3 →
        (packageGood flash = false → Completes (.resetEnd boot0 good flash) s (fun t =>
          t.phase = .run ∧ t.boot = .recovery ∧ t.bootUnit.recovery = 3))
        ∧ (packageGood flash = true → s.masons.length = 5 → Completes (.resetEnd boot0 good flash) s (fun t =>
          t.phase = .run ∧ t.boot = .recovery ∧ (masonAt t 0).pc = 0x10)))
      ∧ (∀ flash, fails < 3 → Completes (.resetEnd false false flash) s (fun t => t.phase = .inReset
        ∧ t.bootUnit.bootFails = fails + 1 ∧ t.bootUnit.cause = 4))
      ∧ (∀ flash, fails < 3 → bootImagePoison s = false → leNat (mramBytes s bootImageAt 4) = 0 →
        Completes (.resetEnd false true flash) s (fun t => t.phase = .run ∧ t.boot = .startUp)))
    ∧ (live s = true → s.boot = .recovery → s.bootUnit.recovery = 0 →
      Completes (.recoveryOutcome true) s (fun t => t.bootUnit.recovery = 1 ∧ t.bootUnit.fwIndex = s.bootUnit.fwIndex + 1
        ∧ t.regs = s.regs ∧ t.mem.mortar = s.mem.mortar ∧ t.mem.mram = s.mem.mram)
      ∧ Completes (.recoveryOutcome false) s (fun t => t.bootUnit = { s.bootUnit with recovery := 2 } ∧ t.regs = s.regs
        ∧ t.mem = s.mem))
    ∧ (s.bootUnit.idGen = true → domainOn s 2 = true → s.bootUnit.startDoneIds = [] → s.power.req.getLsbD 2 = true →
      s.power.jobs = [] →
      (s.ident.rngOk = true → Completes (.idReady true) s (fun t => t.ident.keyIndex = s.ident.keyIndex + 1
        ∧ t.ident.state = (if s.ident.certLen = 0 then 2 else 3) ∧ t.bootUnit.idGen = false ∧ regBit t 0x0004 0 = true
        ∧ t.mem = s.mem))
      ∧ Completes (.idReady false) s (fun t => t.ident = { s.ident with state := 4 } ∧ t.bootUnit.idGen = false ∧ t.mem = s.mem))

/-- Integrity (17 R608 to R613, R616 to R622): the scrubber moves on and counts what it corrects; temperatures and supplies
are shown, a low supply raises its event and 130 °C the fault; telemetry counts its records; INJECT, ZERO and DROP_BAD act on memory. -/
def Obligations.IntegrityCommands : Prop :=
  ∀ (s : State),
    (live s = true →
      (mramDue s = true → s.mem.mramPoison.contains s.mem.scrubMram = false → s.mem.scrubMram + 1 < bankWords →
        Completes (.scrub 2 0) s (fun t => t.mem = { s.mem with scrubMram := s.mem.scrubMram + 1 } ∧ t.regs = s.regs)
        ∧ Completes (.scrub 2 1) s (fun t => t.mem = { s.mem with scrubMram := s.mem.scrubMram + 1 }
          ∧ getReg t Reg.itgMramCorrected = getReg s Reg.itgMramCorrected + 1#32))
      ∧ (∀ sensors, Completes (.tempHigh sensors) s (fun t =>
        regBits t Reg.itgTemp1 15 8 = tempByte (hottestOf s sensors) ∧ regBits t Reg.itgTemp0 31 24 = sensorByte s sensors 0
          ∧ t.mem = s.mem))
      ∧ (∀ vsup : Byte, vsup.toNat < 120 → s.power.supplyLow = false → Completes (.supplyLow vsup) s (fun t =>
        t.power.supplyLow = true ∧ regBits t Reg.pwrSupply 31 24 = vsup.toNat ∧ regBit t 0x0604 4 = true ∧ t.mem = s.mem))
      ∧ (∀ sensors vpa supply,
        (regBit s Reg.itgCtrl 31 = true → s.work.telemTick ≠ telemTick s → Completes (.telemetry sensors vpa supply) s (fun t =>
          getReg t Reg.itgRingSeq = getReg s Reg.itgRingSeq + 1#32 ∧ regBit t 0x0D04 1 = true))
        ∧ (regBit s Reg.itgCtrl 31 = false → Completes (.telemetry sensors vpa supply) s (fun t =>
          getReg t Reg.itgRingSeq = getReg s Reg.itgRingSeq ∧ t.mem = s.mem))))
    ∧ (∀ (sensors : List Int), live s = true → (overhot (setTemps sensors s)).isSome = true → s.nfc.run = none →
      Completes (.overtemp sensors) s (fun t => regBit t 0x0D08 3 = true
        ∧ (domainOn s 3 = true → fieldState t = Fs.thermalOff) ∧ t.mem = s.mem))
    ∧ (∀ (req : Requester) (tag : Byte),
      (openAllowed s = true → targetOff s = false →
        (DoorOpen s req 0x0D (doorWord tag 0x10 1) → s.mem.symErr = [] → isPoison s (targetWord s) = false →
          Completes (.inject req tag 1) s (fun t => DoorShows t req 0x0D (doorWord tag 0x10 1) Oc.done
            ∧ t.mem.symErr = [(targetWord s, 1)] ∧ t.mem.mram = s.mem.mram))
        ∧ (DoorOpen s req 0x0D (doorWord tag 0x11 0) → Completes (.zero req tag 0) s (fun t =>
          DoorShows t req 0x0D (doorWord tag 0x11 0) Oc.done
            ∧ t.mem = (engineWrite (8 * targetWord s) (List.replicate 8 0#8) s).mem)))
      ∧ (DoorOpen s req 0x0D (doorWord tag 0x12 0) → Completes (.dropBad req tag 0) s (fun t =>
        DoorShows t req 0x0D (doorWord tag 0x12 0) Oc.done ∧ (∀ h, h < 64 → histBad t h = false)
          ∧ t.mem.mortar = s.mem.mortar)))

/-! ## Twin and cascade (16) -/

/-- Pairing (16 R586, R588, R589, R598, R599): HELLO takes the peer's data and starts to authenticate, or names its
refusal; IDENT with a good certificate asks the host of the device that is to be primary; the host's word, its silence and
a confirmation that fails each end as the rules say; a refusal keeps the role. -/
def Obligations.TwinPairing : Prop :=
  ∀ (s : State) (wire : LinkFrame),
    (lintelHeeds s wire = true → frameWhole wire = true → twinLive s = true →
      (∀ peer : PeerHello, twinState s = Tw.detached →
        (helloRefusal s peer = none → Completes (.hello wire peer) s (fun t => twinState t = Tw.authenticating ∧ t.twin.step = 1
          ∧ t.twin.peerRandom = peer.random ∧ t.twin.becoming = (if winsPrimary s peer then 1 else 2)
          ∧ t.twin.queue.map (·.kind) = s.twin.queue.map (·.kind) ++ [0xD0, 0xD1]
          ∧ getReg t Reg.twnPeerSerialLo = peer.serial.setWidth 32 ∧ regBit t 0x0E04 0 = true ∧ twinRole t = twinRole s ∧ t.mem = s.mem))
        ∧ (∀ reason, helloRefusal s peer = some reason → Completes (.hello wire peer) s (fun t => twinState t = Tw.refused
          ∧ regBits t Reg.twnStatus 23 16 = reason ∧ twinRole t = twinRole s ∧ slotAt t 18 = none ∧ slotAt t 19 = none ∧ t.mem = s.mem)))
      ∧ (∀ peer : PeerIdent, twinState s = Tw.authenticating → s.twin.step = 1 →
        (peer.certGood = false → Completes (.ident wire peer) s (fun t => twinState t = Tw.refused
          ∧ regBits t Reg.twnStatus 23 16 = 1 ∧ twinRole t = twinRole s ∧ t.mem = s.mem))
        ∧ (peer.certGood = true → peer.autoPair = false → Completes (.ident wire peer) s (fun t => t.twin.peerKey = peer.key
          ∧ t.twin.step = 2 ∧ t.twin.auto = false ∧ t.cipher = s.cipher ∧ t.mem = s.mem
          ∧ twinState t = (if s.twin.becoming = 1 then Tw.awaitConfirm else Tw.authenticating))))
      ∧ (∀ counter, (s.twin.step = 2 ∨ s.twin.step = 3) → isPaired s = false →
        Completes (.keyConfirm wire counter false) s (fun t => twinState t = Tw.refused ∧ regBits t Reg.twnStatus 23 16 = 4
          ∧ twinRole t = twinRole s ∧ t.mem = s.mem)))
    ∧ (twinState s = Tw.awaitConfirm →
      (domainOn s 9 = true → s.twin.confirmUntil ≤ s.now → Completes .confirmTimeout s (fun t => twinState t = Tw.refused
        ∧ regBits t Reg.twnStatus 23 16 = 3 ∧ twinRole t = twinRole s ∧ t.mem = s.mem))
      ∧ (∀ req tag, DoorOpen s req 0x0E (doorWord tag 0x10 0) → Completes (.confirm req tag 0) s (fun t =>
        DoorShows t req 0x0E (doorWord tag 0x10 0) Oc.done ∧ twinState t = Tw.refused
          ∧ regBits t Reg.twnStatus 23 16 = 2 ∧ twinRole t = twinRole s ∧ t.mem = s.mem)))
    ∧ (∀ req tag, DoorOpen s req 0x0E (doorWord tag 0x11 0) →
      (isPaired s = true → twinRole s = 2 → Completes (.unpair req tag 0) s (fun t =>
        DoorShows t req 0x0E (doorWord tag 0x11 0) Oc.done ∧ t.twin.steppedDown = true ∧ twinState t = Tw.steppedDown
          ∧ twinRole t = 2 ∧ t.link.acks = [] ∧ t.mem = s.mem))
      ∧ (isPaired s = false → Completes (.unpair req tag 0) s (fun t =>
        DoorShows t req 0x0E (doorWord tag 0x11 0) 0x41 ∧ t.twin = s.twin ∧ t.mem = s.mem)))
    ∧ (∀ req tag, DoorOpen s req 0x0E (doorWord tag 0x12 0) → twinState s = Tw.steppedDown → s.twin.unsynced = false →
      twinEn s = true → s.fld.load = none → Completes (.resumeSolo req tag 0) s (fun t => DoorShows t req 0x0E (doorWord tag 0x12 0) Oc.done
        ∧ t.twin.steppedDown = false ∧ twinRole t = 0 ∧ twinState t = Tw.detached ∧ t.mem = s.mem))
    ∧ (∀ (req : Requester) (tag : Byte) (arg : BitVec 16), DoorOpen s req 0x0E (doorWord tag 0x20 arg) → s.boot = .startUp →
      s.mem.symErr = [] → destBad s (16 * arg.toNat) 64 = false →
      let bytes := mortarBytes s (16 * arg.toNat) 64
      let ok := endorsed (oemKey s) Config.serial (ownKey s) bytes
      Completes (.endorse req tag arg) s (fun t => DoorShows t req 0x0E (doorWord tag 0x20 arg) (if ok then Oc.done else 0x44)
        ∧ t.mem.mram = (if ok then memPut s.mem.mram endorsementAddr bytes else s.mem.mram)
        ∧ t.mem.mortar = s.mem.mortar ∧ t.twin = s.twin))

/-- The sealed messages of a pair and its silence (16 R583, R585, R590, R591, R594, R598): a message whose turn has come is
applied once, one that does not open or came before changes nothing of the twin, one ahead is held; the secondary applies
what the primary mirrors; silence is counted, and its twentieth period ends the pair. -/
def Obligations.TwinMessages : Prop :=
  ∀ (s : State), twinLive s = true → isPaired s = true →
    (∀ (wire : LinkFrame) (counter : Nat), lintelHeeds s wire = true → frameWhole wire = true →
      let b := frameReceived 2 wire s
      (∀ (good : Bool) (item : ValveItem), good = false ∨ counter < s.twin.inCtr →
        Completes (.valve wire counter good item) s (fun t => t.twin = b.twin ∧ t.mem = s.mem ∧ t.cipher = s.cipher
          ∧ t.link = s.link ∧ ∀ i, i / 256 ≠ 0x09 → getReg t i = getReg s i))
      ∧ (∀ item : ValveItem, canOpen s = true → s.twin.inCtr < counter → s.twin.held = [] →
        Completes (.valve wire counter true item) s (fun t => t.twin = { b.twin with held := [(counter, .valve item)] } ∧ t.mem = s.mem))
      ∧ (canOpen s = true → counter = s.twin.inCtr → s.twin.held = [] →
        (∀ (n : Fin 512) (v : Word), activeSecondary s = true → Completes (.valve wire counter true (.mark n v)) s (fun t =>
          t.twin.inCtr = counter + 1 ∧ t.twin.outCtr = s.twin.outCtr + 1 ∧ t.mem.mortar = s.mem.mortar
            ∧ t.mem.mram = memPut s.mem.mram (nodeMarkAddr n.val) (leBytes 4 v.toNat)))
        ∧ (∀ (k : Fin 32) (m : SlotImage), activeSecondary s = true → pageUp s 0x22 = true → s.link.slots.length = 32 →
          Completes (.valve wire counter true (.slot k m)) s (fun t => t.twin.inCtr = counter + 1 ∧ t.mem = s.mem
            ∧ (outAt t k.val).state = m.state ∧ (outAt t k.val).desc = m.desc ∧ (outAt t k.val).payload = m.payload
            ∧ ∀ i, i ≠ k.val → outAt t i = outAt s i))
        ∧ (activeSecondary s = true → Completes (.bulk wire counter true .finish) s (fun t => twinState t = Tw.paired
          ∧ regBit t Reg.twnStatus 25 = true ∧ t.twin.inCtr = counter + 1 ∧ t.mem = s.mem))
        ∧ (∀ words, activeSecondary s = true → pageUp s 0x15 = true → queueFree s Reg.invQPop ≠ 0 →
          Completes (.record wire counter true false words) s (fun t => t.twin.inCtr = counter + 1 ∧ t.mem = s.mem
            ∧ queueAt t Reg.invQPop = queueAt (queuePush Reg.invQPop (ticketless words) s) Reg.invQPop))
        ∧ (∀ m : MirrorTxn, activeSecondary s = false → Completes (.txn wire counter true m) s (fun t =>
          t.twin = { b.twin with inCtr := counter + 1 } ∧ t.txn = s.txn ∧ t.mem = s.mem))
        ∧ (∀ n, twinRole s = 1 → s.twin.bulkCtr = none → s.twin.bulkDue = false → s.link.acks = [] → s.link.markWait = none →
          Completes (.ack wire counter true n) s (fun t => t.mem = s.mem
            ∧ t.twin = { b.twin with inCtr := counter + 1, out := s.twin.out.filter (fun m => n < m.counter),
                                     queue := s.twin.queue.filter (fun m => m.kind ≤ 0xD1 || n < m.counter) }))
        ∧ (∀ n, twinRole s = 1 → s.twin.bulkCtr = none → s.twin.bulkDue = false → s.link.acks = [] → s.link.markWait = none →
          Completes (.heartbeat wire counter true n none) s (fun t => regBits t Reg.twnStatus 7 0 = 0 ∧ t.mem = s.mem
            ∧ t.twin.inCtr = counter + 1 ∧ t.twin.outCtr = s.twin.outCtr + 1 ∧ twinState t = twinState s))
        ∧ (twinRole s = 2 → Completes (.detach wire counter true) s (fun t => twinState t = Tw.steppedDown
          ∧ t.twin.steppedDown = true ∧ twinRole t = 2 ∧ t.link.acks = [] ∧ t.mem = s.mem))))
    ∧ (passedMs s s.twin.beatNow 1 = true →
      (regBits s Reg.twnStatus 7 0 < 19 → Completes .heartbeatMissed s (fun t =>
        regBits t Reg.twnStatus 7 0 = regBits s Reg.twnStatus 7 0 + 1
          ∧ getReg t Reg.twnHbMissed = getReg s Reg.twnHbMissed + 1#32 ∧ twinState t = twinState s ∧ t.mem = s.mem))
      ∧ (regBits s Reg.twnStatus 7 0 = 19 → twinRole s = 1 ∨ regBit s Reg.twnStatus 25 = false →
        Completes .heartbeatMissed s (fun t => twinState t = Tw.steppedDown ∧ t.twin.steppedDown = true
          ∧ regBit t 0x0E04 3 = true ∧ regBit t 0x0E04 5 = true ∧ twinRole t = twinRole s ∧ t.mem = s.mem)))
    ∧ (∀ counter m, s.twin.out.find? (fun m => m.counter == counter) = some m → resendDue s m = true →
      Completes (.resend counter) s (fun t => t.regs = s.regs ∧ t.mem = s.mem
        ∧ t.twin = { s.twin with queue := s.twin.queue ++ [{ m with sentAt := none }],
                                 out := s.twin.out.map (fun o => if o.counter = counter then { o with sentAt := none } else o) }))
    ∧ (∀ ready, let target := regBits s Reg.twnPortCtrl 30 29 ≠ 1
      (target → s.twin.queue = [] → Completes (.lintelPoll ready) s (fun t => t.regs = s.regs ∧ t.mem = s.mem
        ∧ t.twin = { s.twin with line := { s.twin.line with
            lanes := frameLanes { header := linkHeader true 0, declared := 0, payload := [], ready := true } } }))
      ∧ (¬target → ready = false → Completes (.lintelPoll ready) s (fun t => t.regs = s.regs ∧ t.mem = s.mem
        ∧ t.twin = { s.twin with line := { s.twin.line with ready := false } }))
      ∧ (∀ m rest, s.twin.queue = m :: rest → target ∨ ready = true → Completes (.lintelPoll ready) s (fun t =>
        t.twin.queue = rest ∧ getReg t Reg.twnTxLen = (BitVec.ofNat 14 (8 * m.bytes)).setWidth 32
          ∧ t.freeIndex = s.freeIndex + m.bytes ∧ t.mem = s.mem)))

/-- The cascade at its head (16 R600 to R603; 05 R235, R236; 06 R270): absent positions are probed, a member that answers
joins unless its silicon differs, polls are counted, and a member that misses ten leaves; loads, reports and estimates
of members are kept.
The cascade at a member (05 R235 to R237; 16 R601, R602, R604): it answers its probe, latches its count at SYNC, has it
corrected by SYNC2, takes a load, schedules a switch in time, follows the head's ramps, and enters QUIET where a message
comes late, where it is told to, and where it hears nothing. -/
def Obligations.Cascade : Prop :=
  (
  ∀ (s : State), isHead s = true →
    (∀ (wire : LinkFrame) (p : Fin 4), p ≠ 0 → frameWhole wire = true →
      (cascFits true (some p.val) wire = true → wire.ready = true →
        (s.clocks.plumb = .locked → regBit s Reg.cscStatus (23 + p.val) = false →
          sinceMs s (s.cascade.probedAt.getD p.val none) 100 = true → Completes (.probe wire p) s (fun t =>
          p.val ∈ t.cascade.probed ∧ t.fld = s.fld ∧ t.mem = s.mem))
        ∧ (∀ (l : CascLoad) (a : Fin 16), s.fld.load = some l → (a.val, p.val) ∈ l.left →
          let left := l.left.filter (· != (a.val, p.val))
          (left ≠ [] → Completes (.load wire a p (cascadeImage s a.val p.val)) s (fun t =>
            t.fld = { s.fld with load := some { l with left := left } } ∧ t.mem = s.mem))
          ∧ (left = [] → Completes (.load wire a p (cascadeImage s a.val p.val)) s (fun t =>
            t.fld = { s.fld with load := none } ∧ runningCmd t l.id = none ∧ t.mem = s.mem))))
      ∧ (cascFits false (some p.val) wire = true →
        (∀ (serial : BitVec 64) (silicon : Word) (present chains : Byte), p.val ∈ s.cascade.probed →
          (silicon ≠ getReg s Reg.devSiliconRev → Completes (.answer wire p serial silicon present chains) s (fun t =>
            getReg t Reg.cscRefusedJoins = getReg s Reg.cscRefusedJoins + 1#32 ∧ getReg t Reg.cscStatus = getReg s Reg.cscStatus ∧ t.mem = s.mem))
          ∧ (silicon = getReg s Reg.devSiliconRev → Completes (.answer wire p serial silicon present chains) s (fun t =>
            cascState t = Cc.running ∧ regBit t Reg.cscStatus (23 + p.val) = true ∧ t.cascade.aligning = true
              ∧ getReg t Reg.cscJoins = getReg s Reg.cscJoins + 1#32 ∧ regBit t 0x0F04 0 = true
              ∧ getReg t (Reg.cscMemberLo + (p.val - 1)) = serial.setWidth 32
              ∧ (domainOn s 3 = true → arrayMode t = 1) ∧ t.mem = s.mem)))
        ∧ (∀ (reply block : Byte) words, domainOn s 4 = true → regBit s Reg.umxStatus (23 + p.val) = true →
          blockFrame p.val block.toNat reply.toNat words = true → s.frx.reply = none →
          Completes (.estimate wire p reply block words) s (fun t =>
            (p.val, reply.toNat, block.toNat, words) ∈ t.cascade.blocks ∧ t.fld = s.fld ∧ t.mem = s.mem))
        ∧ (regBit s Reg.cscStatus (23 + p.val) = true → s.cascade.reports.length = 3 →
          ∀ (plumb : Fin 16) (quiet : Bool) (faulted : Byte), Completes (.memberStatus wire p plumb quiet true faulted) s (fun t =>
            t.cascade.reports[p.val - 1]? = some (plumb.val, quiet, true, faulted) ∧ t.mem = s.mem
              ∧ (domainOn s 3 = true → regBit t Reg.fldCascStatus (7 + p.val) = true ∧ regBit t 0x1004 9 = true)))))
    ∧ (s.clocks.plumb = .locked → sinceMs s s.cascade.alignedAt 1000 = true →
      Completes .alignment s (fun t => t = setCascade { s.cascade with aligning := true, alignedAt := some s.now } s))
    ∧ (∀ (wire : LinkFrame), frameWhole wire = true → wire.ready = true → cascFits true none wire = true →
      let b := frameSent 3 wire s
      (s.cascade.aligning = true → s.clocks.plumb = .locked → Completes (.sync wire) s (fun t =>
        t.cascade = { b.cascade with latched := some (BitVec.ofNat 32 (fldCycle s)) } ∧ t.fld = s.fld ∧ t.mem = s.mem))
      ∧ (∀ latched, Completes (.sync2 wire latched) s (fun t =>
        t.cascade = { b.cascade with aligning := false, latched := none } ∧ t.fld = s.fld ∧ t.mem = s.mem))
      ∧ (∀ cycle a, Completes (.switch wire cycle a) s (fun t => t.cascade = b.cascade ∧ t.fld = s.fld ∧ t.mem = s.mem))
      ∧ (∀ (who : Fin 4) cycle action, domainOn s 3 = true →
        regBits s Reg.fldCascLead 15 0 ≤ (cycle.toNat + 2 ^ 32 - fldCycle s) % 2 ^ 32 →
        (cycle.toNat + 2 ^ 32 - fldCycle s) % 2 ^ 32 < 2 ^ 31 → Completes (.field wire who cycle action) s (fun t =>
          t.cascade = { b.cascade with due := s.cascade.due ++ [(cycle, action, who.val)] } ∧ t.fld = s.fld ∧ t.mem = s.mem)))
    ∧ (∀ p : Fin 4, p ≠ 0 → regBit s Reg.cscStatus (23 + p.val) = true → s.cascade.missed.length = 3 →
      (∀ answered, Completes (.memberPoll p answered) s (fun t => t.regs = s.regs ∧ t.mem = s.mem
        ∧ t.cascade.missed[p.val - 1]? = some (if answered then 0 else s.cascade.missed.getD (p.val - 1) 0 + 1)))
      ∧ (10 ≤ s.cascade.missed.getD (p.val - 1) 0 → s.fld.load = none → Completes (.memberLeft p) s (fun t =>
        regBit t Reg.cscStatus (23 + p.val) = false ∧ getReg t Reg.cscLeaves = getReg s Reg.cscLeaves + 1#32
          ∧ regBit t 0x0F04 1 = true ∧ t.mem = s.mem))))
  ∧ (
  ∀ (s : State), isMember s = true →
    (∀ (wire : LinkFrame), wire.header = linkHeader false (cascPosition s) → frameWhole wire = true →
      (s.clocks.plumb = .locked →
        (∀ p : Fin 4, p.val = cascPosition s → Completes (.probe wire p) s (fun t =>
          t.cascade.answered = true ∧ t.cascade.heardNow = s.now ∧ t.fld = s.fld ∧ t.mem = s.mem))
        ∧ Completes (.sync wire) s (fun t => t.cascade.latched = some (BitVec.ofNat 32 (fldCycle s))
          ∧ t.cascade.heardNow = s.now ∧ t.fld = s.fld ∧ t.mem = s.mem))
      ∧ (domainOn s 3 = true →
        (∀ mine latched, s.cascade.latched = some mine → Completes (.sync2 wire latched) s (fun t =>
          t.fld.cycleOff = (s.fld.cycleOff + (latched - mine).toNat) % 2 ^ 32 ∧ t.cascade.latched = none ∧ t.mem = s.mem
            ∧ (s.cascade.answered = true → fieldState s ≠ Fs.thermalOff → arrayMode t = 2 ∧ fieldState t = Fs.quiet
                ∧ cascState t = Cc.running ∧ t.cascade.answered = false)))
        ∧ (∀ (a : Fin 16) (p : Fin 4) (words : List Word), p.val = cascPosition s → words.length = 13 →
          (∀ x ∈ s.txn.ids, ∀ i, x.touches i = false) →
          Completes (.load wire a p words) s (fun t => t.txn = s.txn ∧ t.mem = s.mem ∧ t.fld.sel = s.fld.sel
            ∧ (∀ k, k < 13 → getReg t (Reg.patAshCtrl + 13 * a.val + k) = words.getD k 0#32)
            ∧ ∀ i, i / 256 ≠ 0x09 → i < Reg.patAshCtrl + 13 * a.val ∨ Reg.patAshCtrl + 13 * a.val + 13 ≤ i → getReg t i = getReg s i))
        ∧ (arrayMode s = 2 →
          (∀ cycle a, s.clocks.bypass = false → cycleLate s cycle = false → Completes (.switch wire cycle a) s (fun t =>
            getReg t Reg.fldCascAt = cycle ∧ regBit t Reg.fldCascStatus 31 = true ∧ regBits t Reg.fldCascStatus 27 24 = a.val
              ∧ t.fld = s.fld ∧ t.mem = s.mem))
          ∧ (∀ cycle a, s.clocks.bypass = false → cycleLate s cycle = true → fieldState s ≠ Fs.thermalOff →
            Completes (.switch wire cycle a) s (fun t => fieldState t = Fs.quiet ∧ getReg t Reg.fldCascAt = getReg s Reg.fldCascAt
              ∧ t.cascade.late = true ∧ t.fld = { s.fld with since := s.now } ∧ t.mem = s.mem))
          ∧ (∀ (who : Fin 4) cycle action,
            (cycleLate s cycle = false → Completes (.field wire who cycle action) s (fun t =>
              t.cascade.due = s.cascade.due ++ [(cycle, action, who.val)] ∧ t.fld = s.fld ∧ t.mem = s.mem))
            ∧ (cycleLate s cycle = true → fieldState s ≠ Fs.thermalOff → Completes (.field wire who cycle action) s (fun t =>
              fieldState t = Fs.quiet ∧ t.cascade.due = s.cascade.due ∧ t.cascade.late = true ∧ t.fld = { s.fld with since := s.now }
                ∧ t.mem = s.mem)))
          ∧ (fieldState s ≠ Fs.thermalOff → Completes (.quiet wire) s (fun t =>
            fieldState t = Fs.quiet ∧ t.cascade.due = s.cascade.due ∧ t.fld = { s.fld with since := s.now } ∧ t.mem = s.mem)))))
    ∧ (domainOn s 3 = true → arrayMode s = 2 → fieldState s ≠ Fs.thermalOff → cascState s ≠ Cc.orphan →
      passedMs s s.cascade.heardNow 10 = true → Completes .orphaned s (fun t => fieldState t = Fs.quiet ∧ cascState t = Cc.orphan
        ∧ arrayMode t = 2 ∧ regBit t 0x0F04 2 = true ∧ t.mem = s.mem)))

/-! ## What every step keeps -/

/-- Soundness is an invariant: whatever command runs, and when the block idles, both memories and the stored registers keep
their canonical form, and there are five masons, eight transactions and four check-value units. -/
def Obligations.SoundnessIsKept : Prop :=
  ∀ s t : State, s.Sound → step s = .next t → t.Sound

/-- A step takes one command from the front of the queue and adds none; the count of free values never falls, and time
passes only while the block idles (the last is the model's choice, notes/assumptions/2.md and 20.md). -/
def Obligations.QueueIsFirstInFirstOut : Prop :=
  ∀ s t : State, step s = .next t → t.pending = s.pending.tail ∧ s.freeIndex ≤ t.freeIndex
    ∧ t.now = if s.pending = [] then s.now + 1 else s.now

/-- A lock fuse that is blown stays blown, through every command, every reset and loss of power (12 R483). -/
def Obligations.BlownFusesStayBlown : Prop :=
  ∀ s t : State, step s = .next t → ∀ k : Nat, s.ident.locks.getLsbD k = true → t.ident.locks.getLsbD k = true
end

