-- ==== Sys2Proof/Laws/Data.lean ====
section
/-!
SUPPORT. Sys2Proof/Laws/Data.lean: sorted association lists, the memories in their canonical form, and the stored
registers: a read after a write, and that every operation keeps the form.
-/
namespace Sys2Proof.Machine

/-! ## Sorted association lists -/

@[simp] theorem keyFind_keyErase_self {α : Type} (l : List (Nat × α)) (k : Nat) : keyFind (keyErase l k) k = none := by
  induction l with
  | nil => rfl
  | cons p t ih =>
    by_cases h : p.1 = k <;> simp [keyErase, keyFind, h, ih]

theorem keyFind_keyErase_ne {α : Type} (l : List (Nat × α)) (j k : Nat) (h : j ≠ k) :
    keyFind (keyErase l k) j = keyFind l j := by
  induction l with
  | nil => rfl
  | cons p t ih =>
    by_cases hk : p.1 = k
    · simp [keyErase, keyFind, hk, ih, Ne.symm h]
    · simp [keyErase, keyFind, hk, ih]

theorem keyFind_keyInsert_self {α : Type} (l : List (Nat × α)) (k : Nat) (v : α) (h : keyFind l k = none) :
    keyFind (keyInsert l k v) k = some v := by
  induction l with
  | nil => simp [keyInsert, keyFind]
  | cons p t ih =>
    have hp : p.1 ≠ k := by
      intro e
      simp [keyFind, e] at h
    have ht : keyFind t k = none := by simpa [keyFind, hp] using h
    unfold keyInsert
    split
    · simp [keyFind]
    · simp [keyFind, hp, ih ht]

theorem keyFind_keyInsert_ne {α : Type} (l : List (Nat × α)) (j k : Nat) (v : α) (h : j ≠ k) :
    keyFind (keyInsert l k v) j = keyFind l j := by
  induction l with
  | nil => simp [keyInsert, keyFind, Ne.symm h]
  | cons p t ih =>
    unfold keyInsert
    split
    · simp [keyFind, Ne.symm h]
    · simp [keyFind, ih]

@[simp] theorem keyFind_keySet_self {α : Type} (l : List (Nat × α)) (k : Nat) (v : α) : keyFind (keySet l k v) k = some v :=
  keyFind_keyInsert_self _ _ _ (keyFind_keyErase_self l k)

theorem keyFind_keySet_ne {α : Type} (l : List (Nat × α)) (j k : Nat) (v : α) (h : j ≠ k) :
    keyFind (keySet l k v) j = keyFind l j := by
  rw [keySet, keyFind_keyInsert_ne _ _ _ _ h, keyFind_keyErase_ne _ _ _ h]

theorem mem_keyErase {α : Type} (l : List (Nat × α)) (k : Nat) (p : Nat × α) : p ∈ keyErase l k ↔ p ∈ l ∧ p.1 ≠ k := by
  induction l with
  | nil => simp [keyErase]
  | cons q t ih =>
    by_cases h : q.1 = k
    · simp only [keyErase, h, if_true, ih, List.mem_cons]
      constructor
      · rintro ⟨a, b⟩
        exact ⟨.inr a, b⟩
      · rintro ⟨rfl | a, b⟩
        · exact absurd h b
        · exact ⟨a, b⟩
    · simp only [keyErase, h, if_false, ih, List.mem_cons]
      constructor
      · rintro (rfl | ⟨a, b⟩)
        · exact ⟨.inl rfl, h⟩
        · exact ⟨.inr a, b⟩
      · rintro ⟨rfl | a, b⟩
        · exact .inl rfl
        · exact .inr ⟨a, b⟩

theorem mem_keyInsert {α : Type} (l : List (Nat × α)) (k : Nat) (v : α) (p : Nat × α) :
    p ∈ keyInsert l k v ↔ p = (k, v) ∨ p ∈ l := by
  induction l with
  | nil => simp [keyInsert]
  | cons q t ih =>
    unfold keyInsert
    split
    · simp
    · simp only [List.mem_cons, ih]
      exact or_left_comm

/-- Entries of a list with a key set: the new pair, and those of other keys. -/
theorem mem_keySet {α : Type} (l : List (Nat × α)) (k : Nat) (v : α) (p : Nat × α) :
    p ∈ keySet l k v ↔ p = (k, v) ∨ (p ∈ l ∧ p.1 ≠ k) := by
  rw [keySet, mem_keyInsert, mem_keyErase]

theorem keysRise_cons {α : Type} (p : Nat × α) (t : List (Nat × α)) :
    keysRise (p :: t) = true ↔ (∀ q ∈ t, p.1 < q.1) ∧ keysRise t = true := by
  simp [keysRise]

theorem keysRise_filter {α : Type} (f : Nat × α → Bool) (l : List (Nat × α)) (h : keysRise l = true) :
    keysRise (l.filter f) = true := by
  induction l with
  | nil => rfl
  | cons p t ih =>
    rw [keysRise_cons] at h
    by_cases hp : f p
    · rw [List.filter_cons_of_pos hp, keysRise_cons]
      exact ⟨fun q hq => h.1 q ((List.mem_filter.1 hq).1), ih h.2⟩
    · rw [List.filter_cons_of_neg hp]
      exact ih h.2

theorem keysRise_keyErase {α : Type} (l : List (Nat × α)) (k : Nat) (h : keysRise l = true) :
    keysRise (keyErase l k) = true := by
  induction l with
  | nil => rfl
  | cons p t ih =>
    rw [keysRise_cons] at h
    by_cases hp : p.1 = k
    · simpa [keyErase, hp] using ih h.2
    · simp only [keyErase, hp, if_false]
      rw [keysRise_cons]
      exact ⟨fun q hq => h.1 q ((mem_keyErase t k q).1 hq).1, ih h.2⟩

theorem keysRise_keyInsert {α : Type} (l : List (Nat × α)) (k : Nat) (v : α) (h : keysRise l = true)
    (hn : ∀ q ∈ l, q.1 ≠ k) : keysRise (keyInsert l k v) = true := by
  induction l with
  | nil => rfl
  | cons p t ih =>
    have hc := (keysRise_cons p t).1 h
    unfold keyInsert
    split
    · rename_i hk
      rw [keysRise_cons]
      refine ⟨fun q hq => ?_, h⟩
      rcases List.mem_cons.1 hq with rfl | hq
      · exact hk
      · exact Nat.lt_trans hk (hc.1 q hq)
    · rename_i hk
      rw [keysRise_cons]
      refine ⟨fun q hq => ?_, ih hc.2 (fun q hq => hn q (List.mem_cons_of_mem _ hq))⟩
      rcases (mem_keyInsert t k v q).1 hq with rfl | hq
      · have := hn p List.mem_cons_self
        simp only at hk ⊢
        omega
      · exact hc.1 q hq

/-- Setting a key keeps the keys strictly rising. -/
theorem keysRise_keySet {α : Type} (l : List (Nat × α)) (k : Nat) (v : α) (h : keysRise l = true) :
    keysRise (keySet l k v) = true :=
  keysRise_keyInsert _ _ _ (keysRise_keyErase l k h) (fun q hq => ((mem_keyErase l k q).1 hq).2)

/-! ## Memory -/

/-- A byte written is read back. -/
@[simp] theorem memGet_memSet_self (m : Memory) (a : Nat) (b : Byte) : memGet (memSet m a b) a = b := by
  unfold memSet memGet keyGet
  split <;> simp_all

/-- A write leaves every other byte. -/
theorem memGet_memSet_ne (m : Memory) (a c : Nat) (b : Byte) (h : c ≠ a) : memGet (memSet m a b) c = memGet m c := by
  unfold memSet memGet keyGet
  split
  · rw [keyFind_keyErase_ne _ _ _ h]
  · rw [keyFind_keySet_ne _ _ _ _ h]

/-- Bytes written from an address on leave every address outside them. -/
theorem memGet_memPut_outside (bs : List Byte) (m : Memory) (a c : Nat) (h : c < a ∨ a + bs.length ≤ c) :
    memGet (memPut m a bs) c = memGet m c := by
  induction bs generalizing m a with
  | nil => rfl
  | cons b t ih =>
    simp only [List.length_cons] at h
    unfold memPut
    rw [ih _ _ (by omega), memGet_memSet_ne _ _ _ _ (by omega)]

/-- Bytes written from an address on are read back. -/
theorem memGet_memPut_inside (bs : List Byte) (m : Memory) (a i : Nat) (h : i < bs.length) :
    memGet (memPut m a bs) (a + i) = bs.getD i 0#8 := by
  induction bs generalizing m a i with
  | nil => simp at h
  | cons b t ih =>
    unfold memPut
    cases i with
    | zero =>
      rw [memGet_memPut_outside _ _ _ _ (by omega)]
      simp
    | succ k =>
      have := ih (memSet m a b) (a + 1) k (by simpa using h)
      rw [show a + (k + 1) = a + 1 + k by omega, this]
      simp

theorem Memory.wf_iff (m : Memory) : Memory.wf m = true ↔ keysRise m = true ∧ ∀ c ∈ m, c.2 ≠ emptyByte := by
  simp [Memory.wf]

/-- A write of a byte keeps the canonical form. -/
theorem memSet_wf (m : Memory) (a : Nat) (b : Byte) (h : Memory.wf m = true) : Memory.wf (memSet m a b) = true := by
  rw [Memory.wf_iff] at h ⊢
  unfold memSet
  split
  · exact ⟨keysRise_keyErase _ _ h.1, fun c hc => h.2 c ((mem_keyErase m a c).1 hc).1⟩
  · rename_i hb
    refine ⟨keysRise_keySet _ _ _ h.1, fun c hc => ?_⟩
    rcases (mem_keySet m a b c).1 hc with rfl | hc
    · exact hb
    · exact h.2 c hc.1

theorem memPut_wf (bs : List Byte) (m : Memory) (a : Nat) (h : Memory.wf m = true) : Memory.wf (memPut m a bs) = true := by
  induction bs generalizing m a with
  | nil => exact h
  | cons b t ih => exact ih _ _ (memSet_wf m a b h)

theorem memory_filter_wf (f : Nat × Byte → Bool) (m : Memory) (h : Memory.wf m = true) :
    Memory.wf (m.filter f) = true := by
  rw [Memory.wf_iff] at h ⊢
  exact ⟨keysRise_filter _ _ h.1, fun c hc => h.2 c ((List.mem_filter.1 hc).1)⟩

theorem flipSymbols_wf (m : Memory) (w mask : Nat) (h : Memory.wf m = true) : Memory.wf (flipSymbols m w mask) = true :=
  memSet_wf _ _ _ h

/-! ## Stored registers -/

/-- A register stored is read back. -/
@[simp] theorem getReg_setReg_self (i : Nat) (w : Word) (s : State) : getReg (setReg i w s) i = w := by
  unfold getReg setReg
  split
  · rename_i h
    simp [h]
  · simp

/-- Storing a register leaves every other. -/
theorem getReg_setReg_ne (i j : Nat) (w : Word) (s : State) (h : j ≠ i) : getReg (setReg i w s) j = getReg s j := by
  unfold getReg setReg
  split
  · simp [keyFind_keyErase_ne _ _ _ h]
  · simp [keyFind_keySet_ne _ _ _ _ h]

theorem regsWf_iff (l : List (Nat × Word)) : regsWf l = true ↔ keysRise l = true ∧ ∀ e ∈ l, e.2 ≠ regReset e.1 := by
  simp [regsWf]

/-- Storing a register keeps the form of the stored registers. -/
theorem setReg_regsWf (i : Nat) (w : Word) (s : State) (h : regsWf s.regs = true) : regsWf (setReg i w s).regs = true := by
  rw [regsWf_iff] at h ⊢
  unfold setReg
  split
  · exact ⟨keysRise_keyErase _ _ h.1, fun c hc => h.2 c ((mem_keyErase _ _ c).1 hc).1⟩
  · rename_i hw
    refine ⟨keysRise_keySet _ _ _ h.1, fun c hc => ?_⟩
    rcases (mem_keySet _ _ _ c).1 hc with rfl | hc
    · exact hw
    · exact h.2 c hc.1

/-- Dropping stored registers keeps the form. -/
theorem regs_filter_wf (f : Nat × Word → Bool) (l : List (Nat × Word)) (h : regsWf l = true) :
    regsWf (l.filter f) = true := by
  rw [regsWf_iff] at h ⊢
  exact ⟨keysRise_filter _ _ h.1, fun e he => h.2 e ((List.mem_filter.1 he).1)⟩

@[simp] theorem getReg_setMem (m : Mem) (s : State) (i : Nat) : getReg (setMem m s) i = getReg s i := rfl
@[simp] theorem getReg_setView (v : DoorView) (s : State) (i : Nat) : getReg (setView v s) i = getReg s i := rfl
@[simp] theorem getReg_setQueue (p : Nat) (q : RQueue) (s : State) (i : Nat) : getReg (setQueue p q s) i = getReg s i := rfl
@[simp] theorem getReg_setMason (m : Fin 5) (u : MasonUnit) (s : State) (i : Nat) : getReg (setMason m u s) i = getReg s i := rfl

theorem getReg_setRegBits_ne (i m l v j : Nat) (s : State) (h : j ≠ i) : getReg (setRegBits i m l v s) j = getReg s j :=
  getReg_setReg_ne _ _ _ _ h

theorem getReg_setRegBit_ne (i n j : Nat) (s : State) (h : j ≠ i) : getReg (setRegBit i n s) j = getReg s j :=
  getReg_setReg_ne _ _ _ _ h

theorem getReg_clearRegBit_ne (i n j : Nat) (s : State) (h : j ≠ i) : getReg (clearRegBit i n s) j = getReg s j :=
  getReg_setReg_ne _ _ _ _ h

theorem getReg_countReg_ne (i n j : Nat) (s : State) (h : j ≠ i) : getReg (countReg i n s) j = getReg s j :=
  getReg_setReg_ne _ _ _ _ h

/-- An event set touches its page's EVENT only. -/
theorem getReg_raiseEvent_ne (p b j : Nat) (s : State) (h : j ≠ pageReg p 4) : getReg (raiseEvent p b s) j = getReg s j :=
  getReg_setReg_ne _ _ _ _ h

/-- A fault raised touches FAULT, FAULT_INFO and EVENT of its page and EVENT of ITG only. -/
theorem getReg_raiseFault_ne (p b d j : Nat) (s : State) (h4 : j ≠ pageReg p 4) (h8 : j ≠ pageReg p 8)
    (h9 : j ≠ pageReg p 9) (hi : j ≠ pageReg 0x0D 4) : getReg (raiseFault p b d s) j = getReg s j := by
  unfold raiseFault
  split
  · rw [getReg_raiseEvent_ne _ _ _ _ hi, getReg_raiseEvent_ne _ _ _ _ h4, getReg_setRegBit_ne _ _ _ _ h8,
      getReg_setReg_ne _ _ _ _ h9]
  · rw [getReg_setRegBit_ne _ _ _ _ h8]

end Sys2Proof.Machine
end

