-- ==== Sys2Proof/Laws/State.lean ====
section
/-!
SUPPORT. Sys2Proof/Laws/State.lean: what each update of the state leaves as it was, one equation a field, so that no later
proof unfolds a record update. One equation true by rfl for each field and update.
-/
namespace Sys2Proof.Machine

/-! ## Updates of one field -/

@[simp] theorem setReg_pending (i : Nat) (w : Word) (s : State) : (setReg i w s).pending = s.pending := rfl
@[simp] theorem setReg_now (i : Nat) (w : Word) (s : State) : (setReg i w s).now = s.now := rfl
@[simp] theorem setReg_freeIndex (i : Nat) (w : Word) (s : State) : (setReg i w s).freeIndex = s.freeIndex := rfl
@[simp] theorem setReg_phase (i : Nat) (w : Word) (s : State) : (setReg i w s).phase = s.phase := rfl
@[simp] theorem setReg_boot (i : Nat) (w : Word) (s : State) : (setReg i w s).boot = s.boot := rfl
@[simp] theorem setReg_regs (i : Nat) (w : Word) (s : State) : (setReg i w s).regs = (if w = regReset i then keyErase s.regs i else keySet s.regs i w) := rfl
@[simp] theorem setReg_snaps (i : Nat) (w : Word) (s : State) : (setReg i w s).snaps = s.snaps := rfl
@[simp] theorem setReg_snapCtl (i : Nat) (w : Word) (s : State) : (setReg i w s).snapCtl = s.snapCtl := rfl
@[simp] theorem setReg_doors (i : Nat) (w : Word) (s : State) : (setReg i w s).doors = s.doors := rfl
@[simp] theorem setReg_queues (i : Nat) (w : Word) (s : State) : (setReg i w s).queues = s.queues := rfl
@[simp] theorem setReg_txn (i : Nat) (w : Word) (s : State) : (setReg i w s).txn = s.txn := rfl
@[simp] theorem setReg_mem (i : Nat) (w : Word) (s : State) : (setReg i w s).mem = s.mem := rfl
@[simp] theorem setReg_host (i : Nat) (w : Word) (s : State) : (setReg i w s).host = s.host := rfl
@[simp] theorem setReg_power (i : Nat) (w : Word) (s : State) : (setReg i w s).power = s.power := rfl
@[simp] theorem setReg_bootUnit (i : Nat) (w : Word) (s : State) : (setReg i w s).bootUnit = s.bootUnit := rfl
@[simp] theorem setReg_rtc (i : Nat) (w : Word) (s : State) : (setReg i w s).rtc = s.rtc := rfl
@[simp] theorem setReg_clocks (i : Nat) (w : Word) (s : State) : (setReg i w s).clocks = s.clocks := rfl
@[simp] theorem setReg_fld (i : Nat) (w : Word) (s : State) : (setReg i w s).fld = s.fld := rfl
@[simp] theorem setReg_frx (i : Nat) (w : Word) (s : State) : (setReg i w s).frx = s.frx := rfl
@[simp] theorem setReg_nfc (i : Nat) (w : Word) (s : State) : (setReg i w s).nfc = s.nfc := rfl
@[simp] theorem setReg_card (i : Nat) (w : Word) (s : State) : (setReg i w s).card = s.card := rfl
@[simp] theorem setReg_bcast (i : Nat) (w : Word) (s : State) : (setReg i w s).bcast = s.bcast := rfl
@[simp] theorem setReg_twin (i : Nat) (w : Word) (s : State) : (setReg i w s).twin = s.twin := rfl
@[simp] theorem setReg_cascade (i : Nat) (w : Word) (s : State) : (setReg i w s).cascade = s.cascade := rfl
@[simp] theorem setReg_cipher (i : Nat) (w : Word) (s : State) : (setReg i w s).cipher = s.cipher := rfl
@[simp] theorem setReg_ident (i : Nat) (w : Word) (s : State) : (setReg i w s).ident = s.ident := rfl
@[simp] theorem setReg_decoder (i : Nat) (w : Word) (s : State) : (setReg i w s).decoder = s.decoder := rfl
@[simp] theorem setReg_radio (i : Nat) (w : Word) (s : State) : (setReg i w s).radio = s.radio := rfl
@[simp] theorem setReg_link (i : Nat) (w : Word) (s : State) : (setReg i w s).link = s.link := rfl
@[simp] theorem setReg_masons (i : Nat) (w : Word) (s : State) : (setReg i w s).masons = s.masons := rfl
@[simp] theorem setReg_port (i : Nat) (w : Word) (s : State) : (setReg i w s).port = s.port := rfl
@[simp] theorem setReg_timers (i : Nat) (w : Word) (s : State) : (setReg i w s).timers = s.timers := rfl
@[simp] theorem setReg_checks (i : Nat) (w : Word) (s : State) : (setReg i w s).checks = s.checks := rfl
@[simp] theorem setReg_nvl (i : Nat) (w : Word) (s : State) : (setReg i w s).nvl = s.nvl := rfl
@[simp] theorem setReg_telemPrev (i : Nat) (w : Word) (s : State) : (setReg i w s).telemPrev = s.telemPrev := rfl
@[simp] theorem setReg_work (i : Nat) (w : Word) (s : State) : (setReg i w s).work = s.work := rfl

@[simp] theorem setMem_pending (m : Mem) (s : State) : (setMem m s).pending = s.pending := rfl
@[simp] theorem setMem_now (m : Mem) (s : State) : (setMem m s).now = s.now := rfl
@[simp] theorem setMem_freeIndex (m : Mem) (s : State) : (setMem m s).freeIndex = s.freeIndex := rfl
@[simp] theorem setMem_phase (m : Mem) (s : State) : (setMem m s).phase = s.phase := rfl
@[simp] theorem setMem_boot (m : Mem) (s : State) : (setMem m s).boot = s.boot := rfl
@[simp] theorem setMem_regs (m : Mem) (s : State) : (setMem m s).regs = s.regs := rfl
@[simp] theorem setMem_snaps (m : Mem) (s : State) : (setMem m s).snaps = s.snaps := rfl
@[simp] theorem setMem_snapCtl (m : Mem) (s : State) : (setMem m s).snapCtl = s.snapCtl := rfl
@[simp] theorem setMem_doors (m : Mem) (s : State) : (setMem m s).doors = s.doors := rfl
@[simp] theorem setMem_queues (m : Mem) (s : State) : (setMem m s).queues = s.queues := rfl
@[simp] theorem setMem_txn (m : Mem) (s : State) : (setMem m s).txn = s.txn := rfl
@[simp] theorem setMem_mem (m : Mem) (s : State) : (setMem m s).mem = m := rfl
@[simp] theorem setMem_host (m : Mem) (s : State) : (setMem m s).host = s.host := rfl
@[simp] theorem setMem_power (m : Mem) (s : State) : (setMem m s).power = s.power := rfl
@[simp] theorem setMem_bootUnit (m : Mem) (s : State) : (setMem m s).bootUnit = s.bootUnit := rfl
@[simp] theorem setMem_rtc (m : Mem) (s : State) : (setMem m s).rtc = s.rtc := rfl
@[simp] theorem setMem_clocks (m : Mem) (s : State) : (setMem m s).clocks = s.clocks := rfl
@[simp] theorem setMem_fld (m : Mem) (s : State) : (setMem m s).fld = s.fld := rfl
@[simp] theorem setMem_frx (m : Mem) (s : State) : (setMem m s).frx = s.frx := rfl
@[simp] theorem setMem_nfc (m : Mem) (s : State) : (setMem m s).nfc = s.nfc := rfl
@[simp] theorem setMem_card (m : Mem) (s : State) : (setMem m s).card = s.card := rfl
@[simp] theorem setMem_bcast (m : Mem) (s : State) : (setMem m s).bcast = s.bcast := rfl
@[simp] theorem setMem_twin (m : Mem) (s : State) : (setMem m s).twin = s.twin := rfl
@[simp] theorem setMem_cascade (m : Mem) (s : State) : (setMem m s).cascade = s.cascade := rfl
@[simp] theorem setMem_cipher (m : Mem) (s : State) : (setMem m s).cipher = s.cipher := rfl
@[simp] theorem setMem_ident (m : Mem) (s : State) : (setMem m s).ident = s.ident := rfl
@[simp] theorem setMem_decoder (m : Mem) (s : State) : (setMem m s).decoder = s.decoder := rfl
@[simp] theorem setMem_radio (m : Mem) (s : State) : (setMem m s).radio = s.radio := rfl
@[simp] theorem setMem_link (m : Mem) (s : State) : (setMem m s).link = s.link := rfl
@[simp] theorem setMem_masons (m : Mem) (s : State) : (setMem m s).masons = s.masons := rfl
@[simp] theorem setMem_port (m : Mem) (s : State) : (setMem m s).port = s.port := rfl
@[simp] theorem setMem_timers (m : Mem) (s : State) : (setMem m s).timers = s.timers := rfl
@[simp] theorem setMem_checks (m : Mem) (s : State) : (setMem m s).checks = s.checks := rfl
@[simp] theorem setMem_nvl (m : Mem) (s : State) : (setMem m s).nvl = s.nvl := rfl
@[simp] theorem setMem_telemPrev (m : Mem) (s : State) : (setMem m s).telemPrev = s.telemPrev := rfl
@[simp] theorem setMem_work (m : Mem) (s : State) : (setMem m s).work = s.work := rfl

@[simp] theorem setQueue_pending (pop : Nat) (q : RQueue) (s : State) : (setQueue pop q s).pending = s.pending := rfl
@[simp] theorem setQueue_now (pop : Nat) (q : RQueue) (s : State) : (setQueue pop q s).now = s.now := rfl
@[simp] theorem setQueue_freeIndex (pop : Nat) (q : RQueue) (s : State) : (setQueue pop q s).freeIndex = s.freeIndex := rfl
@[simp] theorem setQueue_phase (pop : Nat) (q : RQueue) (s : State) : (setQueue pop q s).phase = s.phase := rfl
@[simp] theorem setQueue_boot (pop : Nat) (q : RQueue) (s : State) : (setQueue pop q s).boot = s.boot := rfl
@[simp] theorem setQueue_regs (pop : Nat) (q : RQueue) (s : State) : (setQueue pop q s).regs = s.regs := rfl
@[simp] theorem setQueue_snaps (pop : Nat) (q : RQueue) (s : State) : (setQueue pop q s).snaps = s.snaps := rfl
@[simp] theorem setQueue_snapCtl (pop : Nat) (q : RQueue) (s : State) : (setQueue pop q s).snapCtl = s.snapCtl := rfl
@[simp] theorem setQueue_doors (pop : Nat) (q : RQueue) (s : State) : (setQueue pop q s).doors = s.doors := rfl
@[simp] theorem setQueue_queues (pop : Nat) (q : RQueue) (s : State) : (setQueue pop q s).queues = keySet s.queues pop q := rfl
@[simp] theorem setQueue_txn (pop : Nat) (q : RQueue) (s : State) : (setQueue pop q s).txn = s.txn := rfl
@[simp] theorem setQueue_mem (pop : Nat) (q : RQueue) (s : State) : (setQueue pop q s).mem = s.mem := rfl
@[simp] theorem setQueue_host (pop : Nat) (q : RQueue) (s : State) : (setQueue pop q s).host = s.host := rfl
@[simp] theorem setQueue_power (pop : Nat) (q : RQueue) (s : State) : (setQueue pop q s).power = s.power := rfl
@[simp] theorem setQueue_bootUnit (pop : Nat) (q : RQueue) (s : State) : (setQueue pop q s).bootUnit = s.bootUnit := rfl
@[simp] theorem setQueue_rtc (pop : Nat) (q : RQueue) (s : State) : (setQueue pop q s).rtc = s.rtc := rfl
@[simp] theorem setQueue_clocks (pop : Nat) (q : RQueue) (s : State) : (setQueue pop q s).clocks = s.clocks := rfl
@[simp] theorem setQueue_fld (pop : Nat) (q : RQueue) (s : State) : (setQueue pop q s).fld = s.fld := rfl
@[simp] theorem setQueue_frx (pop : Nat) (q : RQueue) (s : State) : (setQueue pop q s).frx = s.frx := rfl
@[simp] theorem setQueue_nfc (pop : Nat) (q : RQueue) (s : State) : (setQueue pop q s).nfc = s.nfc := rfl
@[simp] theorem setQueue_card (pop : Nat) (q : RQueue) (s : State) : (setQueue pop q s).card = s.card := rfl
@[simp] theorem setQueue_bcast (pop : Nat) (q : RQueue) (s : State) : (setQueue pop q s).bcast = s.bcast := rfl
@[simp] theorem setQueue_twin (pop : Nat) (q : RQueue) (s : State) : (setQueue pop q s).twin = s.twin := rfl
@[simp] theorem setQueue_cascade (pop : Nat) (q : RQueue) (s : State) : (setQueue pop q s).cascade = s.cascade := rfl
@[simp] theorem setQueue_cipher (pop : Nat) (q : RQueue) (s : State) : (setQueue pop q s).cipher = s.cipher := rfl
@[simp] theorem setQueue_ident (pop : Nat) (q : RQueue) (s : State) : (setQueue pop q s).ident = s.ident := rfl
@[simp] theorem setQueue_decoder (pop : Nat) (q : RQueue) (s : State) : (setQueue pop q s).decoder = s.decoder := rfl
@[simp] theorem setQueue_radio (pop : Nat) (q : RQueue) (s : State) : (setQueue pop q s).radio = s.radio := rfl
@[simp] theorem setQueue_link (pop : Nat) (q : RQueue) (s : State) : (setQueue pop q s).link = s.link := rfl
@[simp] theorem setQueue_masons (pop : Nat) (q : RQueue) (s : State) : (setQueue pop q s).masons = s.masons := rfl
@[simp] theorem setQueue_port (pop : Nat) (q : RQueue) (s : State) : (setQueue pop q s).port = s.port := rfl
@[simp] theorem setQueue_timers (pop : Nat) (q : RQueue) (s : State) : (setQueue pop q s).timers = s.timers := rfl
@[simp] theorem setQueue_checks (pop : Nat) (q : RQueue) (s : State) : (setQueue pop q s).checks = s.checks := rfl
@[simp] theorem setQueue_nvl (pop : Nat) (q : RQueue) (s : State) : (setQueue pop q s).nvl = s.nvl := rfl
@[simp] theorem setQueue_telemPrev (pop : Nat) (q : RQueue) (s : State) : (setQueue pop q s).telemPrev = s.telemPrev := rfl
@[simp] theorem setQueue_work (pop : Nat) (q : RQueue) (s : State) : (setQueue pop q s).work = s.work := rfl

@[simp] theorem queueReset_pending (pop : Nat) (s : State) : (queueReset pop s).pending = s.pending := rfl
@[simp] theorem queueReset_now (pop : Nat) (s : State) : (queueReset pop s).now = s.now := rfl
@[simp] theorem queueReset_freeIndex (pop : Nat) (s : State) : (queueReset pop s).freeIndex = s.freeIndex := rfl
@[simp] theorem queueReset_phase (pop : Nat) (s : State) : (queueReset pop s).phase = s.phase := rfl
@[simp] theorem queueReset_boot (pop : Nat) (s : State) : (queueReset pop s).boot = s.boot := rfl
@[simp] theorem queueReset_regs (pop : Nat) (s : State) : (queueReset pop s).regs = s.regs := rfl
@[simp] theorem queueReset_snaps (pop : Nat) (s : State) : (queueReset pop s).snaps = s.snaps := rfl
@[simp] theorem queueReset_snapCtl (pop : Nat) (s : State) : (queueReset pop s).snapCtl = s.snapCtl := rfl
@[simp] theorem queueReset_doors (pop : Nat) (s : State) : (queueReset pop s).doors = s.doors := rfl
@[simp] theorem queueReset_queues (pop : Nat) (s : State) : (queueReset pop s).queues = keyErase s.queues pop := rfl
@[simp] theorem queueReset_txn (pop : Nat) (s : State) : (queueReset pop s).txn = s.txn := rfl
@[simp] theorem queueReset_mem (pop : Nat) (s : State) : (queueReset pop s).mem = s.mem := rfl
@[simp] theorem queueReset_host (pop : Nat) (s : State) : (queueReset pop s).host = s.host := rfl
@[simp] theorem queueReset_power (pop : Nat) (s : State) : (queueReset pop s).power = s.power := rfl
@[simp] theorem queueReset_bootUnit (pop : Nat) (s : State) : (queueReset pop s).bootUnit = s.bootUnit := rfl
@[simp] theorem queueReset_rtc (pop : Nat) (s : State) : (queueReset pop s).rtc = s.rtc := rfl
@[simp] theorem queueReset_clocks (pop : Nat) (s : State) : (queueReset pop s).clocks = s.clocks := rfl
@[simp] theorem queueReset_fld (pop : Nat) (s : State) : (queueReset pop s).fld = s.fld := rfl
@[simp] theorem queueReset_frx (pop : Nat) (s : State) : (queueReset pop s).frx = s.frx := rfl
@[simp] theorem queueReset_nfc (pop : Nat) (s : State) : (queueReset pop s).nfc = s.nfc := rfl
@[simp] theorem queueReset_card (pop : Nat) (s : State) : (queueReset pop s).card = s.card := rfl
@[simp] theorem queueReset_bcast (pop : Nat) (s : State) : (queueReset pop s).bcast = s.bcast := rfl
@[simp] theorem queueReset_twin (pop : Nat) (s : State) : (queueReset pop s).twin = s.twin := rfl
@[simp] theorem queueReset_cascade (pop : Nat) (s : State) : (queueReset pop s).cascade = s.cascade := rfl
@[simp] theorem queueReset_cipher (pop : Nat) (s : State) : (queueReset pop s).cipher = s.cipher := rfl
@[simp] theorem queueReset_ident (pop : Nat) (s : State) : (queueReset pop s).ident = s.ident := rfl
@[simp] theorem queueReset_decoder (pop : Nat) (s : State) : (queueReset pop s).decoder = s.decoder := rfl
@[simp] theorem queueReset_radio (pop : Nat) (s : State) : (queueReset pop s).radio = s.radio := rfl
@[simp] theorem queueReset_link (pop : Nat) (s : State) : (queueReset pop s).link = s.link := rfl
@[simp] theorem queueReset_masons (pop : Nat) (s : State) : (queueReset pop s).masons = s.masons := rfl
@[simp] theorem queueReset_port (pop : Nat) (s : State) : (queueReset pop s).port = s.port := rfl
@[simp] theorem queueReset_timers (pop : Nat) (s : State) : (queueReset pop s).timers = s.timers := rfl
@[simp] theorem queueReset_checks (pop : Nat) (s : State) : (queueReset pop s).checks = s.checks := rfl
@[simp] theorem queueReset_nvl (pop : Nat) (s : State) : (queueReset pop s).nvl = s.nvl := rfl
@[simp] theorem queueReset_telemPrev (pop : Nat) (s : State) : (queueReset pop s).telemPrev = s.telemPrev := rfl
@[simp] theorem queueReset_work (pop : Nat) (s : State) : (queueReset pop s).work = s.work := rfl

@[simp] theorem setView_pending (v : DoorView) (s : State) : (setView v s).pending = s.pending := rfl
@[simp] theorem setView_now (v : DoorView) (s : State) : (setView v s).now = s.now := rfl
@[simp] theorem setView_freeIndex (v : DoorView) (s : State) : (setView v s).freeIndex = s.freeIndex := rfl
@[simp] theorem setView_phase (v : DoorView) (s : State) : (setView v s).phase = s.phase := rfl
@[simp] theorem setView_boot (v : DoorView) (s : State) : (setView v s).boot = s.boot := rfl
@[simp] theorem setView_regs (v : DoorView) (s : State) : (setView v s).regs = s.regs := rfl
@[simp] theorem setView_snaps (v : DoorView) (s : State) : (setView v s).snaps = s.snaps := rfl
@[simp] theorem setView_snapCtl (v : DoorView) (s : State) : (setView v s).snapCtl = s.snapCtl := rfl
@[simp] theorem setView_queues (v : DoorView) (s : State) : (setView v s).queues = s.queues := rfl
@[simp] theorem setView_txn (v : DoorView) (s : State) : (setView v s).txn = s.txn := rfl
@[simp] theorem setView_mem (v : DoorView) (s : State) : (setView v s).mem = s.mem := rfl
@[simp] theorem setView_host (v : DoorView) (s : State) : (setView v s).host = s.host := rfl
@[simp] theorem setView_power (v : DoorView) (s : State) : (setView v s).power = s.power := rfl
@[simp] theorem setView_bootUnit (v : DoorView) (s : State) : (setView v s).bootUnit = s.bootUnit := rfl
@[simp] theorem setView_rtc (v : DoorView) (s : State) : (setView v s).rtc = s.rtc := rfl
@[simp] theorem setView_clocks (v : DoorView) (s : State) : (setView v s).clocks = s.clocks := rfl
@[simp] theorem setView_fld (v : DoorView) (s : State) : (setView v s).fld = s.fld := rfl
@[simp] theorem setView_frx (v : DoorView) (s : State) : (setView v s).frx = s.frx := rfl
@[simp] theorem setView_nfc (v : DoorView) (s : State) : (setView v s).nfc = s.nfc := rfl
@[simp] theorem setView_card (v : DoorView) (s : State) : (setView v s).card = s.card := rfl
@[simp] theorem setView_bcast (v : DoorView) (s : State) : (setView v s).bcast = s.bcast := rfl
@[simp] theorem setView_twin (v : DoorView) (s : State) : (setView v s).twin = s.twin := rfl
@[simp] theorem setView_cascade (v : DoorView) (s : State) : (setView v s).cascade = s.cascade := rfl
@[simp] theorem setView_cipher (v : DoorView) (s : State) : (setView v s).cipher = s.cipher := rfl
@[simp] theorem setView_ident (v : DoorView) (s : State) : (setView v s).ident = s.ident := rfl
@[simp] theorem setView_decoder (v : DoorView) (s : State) : (setView v s).decoder = s.decoder := rfl
@[simp] theorem setView_radio (v : DoorView) (s : State) : (setView v s).radio = s.radio := rfl
@[simp] theorem setView_link (v : DoorView) (s : State) : (setView v s).link = s.link := rfl
@[simp] theorem setView_masons (v : DoorView) (s : State) : (setView v s).masons = s.masons := rfl
@[simp] theorem setView_port (v : DoorView) (s : State) : (setView v s).port = s.port := rfl
@[simp] theorem setView_timers (v : DoorView) (s : State) : (setView v s).timers = s.timers := rfl
@[simp] theorem setView_checks (v : DoorView) (s : State) : (setView v s).checks = s.checks := rfl
@[simp] theorem setView_nvl (v : DoorView) (s : State) : (setView v s).nvl = s.nvl := rfl
@[simp] theorem setView_telemPrev (v : DoorView) (s : State) : (setView v s).telemPrev = s.telemPrev := rfl
@[simp] theorem setView_work (v : DoorView) (s : State) : (setView v s).work = s.work := rfl

@[simp] theorem showOutcome_pending (id oc : Nat) (s : State) : (showOutcome id oc s).pending = s.pending := rfl
@[simp] theorem showOutcome_now (id oc : Nat) (s : State) : (showOutcome id oc s).now = s.now := rfl
@[simp] theorem showOutcome_freeIndex (id oc : Nat) (s : State) : (showOutcome id oc s).freeIndex = s.freeIndex := rfl
@[simp] theorem showOutcome_phase (id oc : Nat) (s : State) : (showOutcome id oc s).phase = s.phase := rfl
@[simp] theorem showOutcome_boot (id oc : Nat) (s : State) : (showOutcome id oc s).boot = s.boot := rfl
@[simp] theorem showOutcome_regs (id oc : Nat) (s : State) : (showOutcome id oc s).regs = s.regs := rfl
@[simp] theorem showOutcome_snaps (id oc : Nat) (s : State) : (showOutcome id oc s).snaps = s.snaps := rfl
@[simp] theorem showOutcome_snapCtl (id oc : Nat) (s : State) : (showOutcome id oc s).snapCtl = s.snapCtl := rfl
@[simp] theorem showOutcome_queues (id oc : Nat) (s : State) : (showOutcome id oc s).queues = s.queues := rfl
@[simp] theorem showOutcome_txn (id oc : Nat) (s : State) : (showOutcome id oc s).txn = s.txn := rfl
@[simp] theorem showOutcome_mem (id oc : Nat) (s : State) : (showOutcome id oc s).mem = s.mem := rfl
@[simp] theorem showOutcome_host (id oc : Nat) (s : State) : (showOutcome id oc s).host = s.host := rfl
@[simp] theorem showOutcome_power (id oc : Nat) (s : State) : (showOutcome id oc s).power = s.power := rfl
@[simp] theorem showOutcome_bootUnit (id oc : Nat) (s : State) : (showOutcome id oc s).bootUnit = s.bootUnit := rfl
@[simp] theorem showOutcome_rtc (id oc : Nat) (s : State) : (showOutcome id oc s).rtc = s.rtc := rfl
@[simp] theorem showOutcome_clocks (id oc : Nat) (s : State) : (showOutcome id oc s).clocks = s.clocks := rfl
@[simp] theorem showOutcome_fld (id oc : Nat) (s : State) : (showOutcome id oc s).fld = s.fld := rfl
@[simp] theorem showOutcome_frx (id oc : Nat) (s : State) : (showOutcome id oc s).frx = s.frx := rfl
@[simp] theorem showOutcome_nfc (id oc : Nat) (s : State) : (showOutcome id oc s).nfc = s.nfc := rfl
@[simp] theorem showOutcome_card (id oc : Nat) (s : State) : (showOutcome id oc s).card = s.card := rfl
@[simp] theorem showOutcome_bcast (id oc : Nat) (s : State) : (showOutcome id oc s).bcast = s.bcast := rfl
@[simp] theorem showOutcome_twin (id oc : Nat) (s : State) : (showOutcome id oc s).twin = s.twin := rfl
@[simp] theorem showOutcome_cascade (id oc : Nat) (s : State) : (showOutcome id oc s).cascade = s.cascade := rfl
@[simp] theorem showOutcome_cipher (id oc : Nat) (s : State) : (showOutcome id oc s).cipher = s.cipher := rfl
@[simp] theorem showOutcome_ident (id oc : Nat) (s : State) : (showOutcome id oc s).ident = s.ident := rfl
@[simp] theorem showOutcome_decoder (id oc : Nat) (s : State) : (showOutcome id oc s).decoder = s.decoder := rfl
@[simp] theorem showOutcome_radio (id oc : Nat) (s : State) : (showOutcome id oc s).radio = s.radio := rfl
@[simp] theorem showOutcome_link (id oc : Nat) (s : State) : (showOutcome id oc s).link = s.link := rfl
@[simp] theorem showOutcome_masons (id oc : Nat) (s : State) : (showOutcome id oc s).masons = s.masons := rfl
@[simp] theorem showOutcome_port (id oc : Nat) (s : State) : (showOutcome id oc s).port = s.port := rfl
@[simp] theorem showOutcome_timers (id oc : Nat) (s : State) : (showOutcome id oc s).timers = s.timers := rfl
@[simp] theorem showOutcome_checks (id oc : Nat) (s : State) : (showOutcome id oc s).checks = s.checks := rfl
@[simp] theorem showOutcome_nvl (id oc : Nat) (s : State) : (showOutcome id oc s).nvl = s.nvl := rfl
@[simp] theorem showOutcome_telemPrev (id oc : Nat) (s : State) : (showOutcome id oc s).telemPrev = s.telemPrev := rfl
@[simp] theorem showOutcome_work (id oc : Nat) (s : State) : (showOutcome id oc s).work = s.work := rfl

@[simp] theorem deliverResult_pending (r : ResultEntry) (s : State) : (deliverResult r s).pending = s.pending := rfl
@[simp] theorem deliverResult_now (r : ResultEntry) (s : State) : (deliverResult r s).now = s.now := rfl
@[simp] theorem deliverResult_freeIndex (r : ResultEntry) (s : State) : (deliverResult r s).freeIndex = s.freeIndex := rfl
@[simp] theorem deliverResult_phase (r : ResultEntry) (s : State) : (deliverResult r s).phase = s.phase := rfl
@[simp] theorem deliverResult_boot (r : ResultEntry) (s : State) : (deliverResult r s).boot = s.boot := rfl
@[simp] theorem deliverResult_regs (r : ResultEntry) (s : State) : (deliverResult r s).regs = s.regs := rfl
@[simp] theorem deliverResult_snaps (r : ResultEntry) (s : State) : (deliverResult r s).snaps = s.snaps := rfl
@[simp] theorem deliverResult_snapCtl (r : ResultEntry) (s : State) : (deliverResult r s).snapCtl = s.snapCtl := rfl
@[simp] theorem deliverResult_queues (r : ResultEntry) (s : State) : (deliverResult r s).queues = s.queues := rfl
@[simp] theorem deliverResult_txn (r : ResultEntry) (s : State) : (deliverResult r s).txn = s.txn := rfl
@[simp] theorem deliverResult_mem (r : ResultEntry) (s : State) : (deliverResult r s).mem = s.mem := rfl
@[simp] theorem deliverResult_host (r : ResultEntry) (s : State) : (deliverResult r s).host = s.host := rfl
@[simp] theorem deliverResult_power (r : ResultEntry) (s : State) : (deliverResult r s).power = s.power := rfl
@[simp] theorem deliverResult_bootUnit (r : ResultEntry) (s : State) : (deliverResult r s).bootUnit = s.bootUnit := rfl
@[simp] theorem deliverResult_rtc (r : ResultEntry) (s : State) : (deliverResult r s).rtc = s.rtc := rfl
@[simp] theorem deliverResult_clocks (r : ResultEntry) (s : State) : (deliverResult r s).clocks = s.clocks := rfl
@[simp] theorem deliverResult_fld (r : ResultEntry) (s : State) : (deliverResult r s).fld = s.fld := rfl
@[simp] theorem deliverResult_frx (r : ResultEntry) (s : State) : (deliverResult r s).frx = s.frx := rfl
@[simp] theorem deliverResult_nfc (r : ResultEntry) (s : State) : (deliverResult r s).nfc = s.nfc := rfl
@[simp] theorem deliverResult_card (r : ResultEntry) (s : State) : (deliverResult r s).card = s.card := rfl
@[simp] theorem deliverResult_bcast (r : ResultEntry) (s : State) : (deliverResult r s).bcast = s.bcast := rfl
@[simp] theorem deliverResult_twin (r : ResultEntry) (s : State) : (deliverResult r s).twin = s.twin := rfl
@[simp] theorem deliverResult_cascade (r : ResultEntry) (s : State) : (deliverResult r s).cascade = s.cascade := rfl
@[simp] theorem deliverResult_cipher (r : ResultEntry) (s : State) : (deliverResult r s).cipher = s.cipher := rfl
@[simp] theorem deliverResult_ident (r : ResultEntry) (s : State) : (deliverResult r s).ident = s.ident := rfl
@[simp] theorem deliverResult_decoder (r : ResultEntry) (s : State) : (deliverResult r s).decoder = s.decoder := rfl
@[simp] theorem deliverResult_radio (r : ResultEntry) (s : State) : (deliverResult r s).radio = s.radio := rfl
@[simp] theorem deliverResult_link (r : ResultEntry) (s : State) : (deliverResult r s).link = s.link := rfl
@[simp] theorem deliverResult_masons (r : ResultEntry) (s : State) : (deliverResult r s).masons = s.masons := rfl
@[simp] theorem deliverResult_port (r : ResultEntry) (s : State) : (deliverResult r s).port = s.port := rfl
@[simp] theorem deliverResult_timers (r : ResultEntry) (s : State) : (deliverResult r s).timers = s.timers := rfl
@[simp] theorem deliverResult_checks (r : ResultEntry) (s : State) : (deliverResult r s).checks = s.checks := rfl
@[simp] theorem deliverResult_nvl (r : ResultEntry) (s : State) : (deliverResult r s).nvl = s.nvl := rfl
@[simp] theorem deliverResult_telemPrev (r : ResultEntry) (s : State) : (deliverResult r s).telemPrev = s.telemPrev := rfl
@[simp] theorem deliverResult_work (r : ResultEntry) (s : State) : (deliverResult r s).work = s.work := rfl

@[simp] theorem useTicket_pending (key : Nat) (s : State) : (useTicket key s).pending = s.pending := rfl
@[simp] theorem useTicket_now (key : Nat) (s : State) : (useTicket key s).now = s.now := rfl
@[simp] theorem useTicket_freeIndex (key : Nat) (s : State) : (useTicket key s).freeIndex = s.freeIndex := rfl
@[simp] theorem useTicket_phase (key : Nat) (s : State) : (useTicket key s).phase = s.phase := rfl
@[simp] theorem useTicket_boot (key : Nat) (s : State) : (useTicket key s).boot = s.boot := rfl
@[simp] theorem useTicket_regs (key : Nat) (s : State) : (useTicket key s).regs = s.regs := rfl
@[simp] theorem useTicket_snaps (key : Nat) (s : State) : (useTicket key s).snaps = s.snaps := rfl
@[simp] theorem useTicket_snapCtl (key : Nat) (s : State) : (useTicket key s).snapCtl = s.snapCtl := rfl
@[simp] theorem useTicket_queues (key : Nat) (s : State) : (useTicket key s).queues = s.queues := rfl
@[simp] theorem useTicket_txn (key : Nat) (s : State) : (useTicket key s).txn = s.txn := rfl
@[simp] theorem useTicket_mem (key : Nat) (s : State) : (useTicket key s).mem = s.mem := rfl
@[simp] theorem useTicket_host (key : Nat) (s : State) : (useTicket key s).host = s.host := rfl
@[simp] theorem useTicket_power (key : Nat) (s : State) : (useTicket key s).power = s.power := rfl
@[simp] theorem useTicket_bootUnit (key : Nat) (s : State) : (useTicket key s).bootUnit = s.bootUnit := rfl
@[simp] theorem useTicket_rtc (key : Nat) (s : State) : (useTicket key s).rtc = s.rtc := rfl
@[simp] theorem useTicket_clocks (key : Nat) (s : State) : (useTicket key s).clocks = s.clocks := rfl
@[simp] theorem useTicket_fld (key : Nat) (s : State) : (useTicket key s).fld = s.fld := rfl
@[simp] theorem useTicket_frx (key : Nat) (s : State) : (useTicket key s).frx = s.frx := rfl
@[simp] theorem useTicket_nfc (key : Nat) (s : State) : (useTicket key s).nfc = s.nfc := rfl
@[simp] theorem useTicket_card (key : Nat) (s : State) : (useTicket key s).card = s.card := rfl
@[simp] theorem useTicket_bcast (key : Nat) (s : State) : (useTicket key s).bcast = s.bcast := rfl
@[simp] theorem useTicket_twin (key : Nat) (s : State) : (useTicket key s).twin = s.twin := rfl
@[simp] theorem useTicket_cascade (key : Nat) (s : State) : (useTicket key s).cascade = s.cascade := rfl
@[simp] theorem useTicket_cipher (key : Nat) (s : State) : (useTicket key s).cipher = s.cipher := rfl
@[simp] theorem useTicket_ident (key : Nat) (s : State) : (useTicket key s).ident = s.ident := rfl
@[simp] theorem useTicket_decoder (key : Nat) (s : State) : (useTicket key s).decoder = s.decoder := rfl
@[simp] theorem useTicket_radio (key : Nat) (s : State) : (useTicket key s).radio = s.radio := rfl
@[simp] theorem useTicket_link (key : Nat) (s : State) : (useTicket key s).link = s.link := rfl
@[simp] theorem useTicket_masons (key : Nat) (s : State) : (useTicket key s).masons = s.masons := rfl
@[simp] theorem useTicket_port (key : Nat) (s : State) : (useTicket key s).port = s.port := rfl
@[simp] theorem useTicket_timers (key : Nat) (s : State) : (useTicket key s).timers = s.timers := rfl
@[simp] theorem useTicket_checks (key : Nat) (s : State) : (useTicket key s).checks = s.checks := rfl
@[simp] theorem useTicket_nvl (key : Nat) (s : State) : (useTicket key s).nvl = s.nvl := rfl
@[simp] theorem useTicket_telemPrev (key : Nat) (s : State) : (useTicket key s).telemPrev = s.telemPrev := rfl
@[simp] theorem useTicket_work (key : Nat) (s : State) : (useTicket key s).work = s.work := rfl

@[simp] theorem remember_pending (r : DoorRec) (s : State) : (remember r s).pending = s.pending := rfl
@[simp] theorem remember_now (r : DoorRec) (s : State) : (remember r s).now = s.now := rfl
@[simp] theorem remember_freeIndex (r : DoorRec) (s : State) : (remember r s).freeIndex = s.freeIndex := rfl
@[simp] theorem remember_phase (r : DoorRec) (s : State) : (remember r s).phase = s.phase := rfl
@[simp] theorem remember_boot (r : DoorRec) (s : State) : (remember r s).boot = s.boot := rfl
@[simp] theorem remember_regs (r : DoorRec) (s : State) : (remember r s).regs = s.regs := rfl
@[simp] theorem remember_snaps (r : DoorRec) (s : State) : (remember r s).snaps = s.snaps := rfl
@[simp] theorem remember_snapCtl (r : DoorRec) (s : State) : (remember r s).snapCtl = s.snapCtl := rfl
@[simp] theorem remember_queues (r : DoorRec) (s : State) : (remember r s).queues = s.queues := rfl
@[simp] theorem remember_txn (r : DoorRec) (s : State) : (remember r s).txn = s.txn := rfl
@[simp] theorem remember_mem (r : DoorRec) (s : State) : (remember r s).mem = s.mem := rfl
@[simp] theorem remember_host (r : DoorRec) (s : State) : (remember r s).host = s.host := rfl
@[simp] theorem remember_power (r : DoorRec) (s : State) : (remember r s).power = s.power := rfl
@[simp] theorem remember_bootUnit (r : DoorRec) (s : State) : (remember r s).bootUnit = s.bootUnit := rfl
@[simp] theorem remember_rtc (r : DoorRec) (s : State) : (remember r s).rtc = s.rtc := rfl
@[simp] theorem remember_clocks (r : DoorRec) (s : State) : (remember r s).clocks = s.clocks := rfl
@[simp] theorem remember_fld (r : DoorRec) (s : State) : (remember r s).fld = s.fld := rfl
@[simp] theorem remember_frx (r : DoorRec) (s : State) : (remember r s).frx = s.frx := rfl
@[simp] theorem remember_nfc (r : DoorRec) (s : State) : (remember r s).nfc = s.nfc := rfl
@[simp] theorem remember_card (r : DoorRec) (s : State) : (remember r s).card = s.card := rfl
@[simp] theorem remember_bcast (r : DoorRec) (s : State) : (remember r s).bcast = s.bcast := rfl
@[simp] theorem remember_twin (r : DoorRec) (s : State) : (remember r s).twin = s.twin := rfl
@[simp] theorem remember_cascade (r : DoorRec) (s : State) : (remember r s).cascade = s.cascade := rfl
@[simp] theorem remember_cipher (r : DoorRec) (s : State) : (remember r s).cipher = s.cipher := rfl
@[simp] theorem remember_ident (r : DoorRec) (s : State) : (remember r s).ident = s.ident := rfl
@[simp] theorem remember_decoder (r : DoorRec) (s : State) : (remember r s).decoder = s.decoder := rfl
@[simp] theorem remember_radio (r : DoorRec) (s : State) : (remember r s).radio = s.radio := rfl
@[simp] theorem remember_link (r : DoorRec) (s : State) : (remember r s).link = s.link := rfl
@[simp] theorem remember_masons (r : DoorRec) (s : State) : (remember r s).masons = s.masons := rfl
@[simp] theorem remember_port (r : DoorRec) (s : State) : (remember r s).port = s.port := rfl
@[simp] theorem remember_timers (r : DoorRec) (s : State) : (remember r s).timers = s.timers := rfl
@[simp] theorem remember_checks (r : DoorRec) (s : State) : (remember r s).checks = s.checks := rfl
@[simp] theorem remember_nvl (r : DoorRec) (s : State) : (remember r s).nvl = s.nvl := rfl
@[simp] theorem remember_telemPrev (r : DoorRec) (s : State) : (remember r s).telemPrev = s.telemPrev := rfl
@[simp] theorem remember_work (r : DoorRec) (s : State) : (remember r s).work = s.work := rfl

@[simp] theorem clearSnaps_pending (p : Nat) (s : State) : (clearSnaps p s).pending = s.pending := rfl
@[simp] theorem clearSnaps_now (p : Nat) (s : State) : (clearSnaps p s).now = s.now := rfl
@[simp] theorem clearSnaps_freeIndex (p : Nat) (s : State) : (clearSnaps p s).freeIndex = s.freeIndex := rfl
@[simp] theorem clearSnaps_phase (p : Nat) (s : State) : (clearSnaps p s).phase = s.phase := rfl
@[simp] theorem clearSnaps_boot (p : Nat) (s : State) : (clearSnaps p s).boot = s.boot := rfl
@[simp] theorem clearSnaps_regs (p : Nat) (s : State) : (clearSnaps p s).regs = s.regs := rfl
@[simp] theorem clearSnaps_snapCtl (p : Nat) (s : State) : (clearSnaps p s).snapCtl = s.snapCtl := rfl
@[simp] theorem clearSnaps_doors (p : Nat) (s : State) : (clearSnaps p s).doors = s.doors := rfl
@[simp] theorem clearSnaps_queues (p : Nat) (s : State) : (clearSnaps p s).queues = s.queues := rfl
@[simp] theorem clearSnaps_txn (p : Nat) (s : State) : (clearSnaps p s).txn = s.txn := rfl
@[simp] theorem clearSnaps_mem (p : Nat) (s : State) : (clearSnaps p s).mem = s.mem := rfl
@[simp] theorem clearSnaps_host (p : Nat) (s : State) : (clearSnaps p s).host = s.host := rfl
@[simp] theorem clearSnaps_power (p : Nat) (s : State) : (clearSnaps p s).power = s.power := rfl
@[simp] theorem clearSnaps_bootUnit (p : Nat) (s : State) : (clearSnaps p s).bootUnit = s.bootUnit := rfl
@[simp] theorem clearSnaps_rtc (p : Nat) (s : State) : (clearSnaps p s).rtc = s.rtc := rfl
@[simp] theorem clearSnaps_clocks (p : Nat) (s : State) : (clearSnaps p s).clocks = s.clocks := rfl
@[simp] theorem clearSnaps_fld (p : Nat) (s : State) : (clearSnaps p s).fld = s.fld := rfl
@[simp] theorem clearSnaps_frx (p : Nat) (s : State) : (clearSnaps p s).frx = s.frx := rfl
@[simp] theorem clearSnaps_nfc (p : Nat) (s : State) : (clearSnaps p s).nfc = s.nfc := rfl
@[simp] theorem clearSnaps_card (p : Nat) (s : State) : (clearSnaps p s).card = s.card := rfl
@[simp] theorem clearSnaps_bcast (p : Nat) (s : State) : (clearSnaps p s).bcast = s.bcast := rfl
@[simp] theorem clearSnaps_twin (p : Nat) (s : State) : (clearSnaps p s).twin = s.twin := rfl
@[simp] theorem clearSnaps_cascade (p : Nat) (s : State) : (clearSnaps p s).cascade = s.cascade := rfl
@[simp] theorem clearSnaps_cipher (p : Nat) (s : State) : (clearSnaps p s).cipher = s.cipher := rfl
@[simp] theorem clearSnaps_ident (p : Nat) (s : State) : (clearSnaps p s).ident = s.ident := rfl
@[simp] theorem clearSnaps_decoder (p : Nat) (s : State) : (clearSnaps p s).decoder = s.decoder := rfl
@[simp] theorem clearSnaps_radio (p : Nat) (s : State) : (clearSnaps p s).radio = s.radio := rfl
@[simp] theorem clearSnaps_link (p : Nat) (s : State) : (clearSnaps p s).link = s.link := rfl
@[simp] theorem clearSnaps_masons (p : Nat) (s : State) : (clearSnaps p s).masons = s.masons := rfl
@[simp] theorem clearSnaps_port (p : Nat) (s : State) : (clearSnaps p s).port = s.port := rfl
@[simp] theorem clearSnaps_timers (p : Nat) (s : State) : (clearSnaps p s).timers = s.timers := rfl
@[simp] theorem clearSnaps_checks (p : Nat) (s : State) : (clearSnaps p s).checks = s.checks := rfl
@[simp] theorem clearSnaps_nvl (p : Nat) (s : State) : (clearSnaps p s).nvl = s.nvl := rfl
@[simp] theorem clearSnaps_telemPrev (p : Nat) (s : State) : (clearSnaps p s).telemPrev = s.telemPrev := rfl
@[simp] theorem clearSnaps_work (p : Nat) (s : State) : (clearSnaps p s).work = s.work := rfl

@[simp] theorem resetPageRegs_pending (p : Nat) (keep : Nat → Bool) (s : State) : (resetPageRegs p keep s).pending = s.pending := rfl
@[simp] theorem resetPageRegs_now (p : Nat) (keep : Nat → Bool) (s : State) : (resetPageRegs p keep s).now = s.now := rfl
@[simp] theorem resetPageRegs_freeIndex (p : Nat) (keep : Nat → Bool) (s : State) : (resetPageRegs p keep s).freeIndex = s.freeIndex := rfl
@[simp] theorem resetPageRegs_phase (p : Nat) (keep : Nat → Bool) (s : State) : (resetPageRegs p keep s).phase = s.phase := rfl
@[simp] theorem resetPageRegs_boot (p : Nat) (keep : Nat → Bool) (s : State) : (resetPageRegs p keep s).boot = s.boot := rfl
@[simp] theorem resetPageRegs_snaps (p : Nat) (keep : Nat → Bool) (s : State) : (resetPageRegs p keep s).snaps = s.snaps := rfl
@[simp] theorem resetPageRegs_snapCtl (p : Nat) (keep : Nat → Bool) (s : State) : (resetPageRegs p keep s).snapCtl = s.snapCtl := rfl
@[simp] theorem resetPageRegs_doors (p : Nat) (keep : Nat → Bool) (s : State) : (resetPageRegs p keep s).doors = s.doors := rfl
@[simp] theorem resetPageRegs_queues (p : Nat) (keep : Nat → Bool) (s : State) : (resetPageRegs p keep s).queues = s.queues := rfl
@[simp] theorem resetPageRegs_txn (p : Nat) (keep : Nat → Bool) (s : State) : (resetPageRegs p keep s).txn = s.txn := rfl
@[simp] theorem resetPageRegs_mem (p : Nat) (keep : Nat → Bool) (s : State) : (resetPageRegs p keep s).mem = s.mem := rfl
@[simp] theorem resetPageRegs_host (p : Nat) (keep : Nat → Bool) (s : State) : (resetPageRegs p keep s).host = s.host := rfl
@[simp] theorem resetPageRegs_power (p : Nat) (keep : Nat → Bool) (s : State) : (resetPageRegs p keep s).power = s.power := rfl
@[simp] theorem resetPageRegs_bootUnit (p : Nat) (keep : Nat → Bool) (s : State) : (resetPageRegs p keep s).bootUnit = s.bootUnit := rfl
@[simp] theorem resetPageRegs_rtc (p : Nat) (keep : Nat → Bool) (s : State) : (resetPageRegs p keep s).rtc = s.rtc := rfl
@[simp] theorem resetPageRegs_clocks (p : Nat) (keep : Nat → Bool) (s : State) : (resetPageRegs p keep s).clocks = s.clocks := rfl
@[simp] theorem resetPageRegs_fld (p : Nat) (keep : Nat → Bool) (s : State) : (resetPageRegs p keep s).fld = s.fld := rfl
@[simp] theorem resetPageRegs_frx (p : Nat) (keep : Nat → Bool) (s : State) : (resetPageRegs p keep s).frx = s.frx := rfl
@[simp] theorem resetPageRegs_nfc (p : Nat) (keep : Nat → Bool) (s : State) : (resetPageRegs p keep s).nfc = s.nfc := rfl
@[simp] theorem resetPageRegs_card (p : Nat) (keep : Nat → Bool) (s : State) : (resetPageRegs p keep s).card = s.card := rfl
@[simp] theorem resetPageRegs_bcast (p : Nat) (keep : Nat → Bool) (s : State) : (resetPageRegs p keep s).bcast = s.bcast := rfl
@[simp] theorem resetPageRegs_twin (p : Nat) (keep : Nat → Bool) (s : State) : (resetPageRegs p keep s).twin = s.twin := rfl
@[simp] theorem resetPageRegs_cascade (p : Nat) (keep : Nat → Bool) (s : State) : (resetPageRegs p keep s).cascade = s.cascade := rfl
@[simp] theorem resetPageRegs_cipher (p : Nat) (keep : Nat → Bool) (s : State) : (resetPageRegs p keep s).cipher = s.cipher := rfl
@[simp] theorem resetPageRegs_ident (p : Nat) (keep : Nat → Bool) (s : State) : (resetPageRegs p keep s).ident = s.ident := rfl
@[simp] theorem resetPageRegs_decoder (p : Nat) (keep : Nat → Bool) (s : State) : (resetPageRegs p keep s).decoder = s.decoder := rfl
@[simp] theorem resetPageRegs_radio (p : Nat) (keep : Nat → Bool) (s : State) : (resetPageRegs p keep s).radio = s.radio := rfl
@[simp] theorem resetPageRegs_link (p : Nat) (keep : Nat → Bool) (s : State) : (resetPageRegs p keep s).link = s.link := rfl
@[simp] theorem resetPageRegs_masons (p : Nat) (keep : Nat → Bool) (s : State) : (resetPageRegs p keep s).masons = s.masons := rfl
@[simp] theorem resetPageRegs_port (p : Nat) (keep : Nat → Bool) (s : State) : (resetPageRegs p keep s).port = s.port := rfl
@[simp] theorem resetPageRegs_timers (p : Nat) (keep : Nat → Bool) (s : State) : (resetPageRegs p keep s).timers = s.timers := rfl
@[simp] theorem resetPageRegs_checks (p : Nat) (keep : Nat → Bool) (s : State) : (resetPageRegs p keep s).checks = s.checks := rfl
@[simp] theorem resetPageRegs_nvl (p : Nat) (keep : Nat → Bool) (s : State) : (resetPageRegs p keep s).nvl = s.nvl := rfl
@[simp] theorem resetPageRegs_telemPrev (p : Nat) (keep : Nat → Bool) (s : State) : (resetPageRegs p keep s).telemPrev = s.telemPrev := rfl
@[simp] theorem resetPageRegs_work (p : Nat) (keep : Nat → Bool) (s : State) : (resetPageRegs p keep s).work = s.work := rfl

@[simp] theorem useFree_pending (s : State) : (useFree s).pending = s.pending := rfl
@[simp] theorem useFree_now (s : State) : (useFree s).now = s.now := rfl
@[simp] theorem useFree_freeIndex (s : State) : (useFree s).freeIndex = s.freeIndex + 1 := rfl
@[simp] theorem useFree_phase (s : State) : (useFree s).phase = s.phase := rfl
@[simp] theorem useFree_boot (s : State) : (useFree s).boot = s.boot := rfl
@[simp] theorem useFree_regs (s : State) : (useFree s).regs = s.regs := rfl
@[simp] theorem useFree_snaps (s : State) : (useFree s).snaps = s.snaps := rfl
@[simp] theorem useFree_snapCtl (s : State) : (useFree s).snapCtl = s.snapCtl := rfl
@[simp] theorem useFree_doors (s : State) : (useFree s).doors = s.doors := rfl
@[simp] theorem useFree_queues (s : State) : (useFree s).queues = s.queues := rfl
@[simp] theorem useFree_txn (s : State) : (useFree s).txn = s.txn := rfl
@[simp] theorem useFree_mem (s : State) : (useFree s).mem = s.mem := rfl
@[simp] theorem useFree_host (s : State) : (useFree s).host = s.host := rfl
@[simp] theorem useFree_power (s : State) : (useFree s).power = s.power := rfl
@[simp] theorem useFree_bootUnit (s : State) : (useFree s).bootUnit = s.bootUnit := rfl
@[simp] theorem useFree_rtc (s : State) : (useFree s).rtc = s.rtc := rfl
@[simp] theorem useFree_clocks (s : State) : (useFree s).clocks = s.clocks := rfl
@[simp] theorem useFree_fld (s : State) : (useFree s).fld = s.fld := rfl
@[simp] theorem useFree_frx (s : State) : (useFree s).frx = s.frx := rfl
@[simp] theorem useFree_nfc (s : State) : (useFree s).nfc = s.nfc := rfl
@[simp] theorem useFree_card (s : State) : (useFree s).card = s.card := rfl
@[simp] theorem useFree_bcast (s : State) : (useFree s).bcast = s.bcast := rfl
@[simp] theorem useFree_twin (s : State) : (useFree s).twin = s.twin := rfl
@[simp] theorem useFree_cascade (s : State) : (useFree s).cascade = s.cascade := rfl
@[simp] theorem useFree_cipher (s : State) : (useFree s).cipher = s.cipher := rfl
@[simp] theorem useFree_ident (s : State) : (useFree s).ident = s.ident := rfl
@[simp] theorem useFree_decoder (s : State) : (useFree s).decoder = s.decoder := rfl
@[simp] theorem useFree_radio (s : State) : (useFree s).radio = s.radio := rfl
@[simp] theorem useFree_link (s : State) : (useFree s).link = s.link := rfl
@[simp] theorem useFree_masons (s : State) : (useFree s).masons = s.masons := rfl
@[simp] theorem useFree_port (s : State) : (useFree s).port = s.port := rfl
@[simp] theorem useFree_timers (s : State) : (useFree s).timers = s.timers := rfl
@[simp] theorem useFree_checks (s : State) : (useFree s).checks = s.checks := rfl
@[simp] theorem useFree_nvl (s : State) : (useFree s).nvl = s.nvl := rfl
@[simp] theorem useFree_telemPrev (s : State) : (useFree s).telemPrev = s.telemPrev := rfl
@[simp] theorem useFree_work (s : State) : (useFree s).work = s.work := rfl

@[simp] theorem useFreeN_pending (n : Nat) (s : State) : (useFreeN n s).pending = s.pending := rfl
@[simp] theorem useFreeN_now (n : Nat) (s : State) : (useFreeN n s).now = s.now := rfl
@[simp] theorem useFreeN_freeIndex (n : Nat) (s : State) : (useFreeN n s).freeIndex = s.freeIndex + n := rfl
@[simp] theorem useFreeN_phase (n : Nat) (s : State) : (useFreeN n s).phase = s.phase := rfl
@[simp] theorem useFreeN_boot (n : Nat) (s : State) : (useFreeN n s).boot = s.boot := rfl
@[simp] theorem useFreeN_regs (n : Nat) (s : State) : (useFreeN n s).regs = s.regs := rfl
@[simp] theorem useFreeN_snaps (n : Nat) (s : State) : (useFreeN n s).snaps = s.snaps := rfl
@[simp] theorem useFreeN_snapCtl (n : Nat) (s : State) : (useFreeN n s).snapCtl = s.snapCtl := rfl
@[simp] theorem useFreeN_doors (n : Nat) (s : State) : (useFreeN n s).doors = s.doors := rfl
@[simp] theorem useFreeN_queues (n : Nat) (s : State) : (useFreeN n s).queues = s.queues := rfl
@[simp] theorem useFreeN_txn (n : Nat) (s : State) : (useFreeN n s).txn = s.txn := rfl
@[simp] theorem useFreeN_mem (n : Nat) (s : State) : (useFreeN n s).mem = s.mem := rfl
@[simp] theorem useFreeN_host (n : Nat) (s : State) : (useFreeN n s).host = s.host := rfl
@[simp] theorem useFreeN_power (n : Nat) (s : State) : (useFreeN n s).power = s.power := rfl
@[simp] theorem useFreeN_bootUnit (n : Nat) (s : State) : (useFreeN n s).bootUnit = s.bootUnit := rfl
@[simp] theorem useFreeN_rtc (n : Nat) (s : State) : (useFreeN n s).rtc = s.rtc := rfl
@[simp] theorem useFreeN_clocks (n : Nat) (s : State) : (useFreeN n s).clocks = s.clocks := rfl
@[simp] theorem useFreeN_fld (n : Nat) (s : State) : (useFreeN n s).fld = s.fld := rfl
@[simp] theorem useFreeN_frx (n : Nat) (s : State) : (useFreeN n s).frx = s.frx := rfl
@[simp] theorem useFreeN_nfc (n : Nat) (s : State) : (useFreeN n s).nfc = s.nfc := rfl
@[simp] theorem useFreeN_card (n : Nat) (s : State) : (useFreeN n s).card = s.card := rfl
@[simp] theorem useFreeN_bcast (n : Nat) (s : State) : (useFreeN n s).bcast = s.bcast := rfl
@[simp] theorem useFreeN_twin (n : Nat) (s : State) : (useFreeN n s).twin = s.twin := rfl
@[simp] theorem useFreeN_cascade (n : Nat) (s : State) : (useFreeN n s).cascade = s.cascade := rfl
@[simp] theorem useFreeN_cipher (n : Nat) (s : State) : (useFreeN n s).cipher = s.cipher := rfl
@[simp] theorem useFreeN_ident (n : Nat) (s : State) : (useFreeN n s).ident = s.ident := rfl
@[simp] theorem useFreeN_decoder (n : Nat) (s : State) : (useFreeN n s).decoder = s.decoder := rfl
@[simp] theorem useFreeN_radio (n : Nat) (s : State) : (useFreeN n s).radio = s.radio := rfl
@[simp] theorem useFreeN_link (n : Nat) (s : State) : (useFreeN n s).link = s.link := rfl
@[simp] theorem useFreeN_masons (n : Nat) (s : State) : (useFreeN n s).masons = s.masons := rfl
@[simp] theorem useFreeN_port (n : Nat) (s : State) : (useFreeN n s).port = s.port := rfl
@[simp] theorem useFreeN_timers (n : Nat) (s : State) : (useFreeN n s).timers = s.timers := rfl
@[simp] theorem useFreeN_checks (n : Nat) (s : State) : (useFreeN n s).checks = s.checks := rfl
@[simp] theorem useFreeN_nvl (n : Nat) (s : State) : (useFreeN n s).nvl = s.nvl := rfl
@[simp] theorem useFreeN_telemPrev (n : Nat) (s : State) : (useFreeN n s).telemPrev = s.telemPrev := rfl
@[simp] theorem useFreeN_work (n : Nat) (s : State) : (useFreeN n s).work = s.work := rfl

@[simp] theorem rtcSet_pending (n : Nat) (slew : Int) (s : State) : (rtcSet n slew s).pending = s.pending := rfl
@[simp] theorem rtcSet_now (n : Nat) (slew : Int) (s : State) : (rtcSet n slew s).now = s.now := rfl
@[simp] theorem rtcSet_freeIndex (n : Nat) (slew : Int) (s : State) : (rtcSet n slew s).freeIndex = s.freeIndex := rfl
@[simp] theorem rtcSet_phase (n : Nat) (slew : Int) (s : State) : (rtcSet n slew s).phase = s.phase := rfl
@[simp] theorem rtcSet_boot (n : Nat) (slew : Int) (s : State) : (rtcSet n slew s).boot = s.boot := rfl
@[simp] theorem rtcSet_regs (n : Nat) (slew : Int) (s : State) : (rtcSet n slew s).regs = s.regs := rfl
@[simp] theorem rtcSet_snaps (n : Nat) (slew : Int) (s : State) : (rtcSet n slew s).snaps = s.snaps := rfl
@[simp] theorem rtcSet_snapCtl (n : Nat) (slew : Int) (s : State) : (rtcSet n slew s).snapCtl = s.snapCtl := rfl
@[simp] theorem rtcSet_doors (n : Nat) (slew : Int) (s : State) : (rtcSet n slew s).doors = s.doors := rfl
@[simp] theorem rtcSet_queues (n : Nat) (slew : Int) (s : State) : (rtcSet n slew s).queues = s.queues := rfl
@[simp] theorem rtcSet_txn (n : Nat) (slew : Int) (s : State) : (rtcSet n slew s).txn = s.txn := rfl
@[simp] theorem rtcSet_mem (n : Nat) (slew : Int) (s : State) : (rtcSet n slew s).mem = s.mem := rfl
@[simp] theorem rtcSet_host (n : Nat) (slew : Int) (s : State) : (rtcSet n slew s).host = s.host := rfl
@[simp] theorem rtcSet_power (n : Nat) (slew : Int) (s : State) : (rtcSet n slew s).power = s.power := rfl
@[simp] theorem rtcSet_bootUnit (n : Nat) (slew : Int) (s : State) : (rtcSet n slew s).bootUnit = s.bootUnit := rfl
@[simp] theorem rtcSet_clocks (n : Nat) (slew : Int) (s : State) : (rtcSet n slew s).clocks = s.clocks := rfl
@[simp] theorem rtcSet_fld (n : Nat) (slew : Int) (s : State) : (rtcSet n slew s).fld = s.fld := rfl
@[simp] theorem rtcSet_frx (n : Nat) (slew : Int) (s : State) : (rtcSet n slew s).frx = s.frx := rfl
@[simp] theorem rtcSet_nfc (n : Nat) (slew : Int) (s : State) : (rtcSet n slew s).nfc = s.nfc := rfl
@[simp] theorem rtcSet_card (n : Nat) (slew : Int) (s : State) : (rtcSet n slew s).card = s.card := rfl
@[simp] theorem rtcSet_bcast (n : Nat) (slew : Int) (s : State) : (rtcSet n slew s).bcast = s.bcast := rfl
@[simp] theorem rtcSet_twin (n : Nat) (slew : Int) (s : State) : (rtcSet n slew s).twin = s.twin := rfl
@[simp] theorem rtcSet_cascade (n : Nat) (slew : Int) (s : State) : (rtcSet n slew s).cascade = s.cascade := rfl
@[simp] theorem rtcSet_cipher (n : Nat) (slew : Int) (s : State) : (rtcSet n slew s).cipher = s.cipher := rfl
@[simp] theorem rtcSet_ident (n : Nat) (slew : Int) (s : State) : (rtcSet n slew s).ident = s.ident := rfl
@[simp] theorem rtcSet_decoder (n : Nat) (slew : Int) (s : State) : (rtcSet n slew s).decoder = s.decoder := rfl
@[simp] theorem rtcSet_radio (n : Nat) (slew : Int) (s : State) : (rtcSet n slew s).radio = s.radio := rfl
@[simp] theorem rtcSet_link (n : Nat) (slew : Int) (s : State) : (rtcSet n slew s).link = s.link := rfl
@[simp] theorem rtcSet_masons (n : Nat) (slew : Int) (s : State) : (rtcSet n slew s).masons = s.masons := rfl
@[simp] theorem rtcSet_port (n : Nat) (slew : Int) (s : State) : (rtcSet n slew s).port = s.port := rfl
@[simp] theorem rtcSet_timers (n : Nat) (slew : Int) (s : State) : (rtcSet n slew s).timers = s.timers := rfl
@[simp] theorem rtcSet_checks (n : Nat) (slew : Int) (s : State) : (rtcSet n slew s).checks = s.checks := rfl
@[simp] theorem rtcSet_nvl (n : Nat) (slew : Int) (s : State) : (rtcSet n slew s).nvl = s.nvl := rfl
@[simp] theorem rtcSet_telemPrev (n : Nat) (slew : Int) (s : State) : (rtcSet n slew s).telemPrev = s.telemPrev := rfl
@[simp] theorem rtcSet_work (n : Nat) (slew : Int) (s : State) : (rtcSet n slew s).work = s.work := rfl

@[simp] theorem setTxn_pending (t : Nat) (x : Txn) (s : State) : (setTxn t x s).pending = s.pending := rfl
@[simp] theorem setTxn_now (t : Nat) (x : Txn) (s : State) : (setTxn t x s).now = s.now := rfl
@[simp] theorem setTxn_freeIndex (t : Nat) (x : Txn) (s : State) : (setTxn t x s).freeIndex = s.freeIndex := rfl
@[simp] theorem setTxn_phase (t : Nat) (x : Txn) (s : State) : (setTxn t x s).phase = s.phase := rfl
@[simp] theorem setTxn_boot (t : Nat) (x : Txn) (s : State) : (setTxn t x s).boot = s.boot := rfl
@[simp] theorem setTxn_regs (t : Nat) (x : Txn) (s : State) : (setTxn t x s).regs = s.regs := rfl
@[simp] theorem setTxn_snaps (t : Nat) (x : Txn) (s : State) : (setTxn t x s).snaps = s.snaps := rfl
@[simp] theorem setTxn_snapCtl (t : Nat) (x : Txn) (s : State) : (setTxn t x s).snapCtl = s.snapCtl := rfl
@[simp] theorem setTxn_doors (t : Nat) (x : Txn) (s : State) : (setTxn t x s).doors = s.doors := rfl
@[simp] theorem setTxn_queues (t : Nat) (x : Txn) (s : State) : (setTxn t x s).queues = s.queues := rfl
@[simp] theorem setTxn_mem (t : Nat) (x : Txn) (s : State) : (setTxn t x s).mem = s.mem := rfl
@[simp] theorem setTxn_host (t : Nat) (x : Txn) (s : State) : (setTxn t x s).host = s.host := rfl
@[simp] theorem setTxn_power (t : Nat) (x : Txn) (s : State) : (setTxn t x s).power = s.power := rfl
@[simp] theorem setTxn_bootUnit (t : Nat) (x : Txn) (s : State) : (setTxn t x s).bootUnit = s.bootUnit := rfl
@[simp] theorem setTxn_rtc (t : Nat) (x : Txn) (s : State) : (setTxn t x s).rtc = s.rtc := rfl
@[simp] theorem setTxn_clocks (t : Nat) (x : Txn) (s : State) : (setTxn t x s).clocks = s.clocks := rfl
@[simp] theorem setTxn_fld (t : Nat) (x : Txn) (s : State) : (setTxn t x s).fld = s.fld := rfl
@[simp] theorem setTxn_frx (t : Nat) (x : Txn) (s : State) : (setTxn t x s).frx = s.frx := rfl
@[simp] theorem setTxn_nfc (t : Nat) (x : Txn) (s : State) : (setTxn t x s).nfc = s.nfc := rfl
@[simp] theorem setTxn_card (t : Nat) (x : Txn) (s : State) : (setTxn t x s).card = s.card := rfl
@[simp] theorem setTxn_bcast (t : Nat) (x : Txn) (s : State) : (setTxn t x s).bcast = s.bcast := rfl
@[simp] theorem setTxn_twin (t : Nat) (x : Txn) (s : State) : (setTxn t x s).twin = s.twin := rfl
@[simp] theorem setTxn_cascade (t : Nat) (x : Txn) (s : State) : (setTxn t x s).cascade = s.cascade := rfl
@[simp] theorem setTxn_cipher (t : Nat) (x : Txn) (s : State) : (setTxn t x s).cipher = s.cipher := rfl
@[simp] theorem setTxn_ident (t : Nat) (x : Txn) (s : State) : (setTxn t x s).ident = s.ident := rfl
@[simp] theorem setTxn_decoder (t : Nat) (x : Txn) (s : State) : (setTxn t x s).decoder = s.decoder := rfl
@[simp] theorem setTxn_radio (t : Nat) (x : Txn) (s : State) : (setTxn t x s).radio = s.radio := rfl
@[simp] theorem setTxn_link (t : Nat) (x : Txn) (s : State) : (setTxn t x s).link = s.link := rfl
@[simp] theorem setTxn_masons (t : Nat) (x : Txn) (s : State) : (setTxn t x s).masons = s.masons := rfl
@[simp] theorem setTxn_port (t : Nat) (x : Txn) (s : State) : (setTxn t x s).port = s.port := rfl
@[simp] theorem setTxn_timers (t : Nat) (x : Txn) (s : State) : (setTxn t x s).timers = s.timers := rfl
@[simp] theorem setTxn_checks (t : Nat) (x : Txn) (s : State) : (setTxn t x s).checks = s.checks := rfl
@[simp] theorem setTxn_nvl (t : Nat) (x : Txn) (s : State) : (setTxn t x s).nvl = s.nvl := rfl
@[simp] theorem setTxn_telemPrev (t : Nat) (x : Txn) (s : State) : (setTxn t x s).telemPrev = s.telemPrev := rfl
@[simp] theorem setTxn_work (t : Nat) (x : Txn) (s : State) : (setTxn t x s).work = s.work := rfl

@[simp] theorem closeRecord_pending (t state code : Nat) (s : State) : (closeRecord t state code s).pending = s.pending := rfl
@[simp] theorem closeRecord_now (t state code : Nat) (s : State) : (closeRecord t state code s).now = s.now := rfl
@[simp] theorem closeRecord_freeIndex (t state code : Nat) (s : State) : (closeRecord t state code s).freeIndex = s.freeIndex := rfl
@[simp] theorem closeRecord_phase (t state code : Nat) (s : State) : (closeRecord t state code s).phase = s.phase := rfl
@[simp] theorem closeRecord_boot (t state code : Nat) (s : State) : (closeRecord t state code s).boot = s.boot := rfl
@[simp] theorem closeRecord_regs (t state code : Nat) (s : State) : (closeRecord t state code s).regs = s.regs := rfl
@[simp] theorem closeRecord_snaps (t state code : Nat) (s : State) : (closeRecord t state code s).snaps = s.snaps := rfl
@[simp] theorem closeRecord_snapCtl (t state code : Nat) (s : State) : (closeRecord t state code s).snapCtl = s.snapCtl := rfl
@[simp] theorem closeRecord_doors (t state code : Nat) (s : State) : (closeRecord t state code s).doors = s.doors := rfl
@[simp] theorem closeRecord_queues (t state code : Nat) (s : State) : (closeRecord t state code s).queues = s.queues := rfl
@[simp] theorem closeRecord_mem (t state code : Nat) (s : State) : (closeRecord t state code s).mem = s.mem := rfl
@[simp] theorem closeRecord_host (t state code : Nat) (s : State) : (closeRecord t state code s).host = s.host := rfl
@[simp] theorem closeRecord_power (t state code : Nat) (s : State) : (closeRecord t state code s).power = s.power := rfl
@[simp] theorem closeRecord_bootUnit (t state code : Nat) (s : State) : (closeRecord t state code s).bootUnit = s.bootUnit := rfl
@[simp] theorem closeRecord_rtc (t state code : Nat) (s : State) : (closeRecord t state code s).rtc = s.rtc := rfl
@[simp] theorem closeRecord_clocks (t state code : Nat) (s : State) : (closeRecord t state code s).clocks = s.clocks := rfl
@[simp] theorem closeRecord_fld (t state code : Nat) (s : State) : (closeRecord t state code s).fld = s.fld := rfl
@[simp] theorem closeRecord_frx (t state code : Nat) (s : State) : (closeRecord t state code s).frx = s.frx := rfl
@[simp] theorem closeRecord_nfc (t state code : Nat) (s : State) : (closeRecord t state code s).nfc = s.nfc := rfl
@[simp] theorem closeRecord_card (t state code : Nat) (s : State) : (closeRecord t state code s).card = s.card := rfl
@[simp] theorem closeRecord_bcast (t state code : Nat) (s : State) : (closeRecord t state code s).bcast = s.bcast := rfl
@[simp] theorem closeRecord_twin (t state code : Nat) (s : State) : (closeRecord t state code s).twin = s.twin := rfl
@[simp] theorem closeRecord_cascade (t state code : Nat) (s : State) : (closeRecord t state code s).cascade = s.cascade := rfl
@[simp] theorem closeRecord_cipher (t state code : Nat) (s : State) : (closeRecord t state code s).cipher = s.cipher := rfl
@[simp] theorem closeRecord_ident (t state code : Nat) (s : State) : (closeRecord t state code s).ident = s.ident := rfl
@[simp] theorem closeRecord_decoder (t state code : Nat) (s : State) : (closeRecord t state code s).decoder = s.decoder := rfl
@[simp] theorem closeRecord_radio (t state code : Nat) (s : State) : (closeRecord t state code s).radio = s.radio := rfl
@[simp] theorem closeRecord_link (t state code : Nat) (s : State) : (closeRecord t state code s).link = s.link := rfl
@[simp] theorem closeRecord_masons (t state code : Nat) (s : State) : (closeRecord t state code s).masons = s.masons := rfl
@[simp] theorem closeRecord_port (t state code : Nat) (s : State) : (closeRecord t state code s).port = s.port := rfl
@[simp] theorem closeRecord_timers (t state code : Nat) (s : State) : (closeRecord t state code s).timers = s.timers := rfl
@[simp] theorem closeRecord_checks (t state code : Nat) (s : State) : (closeRecord t state code s).checks = s.checks := rfl
@[simp] theorem closeRecord_nvl (t state code : Nat) (s : State) : (closeRecord t state code s).nvl = s.nvl := rfl
@[simp] theorem closeRecord_telemPrev (t state code : Nat) (s : State) : (closeRecord t state code s).telemPrev = s.telemPrev := rfl
@[simp] theorem closeRecord_work (t state code : Nat) (s : State) : (closeRecord t state code s).work = s.work := rfl

@[simp] theorem strobeRecord_pending (t : Nat) (s : State) : (strobeRecord t s).pending = s.pending := rfl
@[simp] theorem strobeRecord_now (t : Nat) (s : State) : (strobeRecord t s).now = s.now := rfl
@[simp] theorem strobeRecord_freeIndex (t : Nat) (s : State) : (strobeRecord t s).freeIndex = s.freeIndex := rfl
@[simp] theorem strobeRecord_phase (t : Nat) (s : State) : (strobeRecord t s).phase = s.phase := rfl
@[simp] theorem strobeRecord_boot (t : Nat) (s : State) : (strobeRecord t s).boot = s.boot := rfl
@[simp] theorem strobeRecord_regs (t : Nat) (s : State) : (strobeRecord t s).regs = s.regs := rfl
@[simp] theorem strobeRecord_snaps (t : Nat) (s : State) : (strobeRecord t s).snaps = s.snaps := rfl
@[simp] theorem strobeRecord_snapCtl (t : Nat) (s : State) : (strobeRecord t s).snapCtl = s.snapCtl := rfl
@[simp] theorem strobeRecord_doors (t : Nat) (s : State) : (strobeRecord t s).doors = s.doors := rfl
@[simp] theorem strobeRecord_queues (t : Nat) (s : State) : (strobeRecord t s).queues = s.queues := rfl
@[simp] theorem strobeRecord_mem (t : Nat) (s : State) : (strobeRecord t s).mem = s.mem := rfl
@[simp] theorem strobeRecord_host (t : Nat) (s : State) : (strobeRecord t s).host = s.host := rfl
@[simp] theorem strobeRecord_power (t : Nat) (s : State) : (strobeRecord t s).power = s.power := rfl
@[simp] theorem strobeRecord_bootUnit (t : Nat) (s : State) : (strobeRecord t s).bootUnit = s.bootUnit := rfl
@[simp] theorem strobeRecord_rtc (t : Nat) (s : State) : (strobeRecord t s).rtc = s.rtc := rfl
@[simp] theorem strobeRecord_clocks (t : Nat) (s : State) : (strobeRecord t s).clocks = s.clocks := rfl
@[simp] theorem strobeRecord_fld (t : Nat) (s : State) : (strobeRecord t s).fld = s.fld := rfl
@[simp] theorem strobeRecord_frx (t : Nat) (s : State) : (strobeRecord t s).frx = s.frx := rfl
@[simp] theorem strobeRecord_nfc (t : Nat) (s : State) : (strobeRecord t s).nfc = s.nfc := rfl
@[simp] theorem strobeRecord_card (t : Nat) (s : State) : (strobeRecord t s).card = s.card := rfl
@[simp] theorem strobeRecord_bcast (t : Nat) (s : State) : (strobeRecord t s).bcast = s.bcast := rfl
@[simp] theorem strobeRecord_twin (t : Nat) (s : State) : (strobeRecord t s).twin = s.twin := rfl
@[simp] theorem strobeRecord_cascade (t : Nat) (s : State) : (strobeRecord t s).cascade = s.cascade := rfl
@[simp] theorem strobeRecord_cipher (t : Nat) (s : State) : (strobeRecord t s).cipher = s.cipher := rfl
@[simp] theorem strobeRecord_ident (t : Nat) (s : State) : (strobeRecord t s).ident = s.ident := rfl
@[simp] theorem strobeRecord_decoder (t : Nat) (s : State) : (strobeRecord t s).decoder = s.decoder := rfl
@[simp] theorem strobeRecord_radio (t : Nat) (s : State) : (strobeRecord t s).radio = s.radio := rfl
@[simp] theorem strobeRecord_link (t : Nat) (s : State) : (strobeRecord t s).link = s.link := rfl
@[simp] theorem strobeRecord_masons (t : Nat) (s : State) : (strobeRecord t s).masons = s.masons := rfl
@[simp] theorem strobeRecord_port (t : Nat) (s : State) : (strobeRecord t s).port = s.port := rfl
@[simp] theorem strobeRecord_timers (t : Nat) (s : State) : (strobeRecord t s).timers = s.timers := rfl
@[simp] theorem strobeRecord_checks (t : Nat) (s : State) : (strobeRecord t s).checks = s.checks := rfl
@[simp] theorem strobeRecord_nvl (t : Nat) (s : State) : (strobeRecord t s).nvl = s.nvl := rfl
@[simp] theorem strobeRecord_telemPrev (t : Nat) (s : State) : (strobeRecord t s).telemPrev = s.telemPrev := rfl
@[simp] theorem strobeRecord_work (t : Nat) (s : State) : (strobeRecord t s).work = s.work := rfl

@[simp] theorem dropTxns_pending (s : State) : (dropTxns s).pending = s.pending := rfl
@[simp] theorem dropTxns_now (s : State) : (dropTxns s).now = s.now := rfl
@[simp] theorem dropTxns_freeIndex (s : State) : (dropTxns s).freeIndex = s.freeIndex := rfl
@[simp] theorem dropTxns_phase (s : State) : (dropTxns s).phase = s.phase := rfl
@[simp] theorem dropTxns_boot (s : State) : (dropTxns s).boot = s.boot := rfl
@[simp] theorem dropTxns_regs (s : State) : (dropTxns s).regs = s.regs := rfl
@[simp] theorem dropTxns_snaps (s : State) : (dropTxns s).snaps = s.snaps := rfl
@[simp] theorem dropTxns_snapCtl (s : State) : (dropTxns s).snapCtl = s.snapCtl := rfl
@[simp] theorem dropTxns_doors (s : State) : (dropTxns s).doors = s.doors := rfl
@[simp] theorem dropTxns_queues (s : State) : (dropTxns s).queues = s.queues := rfl
@[simp] theorem dropTxns_mem (s : State) : (dropTxns s).mem = s.mem := rfl
@[simp] theorem dropTxns_host (s : State) : (dropTxns s).host = s.host := rfl
@[simp] theorem dropTxns_power (s : State) : (dropTxns s).power = s.power := rfl
@[simp] theorem dropTxns_bootUnit (s : State) : (dropTxns s).bootUnit = s.bootUnit := rfl
@[simp] theorem dropTxns_rtc (s : State) : (dropTxns s).rtc = s.rtc := rfl
@[simp] theorem dropTxns_clocks (s : State) : (dropTxns s).clocks = s.clocks := rfl
@[simp] theorem dropTxns_fld (s : State) : (dropTxns s).fld = s.fld := rfl
@[simp] theorem dropTxns_frx (s : State) : (dropTxns s).frx = s.frx := rfl
@[simp] theorem dropTxns_nfc (s : State) : (dropTxns s).nfc = s.nfc := rfl
@[simp] theorem dropTxns_card (s : State) : (dropTxns s).card = s.card := rfl
@[simp] theorem dropTxns_bcast (s : State) : (dropTxns s).bcast = s.bcast := rfl
@[simp] theorem dropTxns_twin (s : State) : (dropTxns s).twin = s.twin := rfl
@[simp] theorem dropTxns_cascade (s : State) : (dropTxns s).cascade = s.cascade := rfl
@[simp] theorem dropTxns_cipher (s : State) : (dropTxns s).cipher = s.cipher := rfl
@[simp] theorem dropTxns_ident (s : State) : (dropTxns s).ident = s.ident := rfl
@[simp] theorem dropTxns_decoder (s : State) : (dropTxns s).decoder = s.decoder := rfl
@[simp] theorem dropTxns_radio (s : State) : (dropTxns s).radio = s.radio := rfl
@[simp] theorem dropTxns_link (s : State) : (dropTxns s).link = s.link := rfl
@[simp] theorem dropTxns_masons (s : State) : (dropTxns s).masons = s.masons := rfl
@[simp] theorem dropTxns_port (s : State) : (dropTxns s).port = s.port := rfl
@[simp] theorem dropTxns_timers (s : State) : (dropTxns s).timers = s.timers := rfl
@[simp] theorem dropTxns_checks (s : State) : (dropTxns s).checks = s.checks := rfl
@[simp] theorem dropTxns_nvl (s : State) : (dropTxns s).nvl = s.nvl := rfl
@[simp] theorem dropTxns_telemPrev (s : State) : (dropTxns s).telemPrev = s.telemPrev := rfl
@[simp] theorem dropTxns_work (s : State) : (dropTxns s).work = s.work := rfl

@[simp] theorem setFld_pending (f : FieldUnit) (s : State) : (setFld f s).pending = s.pending := rfl
@[simp] theorem setFld_now (f : FieldUnit) (s : State) : (setFld f s).now = s.now := rfl
@[simp] theorem setFld_freeIndex (f : FieldUnit) (s : State) : (setFld f s).freeIndex = s.freeIndex := rfl
@[simp] theorem setFld_phase (f : FieldUnit) (s : State) : (setFld f s).phase = s.phase := rfl
@[simp] theorem setFld_boot (f : FieldUnit) (s : State) : (setFld f s).boot = s.boot := rfl
@[simp] theorem setFld_regs (f : FieldUnit) (s : State) : (setFld f s).regs = s.regs := rfl
@[simp] theorem setFld_snaps (f : FieldUnit) (s : State) : (setFld f s).snaps = s.snaps := rfl
@[simp] theorem setFld_snapCtl (f : FieldUnit) (s : State) : (setFld f s).snapCtl = s.snapCtl := rfl
@[simp] theorem setFld_doors (f : FieldUnit) (s : State) : (setFld f s).doors = s.doors := rfl
@[simp] theorem setFld_queues (f : FieldUnit) (s : State) : (setFld f s).queues = s.queues := rfl
@[simp] theorem setFld_txn (f : FieldUnit) (s : State) : (setFld f s).txn = s.txn := rfl
@[simp] theorem setFld_mem (f : FieldUnit) (s : State) : (setFld f s).mem = s.mem := rfl
@[simp] theorem setFld_host (f : FieldUnit) (s : State) : (setFld f s).host = s.host := rfl
@[simp] theorem setFld_power (f : FieldUnit) (s : State) : (setFld f s).power = s.power := rfl
@[simp] theorem setFld_bootUnit (f : FieldUnit) (s : State) : (setFld f s).bootUnit = s.bootUnit := rfl
@[simp] theorem setFld_rtc (f : FieldUnit) (s : State) : (setFld f s).rtc = s.rtc := rfl
@[simp] theorem setFld_clocks (f : FieldUnit) (s : State) : (setFld f s).clocks = s.clocks := rfl
@[simp] theorem setFld_fld (f : FieldUnit) (s : State) : (setFld f s).fld = f := rfl
@[simp] theorem setFld_frx (f : FieldUnit) (s : State) : (setFld f s).frx = s.frx := rfl
@[simp] theorem setFld_nfc (f : FieldUnit) (s : State) : (setFld f s).nfc = s.nfc := rfl
@[simp] theorem setFld_card (f : FieldUnit) (s : State) : (setFld f s).card = s.card := rfl
@[simp] theorem setFld_bcast (f : FieldUnit) (s : State) : (setFld f s).bcast = s.bcast := rfl
@[simp] theorem setFld_twin (f : FieldUnit) (s : State) : (setFld f s).twin = s.twin := rfl
@[simp] theorem setFld_cascade (f : FieldUnit) (s : State) : (setFld f s).cascade = s.cascade := rfl
@[simp] theorem setFld_cipher (f : FieldUnit) (s : State) : (setFld f s).cipher = s.cipher := rfl
@[simp] theorem setFld_ident (f : FieldUnit) (s : State) : (setFld f s).ident = s.ident := rfl
@[simp] theorem setFld_decoder (f : FieldUnit) (s : State) : (setFld f s).decoder = s.decoder := rfl
@[simp] theorem setFld_radio (f : FieldUnit) (s : State) : (setFld f s).radio = s.radio := rfl
@[simp] theorem setFld_link (f : FieldUnit) (s : State) : (setFld f s).link = s.link := rfl
@[simp] theorem setFld_masons (f : FieldUnit) (s : State) : (setFld f s).masons = s.masons := rfl
@[simp] theorem setFld_port (f : FieldUnit) (s : State) : (setFld f s).port = s.port := rfl
@[simp] theorem setFld_timers (f : FieldUnit) (s : State) : (setFld f s).timers = s.timers := rfl
@[simp] theorem setFld_checks (f : FieldUnit) (s : State) : (setFld f s).checks = s.checks := rfl
@[simp] theorem setFld_nvl (f : FieldUnit) (s : State) : (setFld f s).nvl = s.nvl := rfl
@[simp] theorem setFld_telemPrev (f : FieldUnit) (s : State) : (setFld f s).telemPrev = s.telemPrev := rfl
@[simp] theorem setFld_work (f : FieldUnit) (s : State) : (setFld f s).work = s.work := rfl

@[simp] theorem setFrx_pending (f : ReceiveUnit) (s : State) : (setFrx f s).pending = s.pending := rfl
@[simp] theorem setFrx_now (f : ReceiveUnit) (s : State) : (setFrx f s).now = s.now := rfl
@[simp] theorem setFrx_freeIndex (f : ReceiveUnit) (s : State) : (setFrx f s).freeIndex = s.freeIndex := rfl
@[simp] theorem setFrx_phase (f : ReceiveUnit) (s : State) : (setFrx f s).phase = s.phase := rfl
@[simp] theorem setFrx_boot (f : ReceiveUnit) (s : State) : (setFrx f s).boot = s.boot := rfl
@[simp] theorem setFrx_regs (f : ReceiveUnit) (s : State) : (setFrx f s).regs = s.regs := rfl
@[simp] theorem setFrx_snaps (f : ReceiveUnit) (s : State) : (setFrx f s).snaps = s.snaps := rfl
@[simp] theorem setFrx_snapCtl (f : ReceiveUnit) (s : State) : (setFrx f s).snapCtl = s.snapCtl := rfl
@[simp] theorem setFrx_doors (f : ReceiveUnit) (s : State) : (setFrx f s).doors = s.doors := rfl
@[simp] theorem setFrx_queues (f : ReceiveUnit) (s : State) : (setFrx f s).queues = s.queues := rfl
@[simp] theorem setFrx_txn (f : ReceiveUnit) (s : State) : (setFrx f s).txn = s.txn := rfl
@[simp] theorem setFrx_mem (f : ReceiveUnit) (s : State) : (setFrx f s).mem = s.mem := rfl
@[simp] theorem setFrx_host (f : ReceiveUnit) (s : State) : (setFrx f s).host = s.host := rfl
@[simp] theorem setFrx_power (f : ReceiveUnit) (s : State) : (setFrx f s).power = s.power := rfl
@[simp] theorem setFrx_bootUnit (f : ReceiveUnit) (s : State) : (setFrx f s).bootUnit = s.bootUnit := rfl
@[simp] theorem setFrx_rtc (f : ReceiveUnit) (s : State) : (setFrx f s).rtc = s.rtc := rfl
@[simp] theorem setFrx_clocks (f : ReceiveUnit) (s : State) : (setFrx f s).clocks = s.clocks := rfl
@[simp] theorem setFrx_fld (f : ReceiveUnit) (s : State) : (setFrx f s).fld = s.fld := rfl
@[simp] theorem setFrx_frx (f : ReceiveUnit) (s : State) : (setFrx f s).frx = f := rfl
@[simp] theorem setFrx_nfc (f : ReceiveUnit) (s : State) : (setFrx f s).nfc = s.nfc := rfl
@[simp] theorem setFrx_card (f : ReceiveUnit) (s : State) : (setFrx f s).card = s.card := rfl
@[simp] theorem setFrx_bcast (f : ReceiveUnit) (s : State) : (setFrx f s).bcast = s.bcast := rfl
@[simp] theorem setFrx_twin (f : ReceiveUnit) (s : State) : (setFrx f s).twin = s.twin := rfl
@[simp] theorem setFrx_cascade (f : ReceiveUnit) (s : State) : (setFrx f s).cascade = s.cascade := rfl
@[simp] theorem setFrx_cipher (f : ReceiveUnit) (s : State) : (setFrx f s).cipher = s.cipher := rfl
@[simp] theorem setFrx_ident (f : ReceiveUnit) (s : State) : (setFrx f s).ident = s.ident := rfl
@[simp] theorem setFrx_decoder (f : ReceiveUnit) (s : State) : (setFrx f s).decoder = s.decoder := rfl
@[simp] theorem setFrx_radio (f : ReceiveUnit) (s : State) : (setFrx f s).radio = s.radio := rfl
@[simp] theorem setFrx_link (f : ReceiveUnit) (s : State) : (setFrx f s).link = s.link := rfl
@[simp] theorem setFrx_masons (f : ReceiveUnit) (s : State) : (setFrx f s).masons = s.masons := rfl
@[simp] theorem setFrx_port (f : ReceiveUnit) (s : State) : (setFrx f s).port = s.port := rfl
@[simp] theorem setFrx_timers (f : ReceiveUnit) (s : State) : (setFrx f s).timers = s.timers := rfl
@[simp] theorem setFrx_checks (f : ReceiveUnit) (s : State) : (setFrx f s).checks = s.checks := rfl
@[simp] theorem setFrx_nvl (f : ReceiveUnit) (s : State) : (setFrx f s).nvl = s.nvl := rfl
@[simp] theorem setFrx_telemPrev (f : ReceiveUnit) (s : State) : (setFrx f s).telemPrev = s.telemPrev := rfl
@[simp] theorem setFrx_work (f : ReceiveUnit) (s : State) : (setFrx f s).work = s.work := rfl

@[simp] theorem setNfc_pending (n : NfcUnit) (s : State) : (setNfc n s).pending = s.pending := rfl
@[simp] theorem setNfc_now (n : NfcUnit) (s : State) : (setNfc n s).now = s.now := rfl
@[simp] theorem setNfc_freeIndex (n : NfcUnit) (s : State) : (setNfc n s).freeIndex = s.freeIndex := rfl
@[simp] theorem setNfc_phase (n : NfcUnit) (s : State) : (setNfc n s).phase = s.phase := rfl
@[simp] theorem setNfc_boot (n : NfcUnit) (s : State) : (setNfc n s).boot = s.boot := rfl
@[simp] theorem setNfc_regs (n : NfcUnit) (s : State) : (setNfc n s).regs = s.regs := rfl
@[simp] theorem setNfc_snaps (n : NfcUnit) (s : State) : (setNfc n s).snaps = s.snaps := rfl
@[simp] theorem setNfc_snapCtl (n : NfcUnit) (s : State) : (setNfc n s).snapCtl = s.snapCtl := rfl
@[simp] theorem setNfc_doors (n : NfcUnit) (s : State) : (setNfc n s).doors = s.doors := rfl
@[simp] theorem setNfc_queues (n : NfcUnit) (s : State) : (setNfc n s).queues = s.queues := rfl
@[simp] theorem setNfc_txn (n : NfcUnit) (s : State) : (setNfc n s).txn = s.txn := rfl
@[simp] theorem setNfc_mem (n : NfcUnit) (s : State) : (setNfc n s).mem = s.mem := rfl
@[simp] theorem setNfc_host (n : NfcUnit) (s : State) : (setNfc n s).host = s.host := rfl
@[simp] theorem setNfc_power (n : NfcUnit) (s : State) : (setNfc n s).power = s.power := rfl
@[simp] theorem setNfc_bootUnit (n : NfcUnit) (s : State) : (setNfc n s).bootUnit = s.bootUnit := rfl
@[simp] theorem setNfc_rtc (n : NfcUnit) (s : State) : (setNfc n s).rtc = s.rtc := rfl
@[simp] theorem setNfc_clocks (n : NfcUnit) (s : State) : (setNfc n s).clocks = s.clocks := rfl
@[simp] theorem setNfc_fld (n : NfcUnit) (s : State) : (setNfc n s).fld = s.fld := rfl
@[simp] theorem setNfc_frx (n : NfcUnit) (s : State) : (setNfc n s).frx = s.frx := rfl
@[simp] theorem setNfc_nfc (n : NfcUnit) (s : State) : (setNfc n s).nfc = n := rfl
@[simp] theorem setNfc_card (n : NfcUnit) (s : State) : (setNfc n s).card = s.card := rfl
@[simp] theorem setNfc_bcast (n : NfcUnit) (s : State) : (setNfc n s).bcast = s.bcast := rfl
@[simp] theorem setNfc_twin (n : NfcUnit) (s : State) : (setNfc n s).twin = s.twin := rfl
@[simp] theorem setNfc_cascade (n : NfcUnit) (s : State) : (setNfc n s).cascade = s.cascade := rfl
@[simp] theorem setNfc_cipher (n : NfcUnit) (s : State) : (setNfc n s).cipher = s.cipher := rfl
@[simp] theorem setNfc_ident (n : NfcUnit) (s : State) : (setNfc n s).ident = s.ident := rfl
@[simp] theorem setNfc_decoder (n : NfcUnit) (s : State) : (setNfc n s).decoder = s.decoder := rfl
@[simp] theorem setNfc_radio (n : NfcUnit) (s : State) : (setNfc n s).radio = s.radio := rfl
@[simp] theorem setNfc_link (n : NfcUnit) (s : State) : (setNfc n s).link = s.link := rfl
@[simp] theorem setNfc_masons (n : NfcUnit) (s : State) : (setNfc n s).masons = s.masons := rfl
@[simp] theorem setNfc_port (n : NfcUnit) (s : State) : (setNfc n s).port = s.port := rfl
@[simp] theorem setNfc_timers (n : NfcUnit) (s : State) : (setNfc n s).timers = s.timers := rfl
@[simp] theorem setNfc_checks (n : NfcUnit) (s : State) : (setNfc n s).checks = s.checks := rfl
@[simp] theorem setNfc_nvl (n : NfcUnit) (s : State) : (setNfc n s).nvl = s.nvl := rfl
@[simp] theorem setNfc_telemPrev (n : NfcUnit) (s : State) : (setNfc n s).telemPrev = s.telemPrev := rfl
@[simp] theorem setNfc_work (n : NfcUnit) (s : State) : (setNfc n s).work = s.work := rfl

@[simp] theorem setCard_pending (c : CardUnit) (s : State) : (setCard c s).pending = s.pending := rfl
@[simp] theorem setCard_now (c : CardUnit) (s : State) : (setCard c s).now = s.now := rfl
@[simp] theorem setCard_freeIndex (c : CardUnit) (s : State) : (setCard c s).freeIndex = s.freeIndex := rfl
@[simp] theorem setCard_phase (c : CardUnit) (s : State) : (setCard c s).phase = s.phase := rfl
@[simp] theorem setCard_boot (c : CardUnit) (s : State) : (setCard c s).boot = s.boot := rfl
@[simp] theorem setCard_regs (c : CardUnit) (s : State) : (setCard c s).regs = s.regs := rfl
@[simp] theorem setCard_snaps (c : CardUnit) (s : State) : (setCard c s).snaps = s.snaps := rfl
@[simp] theorem setCard_snapCtl (c : CardUnit) (s : State) : (setCard c s).snapCtl = s.snapCtl := rfl
@[simp] theorem setCard_doors (c : CardUnit) (s : State) : (setCard c s).doors = s.doors := rfl
@[simp] theorem setCard_queues (c : CardUnit) (s : State) : (setCard c s).queues = s.queues := rfl
@[simp] theorem setCard_txn (c : CardUnit) (s : State) : (setCard c s).txn = s.txn := rfl
@[simp] theorem setCard_mem (c : CardUnit) (s : State) : (setCard c s).mem = s.mem := rfl
@[simp] theorem setCard_host (c : CardUnit) (s : State) : (setCard c s).host = s.host := rfl
@[simp] theorem setCard_power (c : CardUnit) (s : State) : (setCard c s).power = s.power := rfl
@[simp] theorem setCard_bootUnit (c : CardUnit) (s : State) : (setCard c s).bootUnit = s.bootUnit := rfl
@[simp] theorem setCard_rtc (c : CardUnit) (s : State) : (setCard c s).rtc = s.rtc := rfl
@[simp] theorem setCard_clocks (c : CardUnit) (s : State) : (setCard c s).clocks = s.clocks := rfl
@[simp] theorem setCard_fld (c : CardUnit) (s : State) : (setCard c s).fld = s.fld := rfl
@[simp] theorem setCard_frx (c : CardUnit) (s : State) : (setCard c s).frx = s.frx := rfl
@[simp] theorem setCard_nfc (c : CardUnit) (s : State) : (setCard c s).nfc = s.nfc := rfl
@[simp] theorem setCard_card (c : CardUnit) (s : State) : (setCard c s).card = c := rfl
@[simp] theorem setCard_bcast (c : CardUnit) (s : State) : (setCard c s).bcast = s.bcast := rfl
@[simp] theorem setCard_twin (c : CardUnit) (s : State) : (setCard c s).twin = s.twin := rfl
@[simp] theorem setCard_cascade (c : CardUnit) (s : State) : (setCard c s).cascade = s.cascade := rfl
@[simp] theorem setCard_cipher (c : CardUnit) (s : State) : (setCard c s).cipher = s.cipher := rfl
@[simp] theorem setCard_ident (c : CardUnit) (s : State) : (setCard c s).ident = s.ident := rfl
@[simp] theorem setCard_decoder (c : CardUnit) (s : State) : (setCard c s).decoder = s.decoder := rfl
@[simp] theorem setCard_radio (c : CardUnit) (s : State) : (setCard c s).radio = s.radio := rfl
@[simp] theorem setCard_link (c : CardUnit) (s : State) : (setCard c s).link = s.link := rfl
@[simp] theorem setCard_masons (c : CardUnit) (s : State) : (setCard c s).masons = s.masons := rfl
@[simp] theorem setCard_port (c : CardUnit) (s : State) : (setCard c s).port = s.port := rfl
@[simp] theorem setCard_timers (c : CardUnit) (s : State) : (setCard c s).timers = s.timers := rfl
@[simp] theorem setCard_checks (c : CardUnit) (s : State) : (setCard c s).checks = s.checks := rfl
@[simp] theorem setCard_nvl (c : CardUnit) (s : State) : (setCard c s).nvl = s.nvl := rfl
@[simp] theorem setCard_telemPrev (c : CardUnit) (s : State) : (setCard c s).telemPrev = s.telemPrev := rfl
@[simp] theorem setCard_work (c : CardUnit) (s : State) : (setCard c s).work = s.work := rfl

@[simp] theorem setBcast_pending (b : BcastUnit) (s : State) : (setBcast b s).pending = s.pending := rfl
@[simp] theorem setBcast_now (b : BcastUnit) (s : State) : (setBcast b s).now = s.now := rfl
@[simp] theorem setBcast_freeIndex (b : BcastUnit) (s : State) : (setBcast b s).freeIndex = s.freeIndex := rfl
@[simp] theorem setBcast_phase (b : BcastUnit) (s : State) : (setBcast b s).phase = s.phase := rfl
@[simp] theorem setBcast_boot (b : BcastUnit) (s : State) : (setBcast b s).boot = s.boot := rfl
@[simp] theorem setBcast_regs (b : BcastUnit) (s : State) : (setBcast b s).regs = s.regs := rfl
@[simp] theorem setBcast_snaps (b : BcastUnit) (s : State) : (setBcast b s).snaps = s.snaps := rfl
@[simp] theorem setBcast_snapCtl (b : BcastUnit) (s : State) : (setBcast b s).snapCtl = s.snapCtl := rfl
@[simp] theorem setBcast_doors (b : BcastUnit) (s : State) : (setBcast b s).doors = s.doors := rfl
@[simp] theorem setBcast_queues (b : BcastUnit) (s : State) : (setBcast b s).queues = s.queues := rfl
@[simp] theorem setBcast_txn (b : BcastUnit) (s : State) : (setBcast b s).txn = s.txn := rfl
@[simp] theorem setBcast_mem (b : BcastUnit) (s : State) : (setBcast b s).mem = s.mem := rfl
@[simp] theorem setBcast_host (b : BcastUnit) (s : State) : (setBcast b s).host = s.host := rfl
@[simp] theorem setBcast_power (b : BcastUnit) (s : State) : (setBcast b s).power = s.power := rfl
@[simp] theorem setBcast_bootUnit (b : BcastUnit) (s : State) : (setBcast b s).bootUnit = s.bootUnit := rfl
@[simp] theorem setBcast_rtc (b : BcastUnit) (s : State) : (setBcast b s).rtc = s.rtc := rfl
@[simp] theorem setBcast_clocks (b : BcastUnit) (s : State) : (setBcast b s).clocks = s.clocks := rfl
@[simp] theorem setBcast_fld (b : BcastUnit) (s : State) : (setBcast b s).fld = s.fld := rfl
@[simp] theorem setBcast_frx (b : BcastUnit) (s : State) : (setBcast b s).frx = s.frx := rfl
@[simp] theorem setBcast_nfc (b : BcastUnit) (s : State) : (setBcast b s).nfc = s.nfc := rfl
@[simp] theorem setBcast_card (b : BcastUnit) (s : State) : (setBcast b s).card = s.card := rfl
@[simp] theorem setBcast_bcast (b : BcastUnit) (s : State) : (setBcast b s).bcast = b := rfl
@[simp] theorem setBcast_twin (b : BcastUnit) (s : State) : (setBcast b s).twin = s.twin := rfl
@[simp] theorem setBcast_cascade (b : BcastUnit) (s : State) : (setBcast b s).cascade = s.cascade := rfl
@[simp] theorem setBcast_cipher (b : BcastUnit) (s : State) : (setBcast b s).cipher = s.cipher := rfl
@[simp] theorem setBcast_ident (b : BcastUnit) (s : State) : (setBcast b s).ident = s.ident := rfl
@[simp] theorem setBcast_decoder (b : BcastUnit) (s : State) : (setBcast b s).decoder = s.decoder := rfl
@[simp] theorem setBcast_radio (b : BcastUnit) (s : State) : (setBcast b s).radio = s.radio := rfl
@[simp] theorem setBcast_link (b : BcastUnit) (s : State) : (setBcast b s).link = s.link := rfl
@[simp] theorem setBcast_masons (b : BcastUnit) (s : State) : (setBcast b s).masons = s.masons := rfl
@[simp] theorem setBcast_port (b : BcastUnit) (s : State) : (setBcast b s).port = s.port := rfl
@[simp] theorem setBcast_timers (b : BcastUnit) (s : State) : (setBcast b s).timers = s.timers := rfl
@[simp] theorem setBcast_checks (b : BcastUnit) (s : State) : (setBcast b s).checks = s.checks := rfl
@[simp] theorem setBcast_nvl (b : BcastUnit) (s : State) : (setBcast b s).nvl = s.nvl := rfl
@[simp] theorem setBcast_telemPrev (b : BcastUnit) (s : State) : (setBcast b s).telemPrev = s.telemPrev := rfl
@[simp] theorem setBcast_work (b : BcastUnit) (s : State) : (setBcast b s).work = s.work := rfl

@[simp] theorem setPath_pending (p : Nat) (x : BcastPath) (s : State) : (setPath p x s).pending = s.pending := rfl
@[simp] theorem setPath_now (p : Nat) (x : BcastPath) (s : State) : (setPath p x s).now = s.now := rfl
@[simp] theorem setPath_freeIndex (p : Nat) (x : BcastPath) (s : State) : (setPath p x s).freeIndex = s.freeIndex := rfl
@[simp] theorem setPath_phase (p : Nat) (x : BcastPath) (s : State) : (setPath p x s).phase = s.phase := rfl
@[simp] theorem setPath_boot (p : Nat) (x : BcastPath) (s : State) : (setPath p x s).boot = s.boot := rfl
@[simp] theorem setPath_regs (p : Nat) (x : BcastPath) (s : State) : (setPath p x s).regs = s.regs := rfl
@[simp] theorem setPath_snaps (p : Nat) (x : BcastPath) (s : State) : (setPath p x s).snaps = s.snaps := rfl
@[simp] theorem setPath_snapCtl (p : Nat) (x : BcastPath) (s : State) : (setPath p x s).snapCtl = s.snapCtl := rfl
@[simp] theorem setPath_doors (p : Nat) (x : BcastPath) (s : State) : (setPath p x s).doors = s.doors := rfl
@[simp] theorem setPath_queues (p : Nat) (x : BcastPath) (s : State) : (setPath p x s).queues = s.queues := rfl
@[simp] theorem setPath_txn (p : Nat) (x : BcastPath) (s : State) : (setPath p x s).txn = s.txn := rfl
@[simp] theorem setPath_mem (p : Nat) (x : BcastPath) (s : State) : (setPath p x s).mem = s.mem := rfl
@[simp] theorem setPath_host (p : Nat) (x : BcastPath) (s : State) : (setPath p x s).host = s.host := rfl
@[simp] theorem setPath_power (p : Nat) (x : BcastPath) (s : State) : (setPath p x s).power = s.power := rfl
@[simp] theorem setPath_bootUnit (p : Nat) (x : BcastPath) (s : State) : (setPath p x s).bootUnit = s.bootUnit := rfl
@[simp] theorem setPath_rtc (p : Nat) (x : BcastPath) (s : State) : (setPath p x s).rtc = s.rtc := rfl
@[simp] theorem setPath_clocks (p : Nat) (x : BcastPath) (s : State) : (setPath p x s).clocks = s.clocks := rfl
@[simp] theorem setPath_fld (p : Nat) (x : BcastPath) (s : State) : (setPath p x s).fld = s.fld := rfl
@[simp] theorem setPath_frx (p : Nat) (x : BcastPath) (s : State) : (setPath p x s).frx = s.frx := rfl
@[simp] theorem setPath_nfc (p : Nat) (x : BcastPath) (s : State) : (setPath p x s).nfc = s.nfc := rfl
@[simp] theorem setPath_card (p : Nat) (x : BcastPath) (s : State) : (setPath p x s).card = s.card := rfl
@[simp] theorem setPath_twin (p : Nat) (x : BcastPath) (s : State) : (setPath p x s).twin = s.twin := rfl
@[simp] theorem setPath_cascade (p : Nat) (x : BcastPath) (s : State) : (setPath p x s).cascade = s.cascade := rfl
@[simp] theorem setPath_cipher (p : Nat) (x : BcastPath) (s : State) : (setPath p x s).cipher = s.cipher := rfl
@[simp] theorem setPath_ident (p : Nat) (x : BcastPath) (s : State) : (setPath p x s).ident = s.ident := rfl
@[simp] theorem setPath_decoder (p : Nat) (x : BcastPath) (s : State) : (setPath p x s).decoder = s.decoder := rfl
@[simp] theorem setPath_radio (p : Nat) (x : BcastPath) (s : State) : (setPath p x s).radio = s.radio := rfl
@[simp] theorem setPath_link (p : Nat) (x : BcastPath) (s : State) : (setPath p x s).link = s.link := rfl
@[simp] theorem setPath_masons (p : Nat) (x : BcastPath) (s : State) : (setPath p x s).masons = s.masons := rfl
@[simp] theorem setPath_port (p : Nat) (x : BcastPath) (s : State) : (setPath p x s).port = s.port := rfl
@[simp] theorem setPath_timers (p : Nat) (x : BcastPath) (s : State) : (setPath p x s).timers = s.timers := rfl
@[simp] theorem setPath_checks (p : Nat) (x : BcastPath) (s : State) : (setPath p x s).checks = s.checks := rfl
@[simp] theorem setPath_nvl (p : Nat) (x : BcastPath) (s : State) : (setPath p x s).nvl = s.nvl := rfl
@[simp] theorem setPath_telemPrev (p : Nat) (x : BcastPath) (s : State) : (setPath p x s).telemPrev = s.telemPrev := rfl
@[simp] theorem setPath_work (p : Nat) (x : BcastPath) (s : State) : (setPath p x s).work = s.work := rfl

@[simp] theorem setTwin_pending (t : TwinUnit) (s : State) : (setTwin t s).pending = s.pending := rfl
@[simp] theorem setTwin_now (t : TwinUnit) (s : State) : (setTwin t s).now = s.now := rfl
@[simp] theorem setTwin_freeIndex (t : TwinUnit) (s : State) : (setTwin t s).freeIndex = s.freeIndex := rfl
@[simp] theorem setTwin_phase (t : TwinUnit) (s : State) : (setTwin t s).phase = s.phase := rfl
@[simp] theorem setTwin_boot (t : TwinUnit) (s : State) : (setTwin t s).boot = s.boot := rfl
@[simp] theorem setTwin_regs (t : TwinUnit) (s : State) : (setTwin t s).regs = s.regs := rfl
@[simp] theorem setTwin_snaps (t : TwinUnit) (s : State) : (setTwin t s).snaps = s.snaps := rfl
@[simp] theorem setTwin_snapCtl (t : TwinUnit) (s : State) : (setTwin t s).snapCtl = s.snapCtl := rfl
@[simp] theorem setTwin_doors (t : TwinUnit) (s : State) : (setTwin t s).doors = s.doors := rfl
@[simp] theorem setTwin_queues (t : TwinUnit) (s : State) : (setTwin t s).queues = s.queues := rfl
@[simp] theorem setTwin_txn (t : TwinUnit) (s : State) : (setTwin t s).txn = s.txn := rfl
@[simp] theorem setTwin_mem (t : TwinUnit) (s : State) : (setTwin t s).mem = s.mem := rfl
@[simp] theorem setTwin_host (t : TwinUnit) (s : State) : (setTwin t s).host = s.host := rfl
@[simp] theorem setTwin_power (t : TwinUnit) (s : State) : (setTwin t s).power = s.power := rfl
@[simp] theorem setTwin_bootUnit (t : TwinUnit) (s : State) : (setTwin t s).bootUnit = s.bootUnit := rfl
@[simp] theorem setTwin_rtc (t : TwinUnit) (s : State) : (setTwin t s).rtc = s.rtc := rfl
@[simp] theorem setTwin_clocks (t : TwinUnit) (s : State) : (setTwin t s).clocks = s.clocks := rfl
@[simp] theorem setTwin_fld (t : TwinUnit) (s : State) : (setTwin t s).fld = s.fld := rfl
@[simp] theorem setTwin_frx (t : TwinUnit) (s : State) : (setTwin t s).frx = s.frx := rfl
@[simp] theorem setTwin_nfc (t : TwinUnit) (s : State) : (setTwin t s).nfc = s.nfc := rfl
@[simp] theorem setTwin_card (t : TwinUnit) (s : State) : (setTwin t s).card = s.card := rfl
@[simp] theorem setTwin_bcast (t : TwinUnit) (s : State) : (setTwin t s).bcast = s.bcast := rfl
@[simp] theorem setTwin_twin (t : TwinUnit) (s : State) : (setTwin t s).twin = t := rfl
@[simp] theorem setTwin_cascade (t : TwinUnit) (s : State) : (setTwin t s).cascade = s.cascade := rfl
@[simp] theorem setTwin_cipher (t : TwinUnit) (s : State) : (setTwin t s).cipher = s.cipher := rfl
@[simp] theorem setTwin_ident (t : TwinUnit) (s : State) : (setTwin t s).ident = s.ident := rfl
@[simp] theorem setTwin_decoder (t : TwinUnit) (s : State) : (setTwin t s).decoder = s.decoder := rfl
@[simp] theorem setTwin_radio (t : TwinUnit) (s : State) : (setTwin t s).radio = s.radio := rfl
@[simp] theorem setTwin_link (t : TwinUnit) (s : State) : (setTwin t s).link = s.link := rfl
@[simp] theorem setTwin_masons (t : TwinUnit) (s : State) : (setTwin t s).masons = s.masons := rfl
@[simp] theorem setTwin_port (t : TwinUnit) (s : State) : (setTwin t s).port = s.port := rfl
@[simp] theorem setTwin_timers (t : TwinUnit) (s : State) : (setTwin t s).timers = s.timers := rfl
@[simp] theorem setTwin_checks (t : TwinUnit) (s : State) : (setTwin t s).checks = s.checks := rfl
@[simp] theorem setTwin_nvl (t : TwinUnit) (s : State) : (setTwin t s).nvl = s.nvl := rfl
@[simp] theorem setTwin_telemPrev (t : TwinUnit) (s : State) : (setTwin t s).telemPrev = s.telemPrev := rfl
@[simp] theorem setTwin_work (t : TwinUnit) (s : State) : (setTwin t s).work = s.work := rfl

@[simp] theorem setCascade_pending (c : CascadeUnit) (s : State) : (setCascade c s).pending = s.pending := rfl
@[simp] theorem setCascade_now (c : CascadeUnit) (s : State) : (setCascade c s).now = s.now := rfl
@[simp] theorem setCascade_freeIndex (c : CascadeUnit) (s : State) : (setCascade c s).freeIndex = s.freeIndex := rfl
@[simp] theorem setCascade_phase (c : CascadeUnit) (s : State) : (setCascade c s).phase = s.phase := rfl
@[simp] theorem setCascade_boot (c : CascadeUnit) (s : State) : (setCascade c s).boot = s.boot := rfl
@[simp] theorem setCascade_regs (c : CascadeUnit) (s : State) : (setCascade c s).regs = s.regs := rfl
@[simp] theorem setCascade_snaps (c : CascadeUnit) (s : State) : (setCascade c s).snaps = s.snaps := rfl
@[simp] theorem setCascade_snapCtl (c : CascadeUnit) (s : State) : (setCascade c s).snapCtl = s.snapCtl := rfl
@[simp] theorem setCascade_doors (c : CascadeUnit) (s : State) : (setCascade c s).doors = s.doors := rfl
@[simp] theorem setCascade_queues (c : CascadeUnit) (s : State) : (setCascade c s).queues = s.queues := rfl
@[simp] theorem setCascade_txn (c : CascadeUnit) (s : State) : (setCascade c s).txn = s.txn := rfl
@[simp] theorem setCascade_mem (c : CascadeUnit) (s : State) : (setCascade c s).mem = s.mem := rfl
@[simp] theorem setCascade_host (c : CascadeUnit) (s : State) : (setCascade c s).host = s.host := rfl
@[simp] theorem setCascade_power (c : CascadeUnit) (s : State) : (setCascade c s).power = s.power := rfl
@[simp] theorem setCascade_bootUnit (c : CascadeUnit) (s : State) : (setCascade c s).bootUnit = s.bootUnit := rfl
@[simp] theorem setCascade_rtc (c : CascadeUnit) (s : State) : (setCascade c s).rtc = s.rtc := rfl
@[simp] theorem setCascade_clocks (c : CascadeUnit) (s : State) : (setCascade c s).clocks = s.clocks := rfl
@[simp] theorem setCascade_fld (c : CascadeUnit) (s : State) : (setCascade c s).fld = s.fld := rfl
@[simp] theorem setCascade_frx (c : CascadeUnit) (s : State) : (setCascade c s).frx = s.frx := rfl
@[simp] theorem setCascade_nfc (c : CascadeUnit) (s : State) : (setCascade c s).nfc = s.nfc := rfl
@[simp] theorem setCascade_card (c : CascadeUnit) (s : State) : (setCascade c s).card = s.card := rfl
@[simp] theorem setCascade_bcast (c : CascadeUnit) (s : State) : (setCascade c s).bcast = s.bcast := rfl
@[simp] theorem setCascade_twin (c : CascadeUnit) (s : State) : (setCascade c s).twin = s.twin := rfl
@[simp] theorem setCascade_cascade (c : CascadeUnit) (s : State) : (setCascade c s).cascade = c := rfl
@[simp] theorem setCascade_cipher (c : CascadeUnit) (s : State) : (setCascade c s).cipher = s.cipher := rfl
@[simp] theorem setCascade_ident (c : CascadeUnit) (s : State) : (setCascade c s).ident = s.ident := rfl
@[simp] theorem setCascade_decoder (c : CascadeUnit) (s : State) : (setCascade c s).decoder = s.decoder := rfl
@[simp] theorem setCascade_radio (c : CascadeUnit) (s : State) : (setCascade c s).radio = s.radio := rfl
@[simp] theorem setCascade_link (c : CascadeUnit) (s : State) : (setCascade c s).link = s.link := rfl
@[simp] theorem setCascade_masons (c : CascadeUnit) (s : State) : (setCascade c s).masons = s.masons := rfl
@[simp] theorem setCascade_port (c : CascadeUnit) (s : State) : (setCascade c s).port = s.port := rfl
@[simp] theorem setCascade_timers (c : CascadeUnit) (s : State) : (setCascade c s).timers = s.timers := rfl
@[simp] theorem setCascade_checks (c : CascadeUnit) (s : State) : (setCascade c s).checks = s.checks := rfl
@[simp] theorem setCascade_nvl (c : CascadeUnit) (s : State) : (setCascade c s).nvl = s.nvl := rfl
@[simp] theorem setCascade_telemPrev (c : CascadeUnit) (s : State) : (setCascade c s).telemPrev = s.telemPrev := rfl
@[simp] theorem setCascade_work (c : CascadeUnit) (s : State) : (setCascade c s).work = s.work := rfl

@[simp] theorem setCipher_pending (c : CipherUnit) (s : State) : (setCipher c s).pending = s.pending := rfl
@[simp] theorem setCipher_now (c : CipherUnit) (s : State) : (setCipher c s).now = s.now := rfl
@[simp] theorem setCipher_freeIndex (c : CipherUnit) (s : State) : (setCipher c s).freeIndex = s.freeIndex := rfl
@[simp] theorem setCipher_phase (c : CipherUnit) (s : State) : (setCipher c s).phase = s.phase := rfl
@[simp] theorem setCipher_boot (c : CipherUnit) (s : State) : (setCipher c s).boot = s.boot := rfl
@[simp] theorem setCipher_regs (c : CipherUnit) (s : State) : (setCipher c s).regs = s.regs := rfl
@[simp] theorem setCipher_snaps (c : CipherUnit) (s : State) : (setCipher c s).snaps = s.snaps := rfl
@[simp] theorem setCipher_snapCtl (c : CipherUnit) (s : State) : (setCipher c s).snapCtl = s.snapCtl := rfl
@[simp] theorem setCipher_doors (c : CipherUnit) (s : State) : (setCipher c s).doors = s.doors := rfl
@[simp] theorem setCipher_queues (c : CipherUnit) (s : State) : (setCipher c s).queues = s.queues := rfl
@[simp] theorem setCipher_txn (c : CipherUnit) (s : State) : (setCipher c s).txn = s.txn := rfl
@[simp] theorem setCipher_mem (c : CipherUnit) (s : State) : (setCipher c s).mem = s.mem := rfl
@[simp] theorem setCipher_host (c : CipherUnit) (s : State) : (setCipher c s).host = s.host := rfl
@[simp] theorem setCipher_power (c : CipherUnit) (s : State) : (setCipher c s).power = s.power := rfl
@[simp] theorem setCipher_bootUnit (c : CipherUnit) (s : State) : (setCipher c s).bootUnit = s.bootUnit := rfl
@[simp] theorem setCipher_rtc (c : CipherUnit) (s : State) : (setCipher c s).rtc = s.rtc := rfl
@[simp] theorem setCipher_clocks (c : CipherUnit) (s : State) : (setCipher c s).clocks = s.clocks := rfl
@[simp] theorem setCipher_fld (c : CipherUnit) (s : State) : (setCipher c s).fld = s.fld := rfl
@[simp] theorem setCipher_frx (c : CipherUnit) (s : State) : (setCipher c s).frx = s.frx := rfl
@[simp] theorem setCipher_nfc (c : CipherUnit) (s : State) : (setCipher c s).nfc = s.nfc := rfl
@[simp] theorem setCipher_card (c : CipherUnit) (s : State) : (setCipher c s).card = s.card := rfl
@[simp] theorem setCipher_bcast (c : CipherUnit) (s : State) : (setCipher c s).bcast = s.bcast := rfl
@[simp] theorem setCipher_twin (c : CipherUnit) (s : State) : (setCipher c s).twin = s.twin := rfl
@[simp] theorem setCipher_cascade (c : CipherUnit) (s : State) : (setCipher c s).cascade = s.cascade := rfl
@[simp] theorem setCipher_cipher (c : CipherUnit) (s : State) : (setCipher c s).cipher = c := rfl
@[simp] theorem setCipher_ident (c : CipherUnit) (s : State) : (setCipher c s).ident = s.ident := rfl
@[simp] theorem setCipher_decoder (c : CipherUnit) (s : State) : (setCipher c s).decoder = s.decoder := rfl
@[simp] theorem setCipher_radio (c : CipherUnit) (s : State) : (setCipher c s).radio = s.radio := rfl
@[simp] theorem setCipher_link (c : CipherUnit) (s : State) : (setCipher c s).link = s.link := rfl
@[simp] theorem setCipher_masons (c : CipherUnit) (s : State) : (setCipher c s).masons = s.masons := rfl
@[simp] theorem setCipher_port (c : CipherUnit) (s : State) : (setCipher c s).port = s.port := rfl
@[simp] theorem setCipher_timers (c : CipherUnit) (s : State) : (setCipher c s).timers = s.timers := rfl
@[simp] theorem setCipher_checks (c : CipherUnit) (s : State) : (setCipher c s).checks = s.checks := rfl
@[simp] theorem setCipher_nvl (c : CipherUnit) (s : State) : (setCipher c s).nvl = s.nvl := rfl
@[simp] theorem setCipher_telemPrev (c : CipherUnit) (s : State) : (setCipher c s).telemPrev = s.telemPrev := rfl
@[simp] theorem setCipher_work (c : CipherUnit) (s : State) : (setCipher c s).work = s.work := rfl

@[simp] theorem setSlot_pending (i : Nat) (k : Option KeySlot) (s : State) : (setSlot i k s).pending = s.pending := rfl
@[simp] theorem setSlot_now (i : Nat) (k : Option KeySlot) (s : State) : (setSlot i k s).now = s.now := rfl
@[simp] theorem setSlot_freeIndex (i : Nat) (k : Option KeySlot) (s : State) : (setSlot i k s).freeIndex = s.freeIndex := rfl
@[simp] theorem setSlot_phase (i : Nat) (k : Option KeySlot) (s : State) : (setSlot i k s).phase = s.phase := rfl
@[simp] theorem setSlot_boot (i : Nat) (k : Option KeySlot) (s : State) : (setSlot i k s).boot = s.boot := rfl
@[simp] theorem setSlot_regs (i : Nat) (k : Option KeySlot) (s : State) : (setSlot i k s).regs = s.regs := rfl
@[simp] theorem setSlot_snaps (i : Nat) (k : Option KeySlot) (s : State) : (setSlot i k s).snaps = s.snaps := rfl
@[simp] theorem setSlot_snapCtl (i : Nat) (k : Option KeySlot) (s : State) : (setSlot i k s).snapCtl = s.snapCtl := rfl
@[simp] theorem setSlot_doors (i : Nat) (k : Option KeySlot) (s : State) : (setSlot i k s).doors = s.doors := rfl
@[simp] theorem setSlot_queues (i : Nat) (k : Option KeySlot) (s : State) : (setSlot i k s).queues = s.queues := rfl
@[simp] theorem setSlot_txn (i : Nat) (k : Option KeySlot) (s : State) : (setSlot i k s).txn = s.txn := rfl
@[simp] theorem setSlot_mem (i : Nat) (k : Option KeySlot) (s : State) : (setSlot i k s).mem = s.mem := rfl
@[simp] theorem setSlot_host (i : Nat) (k : Option KeySlot) (s : State) : (setSlot i k s).host = s.host := rfl
@[simp] theorem setSlot_power (i : Nat) (k : Option KeySlot) (s : State) : (setSlot i k s).power = s.power := rfl
@[simp] theorem setSlot_bootUnit (i : Nat) (k : Option KeySlot) (s : State) : (setSlot i k s).bootUnit = s.bootUnit := rfl
@[simp] theorem setSlot_rtc (i : Nat) (k : Option KeySlot) (s : State) : (setSlot i k s).rtc = s.rtc := rfl
@[simp] theorem setSlot_clocks (i : Nat) (k : Option KeySlot) (s : State) : (setSlot i k s).clocks = s.clocks := rfl
@[simp] theorem setSlot_fld (i : Nat) (k : Option KeySlot) (s : State) : (setSlot i k s).fld = s.fld := rfl
@[simp] theorem setSlot_frx (i : Nat) (k : Option KeySlot) (s : State) : (setSlot i k s).frx = s.frx := rfl
@[simp] theorem setSlot_nfc (i : Nat) (k : Option KeySlot) (s : State) : (setSlot i k s).nfc = s.nfc := rfl
@[simp] theorem setSlot_card (i : Nat) (k : Option KeySlot) (s : State) : (setSlot i k s).card = s.card := rfl
@[simp] theorem setSlot_bcast (i : Nat) (k : Option KeySlot) (s : State) : (setSlot i k s).bcast = s.bcast := rfl
@[simp] theorem setSlot_twin (i : Nat) (k : Option KeySlot) (s : State) : (setSlot i k s).twin = s.twin := rfl
@[simp] theorem setSlot_cascade (i : Nat) (k : Option KeySlot) (s : State) : (setSlot i k s).cascade = s.cascade := rfl
@[simp] theorem setSlot_ident (i : Nat) (k : Option KeySlot) (s : State) : (setSlot i k s).ident = s.ident := rfl
@[simp] theorem setSlot_decoder (i : Nat) (k : Option KeySlot) (s : State) : (setSlot i k s).decoder = s.decoder := rfl
@[simp] theorem setSlot_radio (i : Nat) (k : Option KeySlot) (s : State) : (setSlot i k s).radio = s.radio := rfl
@[simp] theorem setSlot_link (i : Nat) (k : Option KeySlot) (s : State) : (setSlot i k s).link = s.link := rfl
@[simp] theorem setSlot_masons (i : Nat) (k : Option KeySlot) (s : State) : (setSlot i k s).masons = s.masons := rfl
@[simp] theorem setSlot_port (i : Nat) (k : Option KeySlot) (s : State) : (setSlot i k s).port = s.port := rfl
@[simp] theorem setSlot_timers (i : Nat) (k : Option KeySlot) (s : State) : (setSlot i k s).timers = s.timers := rfl
@[simp] theorem setSlot_checks (i : Nat) (k : Option KeySlot) (s : State) : (setSlot i k s).checks = s.checks := rfl
@[simp] theorem setSlot_nvl (i : Nat) (k : Option KeySlot) (s : State) : (setSlot i k s).nvl = s.nvl := rfl
@[simp] theorem setSlot_telemPrev (i : Nat) (k : Option KeySlot) (s : State) : (setSlot i k s).telemPrev = s.telemPrev := rfl
@[simp] theorem setSlot_work (i : Nat) (k : Option KeySlot) (s : State) : (setSlot i k s).work = s.work := rfl

@[simp] theorem setIdent_pending (i : IdentUnit) (s : State) : (setIdent i s).pending = s.pending := rfl
@[simp] theorem setIdent_now (i : IdentUnit) (s : State) : (setIdent i s).now = s.now := rfl
@[simp] theorem setIdent_freeIndex (i : IdentUnit) (s : State) : (setIdent i s).freeIndex = s.freeIndex := rfl
@[simp] theorem setIdent_phase (i : IdentUnit) (s : State) : (setIdent i s).phase = s.phase := rfl
@[simp] theorem setIdent_boot (i : IdentUnit) (s : State) : (setIdent i s).boot = s.boot := rfl
@[simp] theorem setIdent_regs (i : IdentUnit) (s : State) : (setIdent i s).regs = s.regs := rfl
@[simp] theorem setIdent_snaps (i : IdentUnit) (s : State) : (setIdent i s).snaps = s.snaps := rfl
@[simp] theorem setIdent_snapCtl (i : IdentUnit) (s : State) : (setIdent i s).snapCtl = s.snapCtl := rfl
@[simp] theorem setIdent_doors (i : IdentUnit) (s : State) : (setIdent i s).doors = s.doors := rfl
@[simp] theorem setIdent_queues (i : IdentUnit) (s : State) : (setIdent i s).queues = s.queues := rfl
@[simp] theorem setIdent_txn (i : IdentUnit) (s : State) : (setIdent i s).txn = s.txn := rfl
@[simp] theorem setIdent_mem (i : IdentUnit) (s : State) : (setIdent i s).mem = s.mem := rfl
@[simp] theorem setIdent_host (i : IdentUnit) (s : State) : (setIdent i s).host = s.host := rfl
@[simp] theorem setIdent_power (i : IdentUnit) (s : State) : (setIdent i s).power = s.power := rfl
@[simp] theorem setIdent_bootUnit (i : IdentUnit) (s : State) : (setIdent i s).bootUnit = s.bootUnit := rfl
@[simp] theorem setIdent_rtc (i : IdentUnit) (s : State) : (setIdent i s).rtc = s.rtc := rfl
@[simp] theorem setIdent_clocks (i : IdentUnit) (s : State) : (setIdent i s).clocks = s.clocks := rfl
@[simp] theorem setIdent_fld (i : IdentUnit) (s : State) : (setIdent i s).fld = s.fld := rfl
@[simp] theorem setIdent_frx (i : IdentUnit) (s : State) : (setIdent i s).frx = s.frx := rfl
@[simp] theorem setIdent_nfc (i : IdentUnit) (s : State) : (setIdent i s).nfc = s.nfc := rfl
@[simp] theorem setIdent_card (i : IdentUnit) (s : State) : (setIdent i s).card = s.card := rfl
@[simp] theorem setIdent_bcast (i : IdentUnit) (s : State) : (setIdent i s).bcast = s.bcast := rfl
@[simp] theorem setIdent_twin (i : IdentUnit) (s : State) : (setIdent i s).twin = s.twin := rfl
@[simp] theorem setIdent_cascade (i : IdentUnit) (s : State) : (setIdent i s).cascade = s.cascade := rfl
@[simp] theorem setIdent_cipher (i : IdentUnit) (s : State) : (setIdent i s).cipher = s.cipher := rfl
@[simp] theorem setIdent_ident (i : IdentUnit) (s : State) : (setIdent i s).ident = i := rfl
@[simp] theorem setIdent_decoder (i : IdentUnit) (s : State) : (setIdent i s).decoder = s.decoder := rfl
@[simp] theorem setIdent_radio (i : IdentUnit) (s : State) : (setIdent i s).radio = s.radio := rfl
@[simp] theorem setIdent_link (i : IdentUnit) (s : State) : (setIdent i s).link = s.link := rfl
@[simp] theorem setIdent_masons (i : IdentUnit) (s : State) : (setIdent i s).masons = s.masons := rfl
@[simp] theorem setIdent_port (i : IdentUnit) (s : State) : (setIdent i s).port = s.port := rfl
@[simp] theorem setIdent_timers (i : IdentUnit) (s : State) : (setIdent i s).timers = s.timers := rfl
@[simp] theorem setIdent_checks (i : IdentUnit) (s : State) : (setIdent i s).checks = s.checks := rfl
@[simp] theorem setIdent_nvl (i : IdentUnit) (s : State) : (setIdent i s).nvl = s.nvl := rfl
@[simp] theorem setIdent_telemPrev (i : IdentUnit) (s : State) : (setIdent i s).telemPrev = s.telemPrev := rfl
@[simp] theorem setIdent_work (i : IdentUnit) (s : State) : (setIdent i s).work = s.work := rfl

@[simp] theorem setDecoder_pending (d : DecoderUnit) (s : State) : (setDecoder d s).pending = s.pending := rfl
@[simp] theorem setDecoder_now (d : DecoderUnit) (s : State) : (setDecoder d s).now = s.now := rfl
@[simp] theorem setDecoder_freeIndex (d : DecoderUnit) (s : State) : (setDecoder d s).freeIndex = s.freeIndex := rfl
@[simp] theorem setDecoder_phase (d : DecoderUnit) (s : State) : (setDecoder d s).phase = s.phase := rfl
@[simp] theorem setDecoder_boot (d : DecoderUnit) (s : State) : (setDecoder d s).boot = s.boot := rfl
@[simp] theorem setDecoder_regs (d : DecoderUnit) (s : State) : (setDecoder d s).regs = s.regs := rfl
@[simp] theorem setDecoder_snaps (d : DecoderUnit) (s : State) : (setDecoder d s).snaps = s.snaps := rfl
@[simp] theorem setDecoder_snapCtl (d : DecoderUnit) (s : State) : (setDecoder d s).snapCtl = s.snapCtl := rfl
@[simp] theorem setDecoder_doors (d : DecoderUnit) (s : State) : (setDecoder d s).doors = s.doors := rfl
@[simp] theorem setDecoder_queues (d : DecoderUnit) (s : State) : (setDecoder d s).queues = s.queues := rfl
@[simp] theorem setDecoder_txn (d : DecoderUnit) (s : State) : (setDecoder d s).txn = s.txn := rfl
@[simp] theorem setDecoder_mem (d : DecoderUnit) (s : State) : (setDecoder d s).mem = s.mem := rfl
@[simp] theorem setDecoder_host (d : DecoderUnit) (s : State) : (setDecoder d s).host = s.host := rfl
@[simp] theorem setDecoder_power (d : DecoderUnit) (s : State) : (setDecoder d s).power = s.power := rfl
@[simp] theorem setDecoder_bootUnit (d : DecoderUnit) (s : State) : (setDecoder d s).bootUnit = s.bootUnit := rfl
@[simp] theorem setDecoder_rtc (d : DecoderUnit) (s : State) : (setDecoder d s).rtc = s.rtc := rfl
@[simp] theorem setDecoder_clocks (d : DecoderUnit) (s : State) : (setDecoder d s).clocks = s.clocks := rfl
@[simp] theorem setDecoder_fld (d : DecoderUnit) (s : State) : (setDecoder d s).fld = s.fld := rfl
@[simp] theorem setDecoder_frx (d : DecoderUnit) (s : State) : (setDecoder d s).frx = s.frx := rfl
@[simp] theorem setDecoder_nfc (d : DecoderUnit) (s : State) : (setDecoder d s).nfc = s.nfc := rfl
@[simp] theorem setDecoder_card (d : DecoderUnit) (s : State) : (setDecoder d s).card = s.card := rfl
@[simp] theorem setDecoder_bcast (d : DecoderUnit) (s : State) : (setDecoder d s).bcast = s.bcast := rfl
@[simp] theorem setDecoder_twin (d : DecoderUnit) (s : State) : (setDecoder d s).twin = s.twin := rfl
@[simp] theorem setDecoder_cascade (d : DecoderUnit) (s : State) : (setDecoder d s).cascade = s.cascade := rfl
@[simp] theorem setDecoder_cipher (d : DecoderUnit) (s : State) : (setDecoder d s).cipher = s.cipher := rfl
@[simp] theorem setDecoder_ident (d : DecoderUnit) (s : State) : (setDecoder d s).ident = s.ident := rfl
@[simp] theorem setDecoder_decoder (d : DecoderUnit) (s : State) : (setDecoder d s).decoder = d := rfl
@[simp] theorem setDecoder_radio (d : DecoderUnit) (s : State) : (setDecoder d s).radio = s.radio := rfl
@[simp] theorem setDecoder_link (d : DecoderUnit) (s : State) : (setDecoder d s).link = s.link := rfl
@[simp] theorem setDecoder_masons (d : DecoderUnit) (s : State) : (setDecoder d s).masons = s.masons := rfl
@[simp] theorem setDecoder_port (d : DecoderUnit) (s : State) : (setDecoder d s).port = s.port := rfl
@[simp] theorem setDecoder_timers (d : DecoderUnit) (s : State) : (setDecoder d s).timers = s.timers := rfl
@[simp] theorem setDecoder_checks (d : DecoderUnit) (s : State) : (setDecoder d s).checks = s.checks := rfl
@[simp] theorem setDecoder_nvl (d : DecoderUnit) (s : State) : (setDecoder d s).nvl = s.nvl := rfl
@[simp] theorem setDecoder_telemPrev (d : DecoderUnit) (s : State) : (setDecoder d s).telemPrev = s.telemPrev := rfl
@[simp] theorem setDecoder_work (d : DecoderUnit) (s : State) : (setDecoder d s).work = s.work := rfl

@[simp] theorem setRadio_pending (r : RadioUnit) (s : State) : (setRadio r s).pending = s.pending := rfl
@[simp] theorem setRadio_now (r : RadioUnit) (s : State) : (setRadio r s).now = s.now := rfl
@[simp] theorem setRadio_freeIndex (r : RadioUnit) (s : State) : (setRadio r s).freeIndex = s.freeIndex := rfl
@[simp] theorem setRadio_phase (r : RadioUnit) (s : State) : (setRadio r s).phase = s.phase := rfl
@[simp] theorem setRadio_boot (r : RadioUnit) (s : State) : (setRadio r s).boot = s.boot := rfl
@[simp] theorem setRadio_regs (r : RadioUnit) (s : State) : (setRadio r s).regs = s.regs := rfl
@[simp] theorem setRadio_snaps (r : RadioUnit) (s : State) : (setRadio r s).snaps = s.snaps := rfl
@[simp] theorem setRadio_snapCtl (r : RadioUnit) (s : State) : (setRadio r s).snapCtl = s.snapCtl := rfl
@[simp] theorem setRadio_doors (r : RadioUnit) (s : State) : (setRadio r s).doors = s.doors := rfl
@[simp] theorem setRadio_queues (r : RadioUnit) (s : State) : (setRadio r s).queues = s.queues := rfl
@[simp] theorem setRadio_txn (r : RadioUnit) (s : State) : (setRadio r s).txn = s.txn := rfl
@[simp] theorem setRadio_mem (r : RadioUnit) (s : State) : (setRadio r s).mem = s.mem := rfl
@[simp] theorem setRadio_host (r : RadioUnit) (s : State) : (setRadio r s).host = s.host := rfl
@[simp] theorem setRadio_power (r : RadioUnit) (s : State) : (setRadio r s).power = s.power := rfl
@[simp] theorem setRadio_bootUnit (r : RadioUnit) (s : State) : (setRadio r s).bootUnit = s.bootUnit := rfl
@[simp] theorem setRadio_rtc (r : RadioUnit) (s : State) : (setRadio r s).rtc = s.rtc := rfl
@[simp] theorem setRadio_clocks (r : RadioUnit) (s : State) : (setRadio r s).clocks = s.clocks := rfl
@[simp] theorem setRadio_fld (r : RadioUnit) (s : State) : (setRadio r s).fld = s.fld := rfl
@[simp] theorem setRadio_frx (r : RadioUnit) (s : State) : (setRadio r s).frx = s.frx := rfl
@[simp] theorem setRadio_nfc (r : RadioUnit) (s : State) : (setRadio r s).nfc = s.nfc := rfl
@[simp] theorem setRadio_card (r : RadioUnit) (s : State) : (setRadio r s).card = s.card := rfl
@[simp] theorem setRadio_bcast (r : RadioUnit) (s : State) : (setRadio r s).bcast = s.bcast := rfl
@[simp] theorem setRadio_twin (r : RadioUnit) (s : State) : (setRadio r s).twin = s.twin := rfl
@[simp] theorem setRadio_cascade (r : RadioUnit) (s : State) : (setRadio r s).cascade = s.cascade := rfl
@[simp] theorem setRadio_cipher (r : RadioUnit) (s : State) : (setRadio r s).cipher = s.cipher := rfl
@[simp] theorem setRadio_ident (r : RadioUnit) (s : State) : (setRadio r s).ident = s.ident := rfl
@[simp] theorem setRadio_decoder (r : RadioUnit) (s : State) : (setRadio r s).decoder = s.decoder := rfl
@[simp] theorem setRadio_radio (r : RadioUnit) (s : State) : (setRadio r s).radio = r := rfl
@[simp] theorem setRadio_link (r : RadioUnit) (s : State) : (setRadio r s).link = s.link := rfl
@[simp] theorem setRadio_masons (r : RadioUnit) (s : State) : (setRadio r s).masons = s.masons := rfl
@[simp] theorem setRadio_port (r : RadioUnit) (s : State) : (setRadio r s).port = s.port := rfl
@[simp] theorem setRadio_timers (r : RadioUnit) (s : State) : (setRadio r s).timers = s.timers := rfl
@[simp] theorem setRadio_checks (r : RadioUnit) (s : State) : (setRadio r s).checks = s.checks := rfl
@[simp] theorem setRadio_nvl (r : RadioUnit) (s : State) : (setRadio r s).nvl = s.nvl := rfl
@[simp] theorem setRadio_telemPrev (r : RadioUnit) (s : State) : (setRadio r s).telemPrev = s.telemPrev := rfl
@[simp] theorem setRadio_work (r : RadioUnit) (s : State) : (setRadio r s).work = s.work := rfl

@[simp] theorem setLink_pending (l : LinkUnit) (s : State) : (setLink l s).pending = s.pending := rfl
@[simp] theorem setLink_now (l : LinkUnit) (s : State) : (setLink l s).now = s.now := rfl
@[simp] theorem setLink_freeIndex (l : LinkUnit) (s : State) : (setLink l s).freeIndex = s.freeIndex := rfl
@[simp] theorem setLink_phase (l : LinkUnit) (s : State) : (setLink l s).phase = s.phase := rfl
@[simp] theorem setLink_boot (l : LinkUnit) (s : State) : (setLink l s).boot = s.boot := rfl
@[simp] theorem setLink_regs (l : LinkUnit) (s : State) : (setLink l s).regs = s.regs := rfl
@[simp] theorem setLink_snaps (l : LinkUnit) (s : State) : (setLink l s).snaps = s.snaps := rfl
@[simp] theorem setLink_snapCtl (l : LinkUnit) (s : State) : (setLink l s).snapCtl = s.snapCtl := rfl
@[simp] theorem setLink_doors (l : LinkUnit) (s : State) : (setLink l s).doors = s.doors := rfl
@[simp] theorem setLink_queues (l : LinkUnit) (s : State) : (setLink l s).queues = s.queues := rfl
@[simp] theorem setLink_txn (l : LinkUnit) (s : State) : (setLink l s).txn = s.txn := rfl
@[simp] theorem setLink_mem (l : LinkUnit) (s : State) : (setLink l s).mem = s.mem := rfl
@[simp] theorem setLink_host (l : LinkUnit) (s : State) : (setLink l s).host = s.host := rfl
@[simp] theorem setLink_power (l : LinkUnit) (s : State) : (setLink l s).power = s.power := rfl
@[simp] theorem setLink_bootUnit (l : LinkUnit) (s : State) : (setLink l s).bootUnit = s.bootUnit := rfl
@[simp] theorem setLink_rtc (l : LinkUnit) (s : State) : (setLink l s).rtc = s.rtc := rfl
@[simp] theorem setLink_clocks (l : LinkUnit) (s : State) : (setLink l s).clocks = s.clocks := rfl
@[simp] theorem setLink_fld (l : LinkUnit) (s : State) : (setLink l s).fld = s.fld := rfl
@[simp] theorem setLink_frx (l : LinkUnit) (s : State) : (setLink l s).frx = s.frx := rfl
@[simp] theorem setLink_nfc (l : LinkUnit) (s : State) : (setLink l s).nfc = s.nfc := rfl
@[simp] theorem setLink_card (l : LinkUnit) (s : State) : (setLink l s).card = s.card := rfl
@[simp] theorem setLink_bcast (l : LinkUnit) (s : State) : (setLink l s).bcast = s.bcast := rfl
@[simp] theorem setLink_twin (l : LinkUnit) (s : State) : (setLink l s).twin = s.twin := rfl
@[simp] theorem setLink_cascade (l : LinkUnit) (s : State) : (setLink l s).cascade = s.cascade := rfl
@[simp] theorem setLink_cipher (l : LinkUnit) (s : State) : (setLink l s).cipher = s.cipher := rfl
@[simp] theorem setLink_ident (l : LinkUnit) (s : State) : (setLink l s).ident = s.ident := rfl
@[simp] theorem setLink_decoder (l : LinkUnit) (s : State) : (setLink l s).decoder = s.decoder := rfl
@[simp] theorem setLink_radio (l : LinkUnit) (s : State) : (setLink l s).radio = s.radio := rfl
@[simp] theorem setLink_link (l : LinkUnit) (s : State) : (setLink l s).link = l := rfl
@[simp] theorem setLink_masons (l : LinkUnit) (s : State) : (setLink l s).masons = s.masons := rfl
@[simp] theorem setLink_port (l : LinkUnit) (s : State) : (setLink l s).port = s.port := rfl
@[simp] theorem setLink_timers (l : LinkUnit) (s : State) : (setLink l s).timers = s.timers := rfl
@[simp] theorem setLink_checks (l : LinkUnit) (s : State) : (setLink l s).checks = s.checks := rfl
@[simp] theorem setLink_nvl (l : LinkUnit) (s : State) : (setLink l s).nvl = s.nvl := rfl
@[simp] theorem setLink_telemPrev (l : LinkUnit) (s : State) : (setLink l s).telemPrev = s.telemPrev := rfl
@[simp] theorem setLink_work (l : LinkUnit) (s : State) : (setLink l s).work = s.work := rfl

@[simp] theorem setMason_pending (m : Fin 5) (u : MasonUnit) (s : State) : (setMason m u s).pending = s.pending := rfl
@[simp] theorem setMason_now (m : Fin 5) (u : MasonUnit) (s : State) : (setMason m u s).now = s.now := rfl
@[simp] theorem setMason_freeIndex (m : Fin 5) (u : MasonUnit) (s : State) : (setMason m u s).freeIndex = s.freeIndex := rfl
@[simp] theorem setMason_phase (m : Fin 5) (u : MasonUnit) (s : State) : (setMason m u s).phase = s.phase := rfl
@[simp] theorem setMason_boot (m : Fin 5) (u : MasonUnit) (s : State) : (setMason m u s).boot = s.boot := rfl
@[simp] theorem setMason_regs (m : Fin 5) (u : MasonUnit) (s : State) : (setMason m u s).regs = s.regs := rfl
@[simp] theorem setMason_snaps (m : Fin 5) (u : MasonUnit) (s : State) : (setMason m u s).snaps = s.snaps := rfl
@[simp] theorem setMason_snapCtl (m : Fin 5) (u : MasonUnit) (s : State) : (setMason m u s).snapCtl = s.snapCtl := rfl
@[simp] theorem setMason_doors (m : Fin 5) (u : MasonUnit) (s : State) : (setMason m u s).doors = s.doors := rfl
@[simp] theorem setMason_queues (m : Fin 5) (u : MasonUnit) (s : State) : (setMason m u s).queues = s.queues := rfl
@[simp] theorem setMason_txn (m : Fin 5) (u : MasonUnit) (s : State) : (setMason m u s).txn = s.txn := rfl
@[simp] theorem setMason_mem (m : Fin 5) (u : MasonUnit) (s : State) : (setMason m u s).mem = s.mem := rfl
@[simp] theorem setMason_host (m : Fin 5) (u : MasonUnit) (s : State) : (setMason m u s).host = s.host := rfl
@[simp] theorem setMason_power (m : Fin 5) (u : MasonUnit) (s : State) : (setMason m u s).power = s.power := rfl
@[simp] theorem setMason_bootUnit (m : Fin 5) (u : MasonUnit) (s : State) : (setMason m u s).bootUnit = s.bootUnit := rfl
@[simp] theorem setMason_rtc (m : Fin 5) (u : MasonUnit) (s : State) : (setMason m u s).rtc = s.rtc := rfl
@[simp] theorem setMason_clocks (m : Fin 5) (u : MasonUnit) (s : State) : (setMason m u s).clocks = s.clocks := rfl
@[simp] theorem setMason_fld (m : Fin 5) (u : MasonUnit) (s : State) : (setMason m u s).fld = s.fld := rfl
@[simp] theorem setMason_frx (m : Fin 5) (u : MasonUnit) (s : State) : (setMason m u s).frx = s.frx := rfl
@[simp] theorem setMason_nfc (m : Fin 5) (u : MasonUnit) (s : State) : (setMason m u s).nfc = s.nfc := rfl
@[simp] theorem setMason_card (m : Fin 5) (u : MasonUnit) (s : State) : (setMason m u s).card = s.card := rfl
@[simp] theorem setMason_bcast (m : Fin 5) (u : MasonUnit) (s : State) : (setMason m u s).bcast = s.bcast := rfl
@[simp] theorem setMason_twin (m : Fin 5) (u : MasonUnit) (s : State) : (setMason m u s).twin = s.twin := rfl
@[simp] theorem setMason_cascade (m : Fin 5) (u : MasonUnit) (s : State) : (setMason m u s).cascade = s.cascade := rfl
@[simp] theorem setMason_cipher (m : Fin 5) (u : MasonUnit) (s : State) : (setMason m u s).cipher = s.cipher := rfl
@[simp] theorem setMason_ident (m : Fin 5) (u : MasonUnit) (s : State) : (setMason m u s).ident = s.ident := rfl
@[simp] theorem setMason_decoder (m : Fin 5) (u : MasonUnit) (s : State) : (setMason m u s).decoder = s.decoder := rfl
@[simp] theorem setMason_radio (m : Fin 5) (u : MasonUnit) (s : State) : (setMason m u s).radio = s.radio := rfl
@[simp] theorem setMason_link (m : Fin 5) (u : MasonUnit) (s : State) : (setMason m u s).link = s.link := rfl
@[simp] theorem setMason_masons (m : Fin 5) (u : MasonUnit) (s : State) : (setMason m u s).masons = s.masons.set m.val u := rfl
@[simp] theorem setMason_port (m : Fin 5) (u : MasonUnit) (s : State) : (setMason m u s).port = s.port := rfl
@[simp] theorem setMason_timers (m : Fin 5) (u : MasonUnit) (s : State) : (setMason m u s).timers = s.timers := rfl
@[simp] theorem setMason_checks (m : Fin 5) (u : MasonUnit) (s : State) : (setMason m u s).checks = s.checks := rfl
@[simp] theorem setMason_nvl (m : Fin 5) (u : MasonUnit) (s : State) : (setMason m u s).nvl = s.nvl := rfl
@[simp] theorem setMason_telemPrev (m : Fin 5) (u : MasonUnit) (s : State) : (setMason m u s).telemPrev = s.telemPrev := rfl
@[simp] theorem setMason_work (m : Fin 5) (u : MasonUnit) (s : State) : (setMason m u s).work = s.work := rfl

@[simp] theorem setPort_pending (p : PortUnit) (s : State) : (setPort p s).pending = s.pending := rfl
@[simp] theorem setPort_now (p : PortUnit) (s : State) : (setPort p s).now = s.now := rfl
@[simp] theorem setPort_freeIndex (p : PortUnit) (s : State) : (setPort p s).freeIndex = s.freeIndex := rfl
@[simp] theorem setPort_phase (p : PortUnit) (s : State) : (setPort p s).phase = s.phase := rfl
@[simp] theorem setPort_boot (p : PortUnit) (s : State) : (setPort p s).boot = s.boot := rfl
@[simp] theorem setPort_regs (p : PortUnit) (s : State) : (setPort p s).regs = s.regs := rfl
@[simp] theorem setPort_snaps (p : PortUnit) (s : State) : (setPort p s).snaps = s.snaps := rfl
@[simp] theorem setPort_snapCtl (p : PortUnit) (s : State) : (setPort p s).snapCtl = s.snapCtl := rfl
@[simp] theorem setPort_doors (p : PortUnit) (s : State) : (setPort p s).doors = s.doors := rfl
@[simp] theorem setPort_queues (p : PortUnit) (s : State) : (setPort p s).queues = s.queues := rfl
@[simp] theorem setPort_txn (p : PortUnit) (s : State) : (setPort p s).txn = s.txn := rfl
@[simp] theorem setPort_mem (p : PortUnit) (s : State) : (setPort p s).mem = s.mem := rfl
@[simp] theorem setPort_host (p : PortUnit) (s : State) : (setPort p s).host = s.host := rfl
@[simp] theorem setPort_power (p : PortUnit) (s : State) : (setPort p s).power = s.power := rfl
@[simp] theorem setPort_bootUnit (p : PortUnit) (s : State) : (setPort p s).bootUnit = s.bootUnit := rfl
@[simp] theorem setPort_rtc (p : PortUnit) (s : State) : (setPort p s).rtc = s.rtc := rfl
@[simp] theorem setPort_clocks (p : PortUnit) (s : State) : (setPort p s).clocks = s.clocks := rfl
@[simp] theorem setPort_fld (p : PortUnit) (s : State) : (setPort p s).fld = s.fld := rfl
@[simp] theorem setPort_frx (p : PortUnit) (s : State) : (setPort p s).frx = s.frx := rfl
@[simp] theorem setPort_nfc (p : PortUnit) (s : State) : (setPort p s).nfc = s.nfc := rfl
@[simp] theorem setPort_card (p : PortUnit) (s : State) : (setPort p s).card = s.card := rfl
@[simp] theorem setPort_bcast (p : PortUnit) (s : State) : (setPort p s).bcast = s.bcast := rfl
@[simp] theorem setPort_twin (p : PortUnit) (s : State) : (setPort p s).twin = s.twin := rfl
@[simp] theorem setPort_cascade (p : PortUnit) (s : State) : (setPort p s).cascade = s.cascade := rfl
@[simp] theorem setPort_cipher (p : PortUnit) (s : State) : (setPort p s).cipher = s.cipher := rfl
@[simp] theorem setPort_ident (p : PortUnit) (s : State) : (setPort p s).ident = s.ident := rfl
@[simp] theorem setPort_decoder (p : PortUnit) (s : State) : (setPort p s).decoder = s.decoder := rfl
@[simp] theorem setPort_radio (p : PortUnit) (s : State) : (setPort p s).radio = s.radio := rfl
@[simp] theorem setPort_link (p : PortUnit) (s : State) : (setPort p s).link = s.link := rfl
@[simp] theorem setPort_masons (p : PortUnit) (s : State) : (setPort p s).masons = s.masons := rfl
@[simp] theorem setPort_port (p : PortUnit) (s : State) : (setPort p s).port = p := rfl
@[simp] theorem setPort_timers (p : PortUnit) (s : State) : (setPort p s).timers = s.timers := rfl
@[simp] theorem setPort_checks (p : PortUnit) (s : State) : (setPort p s).checks = s.checks := rfl
@[simp] theorem setPort_nvl (p : PortUnit) (s : State) : (setPort p s).nvl = s.nvl := rfl
@[simp] theorem setPort_telemPrev (p : PortUnit) (s : State) : (setPort p s).telemPrev = s.telemPrev := rfl
@[simp] theorem setPort_work (p : PortUnit) (s : State) : (setPort p s).work = s.work := rfl

@[simp] theorem setClocks_pending (c : Clocks) (s : State) : (setClocks c s).pending = s.pending := rfl
@[simp] theorem setClocks_now (c : Clocks) (s : State) : (setClocks c s).now = s.now := rfl
@[simp] theorem setClocks_freeIndex (c : Clocks) (s : State) : (setClocks c s).freeIndex = s.freeIndex := rfl
@[simp] theorem setClocks_phase (c : Clocks) (s : State) : (setClocks c s).phase = s.phase := rfl
@[simp] theorem setClocks_boot (c : Clocks) (s : State) : (setClocks c s).boot = s.boot := rfl
@[simp] theorem setClocks_regs (c : Clocks) (s : State) : (setClocks c s).regs = s.regs := rfl
@[simp] theorem setClocks_snaps (c : Clocks) (s : State) : (setClocks c s).snaps = s.snaps := rfl
@[simp] theorem setClocks_snapCtl (c : Clocks) (s : State) : (setClocks c s).snapCtl = s.snapCtl := rfl
@[simp] theorem setClocks_doors (c : Clocks) (s : State) : (setClocks c s).doors = s.doors := rfl
@[simp] theorem setClocks_queues (c : Clocks) (s : State) : (setClocks c s).queues = s.queues := rfl
@[simp] theorem setClocks_txn (c : Clocks) (s : State) : (setClocks c s).txn = s.txn := rfl
@[simp] theorem setClocks_mem (c : Clocks) (s : State) : (setClocks c s).mem = s.mem := rfl
@[simp] theorem setClocks_host (c : Clocks) (s : State) : (setClocks c s).host = s.host := rfl
@[simp] theorem setClocks_power (c : Clocks) (s : State) : (setClocks c s).power = s.power := rfl
@[simp] theorem setClocks_bootUnit (c : Clocks) (s : State) : (setClocks c s).bootUnit = s.bootUnit := rfl
@[simp] theorem setClocks_rtc (c : Clocks) (s : State) : (setClocks c s).rtc = s.rtc := rfl
@[simp] theorem setClocks_clocks (c : Clocks) (s : State) : (setClocks c s).clocks = c := rfl
@[simp] theorem setClocks_fld (c : Clocks) (s : State) : (setClocks c s).fld = s.fld := rfl
@[simp] theorem setClocks_frx (c : Clocks) (s : State) : (setClocks c s).frx = s.frx := rfl
@[simp] theorem setClocks_nfc (c : Clocks) (s : State) : (setClocks c s).nfc = s.nfc := rfl
@[simp] theorem setClocks_card (c : Clocks) (s : State) : (setClocks c s).card = s.card := rfl
@[simp] theorem setClocks_bcast (c : Clocks) (s : State) : (setClocks c s).bcast = s.bcast := rfl
@[simp] theorem setClocks_twin (c : Clocks) (s : State) : (setClocks c s).twin = s.twin := rfl
@[simp] theorem setClocks_cascade (c : Clocks) (s : State) : (setClocks c s).cascade = s.cascade := rfl
@[simp] theorem setClocks_cipher (c : Clocks) (s : State) : (setClocks c s).cipher = s.cipher := rfl
@[simp] theorem setClocks_ident (c : Clocks) (s : State) : (setClocks c s).ident = s.ident := rfl
@[simp] theorem setClocks_decoder (c : Clocks) (s : State) : (setClocks c s).decoder = s.decoder := rfl
@[simp] theorem setClocks_radio (c : Clocks) (s : State) : (setClocks c s).radio = s.radio := rfl
@[simp] theorem setClocks_link (c : Clocks) (s : State) : (setClocks c s).link = s.link := rfl
@[simp] theorem setClocks_masons (c : Clocks) (s : State) : (setClocks c s).masons = s.masons := rfl
@[simp] theorem setClocks_port (c : Clocks) (s : State) : (setClocks c s).port = s.port := rfl
@[simp] theorem setClocks_timers (c : Clocks) (s : State) : (setClocks c s).timers = s.timers := rfl
@[simp] theorem setClocks_checks (c : Clocks) (s : State) : (setClocks c s).checks = s.checks := rfl
@[simp] theorem setClocks_nvl (c : Clocks) (s : State) : (setClocks c s).nvl = s.nvl := rfl
@[simp] theorem setClocks_telemPrev (c : Clocks) (s : State) : (setClocks c s).telemPrev = s.telemPrev := rfl
@[simp] theorem setClocks_work (c : Clocks) (s : State) : (setClocks c s).work = s.work := rfl

@[simp] theorem setPower_pending (p : Power) (s : State) : (setPower p s).pending = s.pending := rfl
@[simp] theorem setPower_now (p : Power) (s : State) : (setPower p s).now = s.now := rfl
@[simp] theorem setPower_freeIndex (p : Power) (s : State) : (setPower p s).freeIndex = s.freeIndex := rfl
@[simp] theorem setPower_phase (p : Power) (s : State) : (setPower p s).phase = s.phase := rfl
@[simp] theorem setPower_boot (p : Power) (s : State) : (setPower p s).boot = s.boot := rfl
@[simp] theorem setPower_regs (p : Power) (s : State) : (setPower p s).regs = s.regs := rfl
@[simp] theorem setPower_snaps (p : Power) (s : State) : (setPower p s).snaps = s.snaps := rfl
@[simp] theorem setPower_snapCtl (p : Power) (s : State) : (setPower p s).snapCtl = s.snapCtl := rfl
@[simp] theorem setPower_doors (p : Power) (s : State) : (setPower p s).doors = s.doors := rfl
@[simp] theorem setPower_queues (p : Power) (s : State) : (setPower p s).queues = s.queues := rfl
@[simp] theorem setPower_txn (p : Power) (s : State) : (setPower p s).txn = s.txn := rfl
@[simp] theorem setPower_mem (p : Power) (s : State) : (setPower p s).mem = s.mem := rfl
@[simp] theorem setPower_host (p : Power) (s : State) : (setPower p s).host = s.host := rfl
@[simp] theorem setPower_power (p : Power) (s : State) : (setPower p s).power = p := rfl
@[simp] theorem setPower_bootUnit (p : Power) (s : State) : (setPower p s).bootUnit = s.bootUnit := rfl
@[simp] theorem setPower_rtc (p : Power) (s : State) : (setPower p s).rtc = s.rtc := rfl
@[simp] theorem setPower_clocks (p : Power) (s : State) : (setPower p s).clocks = s.clocks := rfl
@[simp] theorem setPower_fld (p : Power) (s : State) : (setPower p s).fld = s.fld := rfl
@[simp] theorem setPower_frx (p : Power) (s : State) : (setPower p s).frx = s.frx := rfl
@[simp] theorem setPower_nfc (p : Power) (s : State) : (setPower p s).nfc = s.nfc := rfl
@[simp] theorem setPower_card (p : Power) (s : State) : (setPower p s).card = s.card := rfl
@[simp] theorem setPower_bcast (p : Power) (s : State) : (setPower p s).bcast = s.bcast := rfl
@[simp] theorem setPower_twin (p : Power) (s : State) : (setPower p s).twin = s.twin := rfl
@[simp] theorem setPower_cascade (p : Power) (s : State) : (setPower p s).cascade = s.cascade := rfl
@[simp] theorem setPower_cipher (p : Power) (s : State) : (setPower p s).cipher = s.cipher := rfl
@[simp] theorem setPower_ident (p : Power) (s : State) : (setPower p s).ident = s.ident := rfl
@[simp] theorem setPower_decoder (p : Power) (s : State) : (setPower p s).decoder = s.decoder := rfl
@[simp] theorem setPower_radio (p : Power) (s : State) : (setPower p s).radio = s.radio := rfl
@[simp] theorem setPower_link (p : Power) (s : State) : (setPower p s).link = s.link := rfl
@[simp] theorem setPower_masons (p : Power) (s : State) : (setPower p s).masons = s.masons := rfl
@[simp] theorem setPower_port (p : Power) (s : State) : (setPower p s).port = s.port := rfl
@[simp] theorem setPower_timers (p : Power) (s : State) : (setPower p s).timers = s.timers := rfl
@[simp] theorem setPower_checks (p : Power) (s : State) : (setPower p s).checks = s.checks := rfl
@[simp] theorem setPower_nvl (p : Power) (s : State) : (setPower p s).nvl = s.nvl := rfl
@[simp] theorem setPower_telemPrev (p : Power) (s : State) : (setPower p s).telemPrev = s.telemPrev := rfl
@[simp] theorem setPower_work (p : Power) (s : State) : (setPower p s).work = s.work := rfl

@[simp] theorem setBoot_pending (b : Boot) (s : State) : (setBoot b s).pending = s.pending := rfl
@[simp] theorem setBoot_now (b : Boot) (s : State) : (setBoot b s).now = s.now := rfl
@[simp] theorem setBoot_freeIndex (b : Boot) (s : State) : (setBoot b s).freeIndex = s.freeIndex := rfl
@[simp] theorem setBoot_phase (b : Boot) (s : State) : (setBoot b s).phase = s.phase := rfl
@[simp] theorem setBoot_boot (b : Boot) (s : State) : (setBoot b s).boot = s.boot := rfl
@[simp] theorem setBoot_regs (b : Boot) (s : State) : (setBoot b s).regs = s.regs := rfl
@[simp] theorem setBoot_snaps (b : Boot) (s : State) : (setBoot b s).snaps = s.snaps := rfl
@[simp] theorem setBoot_snapCtl (b : Boot) (s : State) : (setBoot b s).snapCtl = s.snapCtl := rfl
@[simp] theorem setBoot_doors (b : Boot) (s : State) : (setBoot b s).doors = s.doors := rfl
@[simp] theorem setBoot_queues (b : Boot) (s : State) : (setBoot b s).queues = s.queues := rfl
@[simp] theorem setBoot_txn (b : Boot) (s : State) : (setBoot b s).txn = s.txn := rfl
@[simp] theorem setBoot_mem (b : Boot) (s : State) : (setBoot b s).mem = s.mem := rfl
@[simp] theorem setBoot_host (b : Boot) (s : State) : (setBoot b s).host = s.host := rfl
@[simp] theorem setBoot_power (b : Boot) (s : State) : (setBoot b s).power = s.power := rfl
@[simp] theorem setBoot_bootUnit (b : Boot) (s : State) : (setBoot b s).bootUnit = b := rfl
@[simp] theorem setBoot_rtc (b : Boot) (s : State) : (setBoot b s).rtc = s.rtc := rfl
@[simp] theorem setBoot_clocks (b : Boot) (s : State) : (setBoot b s).clocks = s.clocks := rfl
@[simp] theorem setBoot_fld (b : Boot) (s : State) : (setBoot b s).fld = s.fld := rfl
@[simp] theorem setBoot_frx (b : Boot) (s : State) : (setBoot b s).frx = s.frx := rfl
@[simp] theorem setBoot_nfc (b : Boot) (s : State) : (setBoot b s).nfc = s.nfc := rfl
@[simp] theorem setBoot_card (b : Boot) (s : State) : (setBoot b s).card = s.card := rfl
@[simp] theorem setBoot_bcast (b : Boot) (s : State) : (setBoot b s).bcast = s.bcast := rfl
@[simp] theorem setBoot_twin (b : Boot) (s : State) : (setBoot b s).twin = s.twin := rfl
@[simp] theorem setBoot_cascade (b : Boot) (s : State) : (setBoot b s).cascade = s.cascade := rfl
@[simp] theorem setBoot_cipher (b : Boot) (s : State) : (setBoot b s).cipher = s.cipher := rfl
@[simp] theorem setBoot_ident (b : Boot) (s : State) : (setBoot b s).ident = s.ident := rfl
@[simp] theorem setBoot_decoder (b : Boot) (s : State) : (setBoot b s).decoder = s.decoder := rfl
@[simp] theorem setBoot_radio (b : Boot) (s : State) : (setBoot b s).radio = s.radio := rfl
@[simp] theorem setBoot_link (b : Boot) (s : State) : (setBoot b s).link = s.link := rfl
@[simp] theorem setBoot_masons (b : Boot) (s : State) : (setBoot b s).masons = s.masons := rfl
@[simp] theorem setBoot_port (b : Boot) (s : State) : (setBoot b s).port = s.port := rfl
@[simp] theorem setBoot_timers (b : Boot) (s : State) : (setBoot b s).timers = s.timers := rfl
@[simp] theorem setBoot_checks (b : Boot) (s : State) : (setBoot b s).checks = s.checks := rfl
@[simp] theorem setBoot_nvl (b : Boot) (s : State) : (setBoot b s).nvl = s.nvl := rfl
@[simp] theorem setBoot_telemPrev (b : Boot) (s : State) : (setBoot b s).telemPrev = s.telemPrev := rfl
@[simp] theorem setBoot_work (b : Boot) (s : State) : (setBoot b s).work = s.work := rfl

@[simp] theorem setNvl_pending (n : NvlUnit) (s : State) : (setNvl n s).pending = s.pending := rfl
@[simp] theorem setNvl_now (n : NvlUnit) (s : State) : (setNvl n s).now = s.now := rfl
@[simp] theorem setNvl_freeIndex (n : NvlUnit) (s : State) : (setNvl n s).freeIndex = s.freeIndex := rfl
@[simp] theorem setNvl_phase (n : NvlUnit) (s : State) : (setNvl n s).phase = s.phase := rfl
@[simp] theorem setNvl_boot (n : NvlUnit) (s : State) : (setNvl n s).boot = s.boot := rfl
@[simp] theorem setNvl_regs (n : NvlUnit) (s : State) : (setNvl n s).regs = s.regs := rfl
@[simp] theorem setNvl_snaps (n : NvlUnit) (s : State) : (setNvl n s).snaps = s.snaps := rfl
@[simp] theorem setNvl_snapCtl (n : NvlUnit) (s : State) : (setNvl n s).snapCtl = s.snapCtl := rfl
@[simp] theorem setNvl_doors (n : NvlUnit) (s : State) : (setNvl n s).doors = s.doors := rfl
@[simp] theorem setNvl_queues (n : NvlUnit) (s : State) : (setNvl n s).queues = s.queues := rfl
@[simp] theorem setNvl_txn (n : NvlUnit) (s : State) : (setNvl n s).txn = s.txn := rfl
@[simp] theorem setNvl_mem (n : NvlUnit) (s : State) : (setNvl n s).mem = s.mem := rfl
@[simp] theorem setNvl_host (n : NvlUnit) (s : State) : (setNvl n s).host = s.host := rfl
@[simp] theorem setNvl_power (n : NvlUnit) (s : State) : (setNvl n s).power = s.power := rfl
@[simp] theorem setNvl_bootUnit (n : NvlUnit) (s : State) : (setNvl n s).bootUnit = s.bootUnit := rfl
@[simp] theorem setNvl_rtc (n : NvlUnit) (s : State) : (setNvl n s).rtc = s.rtc := rfl
@[simp] theorem setNvl_clocks (n : NvlUnit) (s : State) : (setNvl n s).clocks = s.clocks := rfl
@[simp] theorem setNvl_fld (n : NvlUnit) (s : State) : (setNvl n s).fld = s.fld := rfl
@[simp] theorem setNvl_frx (n : NvlUnit) (s : State) : (setNvl n s).frx = s.frx := rfl
@[simp] theorem setNvl_nfc (n : NvlUnit) (s : State) : (setNvl n s).nfc = s.nfc := rfl
@[simp] theorem setNvl_card (n : NvlUnit) (s : State) : (setNvl n s).card = s.card := rfl
@[simp] theorem setNvl_bcast (n : NvlUnit) (s : State) : (setNvl n s).bcast = s.bcast := rfl
@[simp] theorem setNvl_twin (n : NvlUnit) (s : State) : (setNvl n s).twin = s.twin := rfl
@[simp] theorem setNvl_cascade (n : NvlUnit) (s : State) : (setNvl n s).cascade = s.cascade := rfl
@[simp] theorem setNvl_cipher (n : NvlUnit) (s : State) : (setNvl n s).cipher = s.cipher := rfl
@[simp] theorem setNvl_ident (n : NvlUnit) (s : State) : (setNvl n s).ident = s.ident := rfl
@[simp] theorem setNvl_decoder (n : NvlUnit) (s : State) : (setNvl n s).decoder = s.decoder := rfl
@[simp] theorem setNvl_radio (n : NvlUnit) (s : State) : (setNvl n s).radio = s.radio := rfl
@[simp] theorem setNvl_link (n : NvlUnit) (s : State) : (setNvl n s).link = s.link := rfl
@[simp] theorem setNvl_masons (n : NvlUnit) (s : State) : (setNvl n s).masons = s.masons := rfl
@[simp] theorem setNvl_port (n : NvlUnit) (s : State) : (setNvl n s).port = s.port := rfl
@[simp] theorem setNvl_timers (n : NvlUnit) (s : State) : (setNvl n s).timers = s.timers := rfl
@[simp] theorem setNvl_checks (n : NvlUnit) (s : State) : (setNvl n s).checks = s.checks := rfl
@[simp] theorem setNvl_nvl (n : NvlUnit) (s : State) : (setNvl n s).nvl = n := rfl
@[simp] theorem setNvl_telemPrev (n : NvlUnit) (s : State) : (setNvl n s).telemPrev = s.telemPrev := rfl
@[simp] theorem setNvl_work (n : NvlUnit) (s : State) : (setNvl n s).work = s.work := rfl

@[simp] theorem setTimers_pending (t : TimerUnit) (s : State) : (setTimers t s).pending = s.pending := rfl
@[simp] theorem setTimers_now (t : TimerUnit) (s : State) : (setTimers t s).now = s.now := rfl
@[simp] theorem setTimers_freeIndex (t : TimerUnit) (s : State) : (setTimers t s).freeIndex = s.freeIndex := rfl
@[simp] theorem setTimers_phase (t : TimerUnit) (s : State) : (setTimers t s).phase = s.phase := rfl
@[simp] theorem setTimers_boot (t : TimerUnit) (s : State) : (setTimers t s).boot = s.boot := rfl
@[simp] theorem setTimers_regs (t : TimerUnit) (s : State) : (setTimers t s).regs = s.regs := rfl
@[simp] theorem setTimers_snaps (t : TimerUnit) (s : State) : (setTimers t s).snaps = s.snaps := rfl
@[simp] theorem setTimers_snapCtl (t : TimerUnit) (s : State) : (setTimers t s).snapCtl = s.snapCtl := rfl
@[simp] theorem setTimers_doors (t : TimerUnit) (s : State) : (setTimers t s).doors = s.doors := rfl
@[simp] theorem setTimers_queues (t : TimerUnit) (s : State) : (setTimers t s).queues = s.queues := rfl
@[simp] theorem setTimers_txn (t : TimerUnit) (s : State) : (setTimers t s).txn = s.txn := rfl
@[simp] theorem setTimers_mem (t : TimerUnit) (s : State) : (setTimers t s).mem = s.mem := rfl
@[simp] theorem setTimers_host (t : TimerUnit) (s : State) : (setTimers t s).host = s.host := rfl
@[simp] theorem setTimers_power (t : TimerUnit) (s : State) : (setTimers t s).power = s.power := rfl
@[simp] theorem setTimers_bootUnit (t : TimerUnit) (s : State) : (setTimers t s).bootUnit = s.bootUnit := rfl
@[simp] theorem setTimers_rtc (t : TimerUnit) (s : State) : (setTimers t s).rtc = s.rtc := rfl
@[simp] theorem setTimers_clocks (t : TimerUnit) (s : State) : (setTimers t s).clocks = s.clocks := rfl
@[simp] theorem setTimers_fld (t : TimerUnit) (s : State) : (setTimers t s).fld = s.fld := rfl
@[simp] theorem setTimers_frx (t : TimerUnit) (s : State) : (setTimers t s).frx = s.frx := rfl
@[simp] theorem setTimers_nfc (t : TimerUnit) (s : State) : (setTimers t s).nfc = s.nfc := rfl
@[simp] theorem setTimers_card (t : TimerUnit) (s : State) : (setTimers t s).card = s.card := rfl
@[simp] theorem setTimers_bcast (t : TimerUnit) (s : State) : (setTimers t s).bcast = s.bcast := rfl
@[simp] theorem setTimers_twin (t : TimerUnit) (s : State) : (setTimers t s).twin = s.twin := rfl
@[simp] theorem setTimers_cascade (t : TimerUnit) (s : State) : (setTimers t s).cascade = s.cascade := rfl
@[simp] theorem setTimers_cipher (t : TimerUnit) (s : State) : (setTimers t s).cipher = s.cipher := rfl
@[simp] theorem setTimers_ident (t : TimerUnit) (s : State) : (setTimers t s).ident = s.ident := rfl
@[simp] theorem setTimers_decoder (t : TimerUnit) (s : State) : (setTimers t s).decoder = s.decoder := rfl
@[simp] theorem setTimers_radio (t : TimerUnit) (s : State) : (setTimers t s).radio = s.radio := rfl
@[simp] theorem setTimers_link (t : TimerUnit) (s : State) : (setTimers t s).link = s.link := rfl
@[simp] theorem setTimers_masons (t : TimerUnit) (s : State) : (setTimers t s).masons = s.masons := rfl
@[simp] theorem setTimers_port (t : TimerUnit) (s : State) : (setTimers t s).port = s.port := rfl
@[simp] theorem setTimers_timers (t : TimerUnit) (s : State) : (setTimers t s).timers = t := rfl
@[simp] theorem setTimers_checks (t : TimerUnit) (s : State) : (setTimers t s).checks = s.checks := rfl
@[simp] theorem setTimers_nvl (t : TimerUnit) (s : State) : (setTimers t s).nvl = s.nvl := rfl
@[simp] theorem setTimers_telemPrev (t : TimerUnit) (s : State) : (setTimers t s).telemPrev = s.telemPrev := rfl
@[simp] theorem setTimers_work (t : TimerUnit) (s : State) : (setTimers t s).work = s.work := rfl

@[simp] theorem setWork_pending (b : Background) (s : State) : (setWork b s).pending = s.pending := rfl
@[simp] theorem setWork_now (b : Background) (s : State) : (setWork b s).now = s.now := rfl
@[simp] theorem setWork_freeIndex (b : Background) (s : State) : (setWork b s).freeIndex = s.freeIndex := rfl
@[simp] theorem setWork_phase (b : Background) (s : State) : (setWork b s).phase = s.phase := rfl
@[simp] theorem setWork_boot (b : Background) (s : State) : (setWork b s).boot = s.boot := rfl
@[simp] theorem setWork_regs (b : Background) (s : State) : (setWork b s).regs = s.regs := rfl
@[simp] theorem setWork_snaps (b : Background) (s : State) : (setWork b s).snaps = s.snaps := rfl
@[simp] theorem setWork_snapCtl (b : Background) (s : State) : (setWork b s).snapCtl = s.snapCtl := rfl
@[simp] theorem setWork_doors (b : Background) (s : State) : (setWork b s).doors = s.doors := rfl
@[simp] theorem setWork_queues (b : Background) (s : State) : (setWork b s).queues = s.queues := rfl
@[simp] theorem setWork_txn (b : Background) (s : State) : (setWork b s).txn = s.txn := rfl
@[simp] theorem setWork_mem (b : Background) (s : State) : (setWork b s).mem = s.mem := rfl
@[simp] theorem setWork_host (b : Background) (s : State) : (setWork b s).host = s.host := rfl
@[simp] theorem setWork_power (b : Background) (s : State) : (setWork b s).power = s.power := rfl
@[simp] theorem setWork_bootUnit (b : Background) (s : State) : (setWork b s).bootUnit = s.bootUnit := rfl
@[simp] theorem setWork_rtc (b : Background) (s : State) : (setWork b s).rtc = s.rtc := rfl
@[simp] theorem setWork_clocks (b : Background) (s : State) : (setWork b s).clocks = s.clocks := rfl
@[simp] theorem setWork_fld (b : Background) (s : State) : (setWork b s).fld = s.fld := rfl
@[simp] theorem setWork_frx (b : Background) (s : State) : (setWork b s).frx = s.frx := rfl
@[simp] theorem setWork_nfc (b : Background) (s : State) : (setWork b s).nfc = s.nfc := rfl
@[simp] theorem setWork_card (b : Background) (s : State) : (setWork b s).card = s.card := rfl
@[simp] theorem setWork_bcast (b : Background) (s : State) : (setWork b s).bcast = s.bcast := rfl
@[simp] theorem setWork_twin (b : Background) (s : State) : (setWork b s).twin = s.twin := rfl
@[simp] theorem setWork_cascade (b : Background) (s : State) : (setWork b s).cascade = s.cascade := rfl
@[simp] theorem setWork_cipher (b : Background) (s : State) : (setWork b s).cipher = s.cipher := rfl
@[simp] theorem setWork_ident (b : Background) (s : State) : (setWork b s).ident = s.ident := rfl
@[simp] theorem setWork_decoder (b : Background) (s : State) : (setWork b s).decoder = s.decoder := rfl
@[simp] theorem setWork_radio (b : Background) (s : State) : (setWork b s).radio = s.radio := rfl
@[simp] theorem setWork_link (b : Background) (s : State) : (setWork b s).link = s.link := rfl
@[simp] theorem setWork_masons (b : Background) (s : State) : (setWork b s).masons = s.masons := rfl
@[simp] theorem setWork_port (b : Background) (s : State) : (setWork b s).port = s.port := rfl
@[simp] theorem setWork_timers (b : Background) (s : State) : (setWork b s).timers = s.timers := rfl
@[simp] theorem setWork_checks (b : Background) (s : State) : (setWork b s).checks = s.checks := rfl
@[simp] theorem setWork_nvl (b : Background) (s : State) : (setWork b s).nvl = s.nvl := rfl
@[simp] theorem setWork_telemPrev (b : Background) (s : State) : (setWork b s).telemPrev = s.telemPrev := rfl
@[simp] theorem setWork_work (b : Background) (s : State) : (setWork b s).work = b := rfl

@[simp] theorem setEdges_pending (n k : Nat) (s : State) : (setEdges n k s).pending = s.pending := rfl
@[simp] theorem setEdges_now (n k : Nat) (s : State) : (setEdges n k s).now = s.now := rfl
@[simp] theorem setEdges_freeIndex (n k : Nat) (s : State) : (setEdges n k s).freeIndex = s.freeIndex := rfl
@[simp] theorem setEdges_phase (n k : Nat) (s : State) : (setEdges n k s).phase = s.phase := rfl
@[simp] theorem setEdges_boot (n k : Nat) (s : State) : (setEdges n k s).boot = s.boot := rfl
@[simp] theorem setEdges_regs (n k : Nat) (s : State) : (setEdges n k s).regs = s.regs := rfl
@[simp] theorem setEdges_snaps (n k : Nat) (s : State) : (setEdges n k s).snaps = s.snaps := rfl
@[simp] theorem setEdges_snapCtl (n k : Nat) (s : State) : (setEdges n k s).snapCtl = s.snapCtl := rfl
@[simp] theorem setEdges_doors (n k : Nat) (s : State) : (setEdges n k s).doors = s.doors := rfl
@[simp] theorem setEdges_queues (n k : Nat) (s : State) : (setEdges n k s).queues = s.queues := rfl
@[simp] theorem setEdges_txn (n k : Nat) (s : State) : (setEdges n k s).txn = s.txn := rfl
@[simp] theorem setEdges_mem (n k : Nat) (s : State) : (setEdges n k s).mem = s.mem := rfl
@[simp] theorem setEdges_host (n k : Nat) (s : State) : (setEdges n k s).host = s.host := rfl
@[simp] theorem setEdges_power (n k : Nat) (s : State) : (setEdges n k s).power = s.power := rfl
@[simp] theorem setEdges_bootUnit (n k : Nat) (s : State) : (setEdges n k s).bootUnit = s.bootUnit := rfl
@[simp] theorem setEdges_rtc (n k : Nat) (s : State) : (setEdges n k s).rtc = s.rtc := rfl
@[simp] theorem setEdges_clocks (n k : Nat) (s : State) : (setEdges n k s).clocks = s.clocks := rfl
@[simp] theorem setEdges_fld (n k : Nat) (s : State) : (setEdges n k s).fld = s.fld := rfl
@[simp] theorem setEdges_frx (n k : Nat) (s : State) : (setEdges n k s).frx = s.frx := rfl
@[simp] theorem setEdges_nfc (n k : Nat) (s : State) : (setEdges n k s).nfc = s.nfc := rfl
@[simp] theorem setEdges_card (n k : Nat) (s : State) : (setEdges n k s).card = s.card := rfl
@[simp] theorem setEdges_bcast (n k : Nat) (s : State) : (setEdges n k s).bcast = s.bcast := rfl
@[simp] theorem setEdges_twin (n k : Nat) (s : State) : (setEdges n k s).twin = s.twin := rfl
@[simp] theorem setEdges_cascade (n k : Nat) (s : State) : (setEdges n k s).cascade = s.cascade := rfl
@[simp] theorem setEdges_cipher (n k : Nat) (s : State) : (setEdges n k s).cipher = s.cipher := rfl
@[simp] theorem setEdges_ident (n k : Nat) (s : State) : (setEdges n k s).ident = s.ident := rfl
@[simp] theorem setEdges_decoder (n k : Nat) (s : State) : (setEdges n k s).decoder = s.decoder := rfl
@[simp] theorem setEdges_radio (n k : Nat) (s : State) : (setEdges n k s).radio = s.radio := rfl
@[simp] theorem setEdges_link (n k : Nat) (s : State) : (setEdges n k s).link = s.link := rfl
@[simp] theorem setEdges_masons (n k : Nat) (s : State) : (setEdges n k s).masons = s.masons := rfl
@[simp] theorem setEdges_port (n k : Nat) (s : State) : (setEdges n k s).port = s.port := rfl
@[simp] theorem setEdges_checks (n k : Nat) (s : State) : (setEdges n k s).checks = s.checks := rfl
@[simp] theorem setEdges_nvl (n k : Nat) (s : State) : (setEdges n k s).nvl = s.nvl := rfl
@[simp] theorem setEdges_telemPrev (n k : Nat) (s : State) : (setEdges n k s).telemPrev = s.telemPrev := rfl
@[simp] theorem setEdges_work (n k : Nat) (s : State) : (setEdges n k s).work = s.work := rfl

@[simp] theorem wipeBank_pending (one : Bool) (s : State) : (wipeBank one s).pending = s.pending := rfl
@[simp] theorem wipeBank_now (one : Bool) (s : State) : (wipeBank one s).now = s.now := rfl
@[simp] theorem wipeBank_freeIndex (one : Bool) (s : State) : (wipeBank one s).freeIndex = s.freeIndex := rfl
@[simp] theorem wipeBank_phase (one : Bool) (s : State) : (wipeBank one s).phase = s.phase := rfl
@[simp] theorem wipeBank_boot (one : Bool) (s : State) : (wipeBank one s).boot = s.boot := rfl
@[simp] theorem wipeBank_regs (one : Bool) (s : State) : (wipeBank one s).regs = s.regs := rfl
@[simp] theorem wipeBank_snaps (one : Bool) (s : State) : (wipeBank one s).snaps = s.snaps := rfl
@[simp] theorem wipeBank_snapCtl (one : Bool) (s : State) : (wipeBank one s).snapCtl = s.snapCtl := rfl
@[simp] theorem wipeBank_doors (one : Bool) (s : State) : (wipeBank one s).doors = s.doors := rfl
@[simp] theorem wipeBank_queues (one : Bool) (s : State) : (wipeBank one s).queues = s.queues := rfl
@[simp] theorem wipeBank_txn (one : Bool) (s : State) : (wipeBank one s).txn = s.txn := rfl
@[simp] theorem wipeBank_host (one : Bool) (s : State) : (wipeBank one s).host = s.host := rfl
@[simp] theorem wipeBank_power (one : Bool) (s : State) : (wipeBank one s).power = s.power := rfl
@[simp] theorem wipeBank_bootUnit (one : Bool) (s : State) : (wipeBank one s).bootUnit = s.bootUnit := rfl
@[simp] theorem wipeBank_rtc (one : Bool) (s : State) : (wipeBank one s).rtc = s.rtc := rfl
@[simp] theorem wipeBank_clocks (one : Bool) (s : State) : (wipeBank one s).clocks = s.clocks := rfl
@[simp] theorem wipeBank_fld (one : Bool) (s : State) : (wipeBank one s).fld = s.fld := rfl
@[simp] theorem wipeBank_frx (one : Bool) (s : State) : (wipeBank one s).frx = s.frx := rfl
@[simp] theorem wipeBank_nfc (one : Bool) (s : State) : (wipeBank one s).nfc = s.nfc := rfl
@[simp] theorem wipeBank_card (one : Bool) (s : State) : (wipeBank one s).card = s.card := rfl
@[simp] theorem wipeBank_bcast (one : Bool) (s : State) : (wipeBank one s).bcast = s.bcast := rfl
@[simp] theorem wipeBank_twin (one : Bool) (s : State) : (wipeBank one s).twin = s.twin := rfl
@[simp] theorem wipeBank_cascade (one : Bool) (s : State) : (wipeBank one s).cascade = s.cascade := rfl
@[simp] theorem wipeBank_cipher (one : Bool) (s : State) : (wipeBank one s).cipher = s.cipher := rfl
@[simp] theorem wipeBank_ident (one : Bool) (s : State) : (wipeBank one s).ident = s.ident := rfl
@[simp] theorem wipeBank_decoder (one : Bool) (s : State) : (wipeBank one s).decoder = s.decoder := rfl
@[simp] theorem wipeBank_radio (one : Bool) (s : State) : (wipeBank one s).radio = s.radio := rfl
@[simp] theorem wipeBank_link (one : Bool) (s : State) : (wipeBank one s).link = s.link := rfl
@[simp] theorem wipeBank_masons (one : Bool) (s : State) : (wipeBank one s).masons = s.masons := rfl
@[simp] theorem wipeBank_port (one : Bool) (s : State) : (wipeBank one s).port = s.port := rfl
@[simp] theorem wipeBank_timers (one : Bool) (s : State) : (wipeBank one s).timers = s.timers := rfl
@[simp] theorem wipeBank_checks (one : Bool) (s : State) : (wipeBank one s).checks = s.checks := rfl
@[simp] theorem wipeBank_nvl (one : Bool) (s : State) : (wipeBank one s).nvl = s.nvl := rfl
@[simp] theorem wipeBank_telemPrev (one : Bool) (s : State) : (wipeBank one s).telemPrev = s.telemPrev := rfl
@[simp] theorem wipeBank_work (one : Bool) (s : State) : (wipeBank one s).work = s.work := rfl

@[simp] theorem mramWrite_pending (a : Nat) (bs : List Byte) (s : State) : (mramWrite a bs s).pending = s.pending := rfl
@[simp] theorem mramWrite_now (a : Nat) (bs : List Byte) (s : State) : (mramWrite a bs s).now = s.now := rfl
@[simp] theorem mramWrite_freeIndex (a : Nat) (bs : List Byte) (s : State) : (mramWrite a bs s).freeIndex = s.freeIndex := rfl
@[simp] theorem mramWrite_phase (a : Nat) (bs : List Byte) (s : State) : (mramWrite a bs s).phase = s.phase := rfl
@[simp] theorem mramWrite_boot (a : Nat) (bs : List Byte) (s : State) : (mramWrite a bs s).boot = s.boot := rfl
@[simp] theorem mramWrite_regs (a : Nat) (bs : List Byte) (s : State) : (mramWrite a bs s).regs = s.regs := rfl
@[simp] theorem mramWrite_snaps (a : Nat) (bs : List Byte) (s : State) : (mramWrite a bs s).snaps = s.snaps := rfl
@[simp] theorem mramWrite_snapCtl (a : Nat) (bs : List Byte) (s : State) : (mramWrite a bs s).snapCtl = s.snapCtl := rfl
@[simp] theorem mramWrite_doors (a : Nat) (bs : List Byte) (s : State) : (mramWrite a bs s).doors = s.doors := rfl
@[simp] theorem mramWrite_queues (a : Nat) (bs : List Byte) (s : State) : (mramWrite a bs s).queues = s.queues := rfl
@[simp] theorem mramWrite_txn (a : Nat) (bs : List Byte) (s : State) : (mramWrite a bs s).txn = s.txn := rfl
@[simp] theorem mramWrite_host (a : Nat) (bs : List Byte) (s : State) : (mramWrite a bs s).host = s.host := rfl
@[simp] theorem mramWrite_power (a : Nat) (bs : List Byte) (s : State) : (mramWrite a bs s).power = s.power := rfl
@[simp] theorem mramWrite_bootUnit (a : Nat) (bs : List Byte) (s : State) : (mramWrite a bs s).bootUnit = s.bootUnit := rfl
@[simp] theorem mramWrite_rtc (a : Nat) (bs : List Byte) (s : State) : (mramWrite a bs s).rtc = s.rtc := rfl
@[simp] theorem mramWrite_clocks (a : Nat) (bs : List Byte) (s : State) : (mramWrite a bs s).clocks = s.clocks := rfl
@[simp] theorem mramWrite_fld (a : Nat) (bs : List Byte) (s : State) : (mramWrite a bs s).fld = s.fld := rfl
@[simp] theorem mramWrite_frx (a : Nat) (bs : List Byte) (s : State) : (mramWrite a bs s).frx = s.frx := rfl
@[simp] theorem mramWrite_nfc (a : Nat) (bs : List Byte) (s : State) : (mramWrite a bs s).nfc = s.nfc := rfl
@[simp] theorem mramWrite_card (a : Nat) (bs : List Byte) (s : State) : (mramWrite a bs s).card = s.card := rfl
@[simp] theorem mramWrite_bcast (a : Nat) (bs : List Byte) (s : State) : (mramWrite a bs s).bcast = s.bcast := rfl
@[simp] theorem mramWrite_twin (a : Nat) (bs : List Byte) (s : State) : (mramWrite a bs s).twin = s.twin := rfl
@[simp] theorem mramWrite_cascade (a : Nat) (bs : List Byte) (s : State) : (mramWrite a bs s).cascade = s.cascade := rfl
@[simp] theorem mramWrite_cipher (a : Nat) (bs : List Byte) (s : State) : (mramWrite a bs s).cipher = s.cipher := rfl
@[simp] theorem mramWrite_ident (a : Nat) (bs : List Byte) (s : State) : (mramWrite a bs s).ident = s.ident := rfl
@[simp] theorem mramWrite_decoder (a : Nat) (bs : List Byte) (s : State) : (mramWrite a bs s).decoder = s.decoder := rfl
@[simp] theorem mramWrite_radio (a : Nat) (bs : List Byte) (s : State) : (mramWrite a bs s).radio = s.radio := rfl
@[simp] theorem mramWrite_link (a : Nat) (bs : List Byte) (s : State) : (mramWrite a bs s).link = s.link := rfl
@[simp] theorem mramWrite_masons (a : Nat) (bs : List Byte) (s : State) : (mramWrite a bs s).masons = s.masons := rfl
@[simp] theorem mramWrite_port (a : Nat) (bs : List Byte) (s : State) : (mramWrite a bs s).port = s.port := rfl
@[simp] theorem mramWrite_timers (a : Nat) (bs : List Byte) (s : State) : (mramWrite a bs s).timers = s.timers := rfl
@[simp] theorem mramWrite_checks (a : Nat) (bs : List Byte) (s : State) : (mramWrite a bs s).checks = s.checks := rfl
@[simp] theorem mramWrite_nvl (a : Nat) (bs : List Byte) (s : State) : (mramWrite a bs s).nvl = s.nvl := rfl
@[simp] theorem mramWrite_telemPrev (a : Nat) (bs : List Byte) (s : State) : (mramWrite a bs s).telemPrev = s.telemPrev := rfl
@[simp] theorem mramWrite_work (a : Nat) (bs : List Byte) (s : State) : (mramWrite a bs s).work = s.work := rfl

@[simp] theorem clearMarks_pending (w : Nat) (s : State) : (clearMarks w s).pending = s.pending := rfl
@[simp] theorem clearMarks_now (w : Nat) (s : State) : (clearMarks w s).now = s.now := rfl
@[simp] theorem clearMarks_freeIndex (w : Nat) (s : State) : (clearMarks w s).freeIndex = s.freeIndex := rfl
@[simp] theorem clearMarks_phase (w : Nat) (s : State) : (clearMarks w s).phase = s.phase := rfl
@[simp] theorem clearMarks_boot (w : Nat) (s : State) : (clearMarks w s).boot = s.boot := rfl
@[simp] theorem clearMarks_regs (w : Nat) (s : State) : (clearMarks w s).regs = s.regs := rfl
@[simp] theorem clearMarks_snaps (w : Nat) (s : State) : (clearMarks w s).snaps = s.snaps := rfl
@[simp] theorem clearMarks_snapCtl (w : Nat) (s : State) : (clearMarks w s).snapCtl = s.snapCtl := rfl
@[simp] theorem clearMarks_doors (w : Nat) (s : State) : (clearMarks w s).doors = s.doors := rfl
@[simp] theorem clearMarks_queues (w : Nat) (s : State) : (clearMarks w s).queues = s.queues := rfl
@[simp] theorem clearMarks_txn (w : Nat) (s : State) : (clearMarks w s).txn = s.txn := rfl
@[simp] theorem clearMarks_host (w : Nat) (s : State) : (clearMarks w s).host = s.host := rfl
@[simp] theorem clearMarks_power (w : Nat) (s : State) : (clearMarks w s).power = s.power := rfl
@[simp] theorem clearMarks_bootUnit (w : Nat) (s : State) : (clearMarks w s).bootUnit = s.bootUnit := rfl
@[simp] theorem clearMarks_rtc (w : Nat) (s : State) : (clearMarks w s).rtc = s.rtc := rfl
@[simp] theorem clearMarks_clocks (w : Nat) (s : State) : (clearMarks w s).clocks = s.clocks := rfl
@[simp] theorem clearMarks_fld (w : Nat) (s : State) : (clearMarks w s).fld = s.fld := rfl
@[simp] theorem clearMarks_frx (w : Nat) (s : State) : (clearMarks w s).frx = s.frx := rfl
@[simp] theorem clearMarks_nfc (w : Nat) (s : State) : (clearMarks w s).nfc = s.nfc := rfl
@[simp] theorem clearMarks_card (w : Nat) (s : State) : (clearMarks w s).card = s.card := rfl
@[simp] theorem clearMarks_bcast (w : Nat) (s : State) : (clearMarks w s).bcast = s.bcast := rfl
@[simp] theorem clearMarks_twin (w : Nat) (s : State) : (clearMarks w s).twin = s.twin := rfl
@[simp] theorem clearMarks_cascade (w : Nat) (s : State) : (clearMarks w s).cascade = s.cascade := rfl
@[simp] theorem clearMarks_cipher (w : Nat) (s : State) : (clearMarks w s).cipher = s.cipher := rfl
@[simp] theorem clearMarks_ident (w : Nat) (s : State) : (clearMarks w s).ident = s.ident := rfl
@[simp] theorem clearMarks_decoder (w : Nat) (s : State) : (clearMarks w s).decoder = s.decoder := rfl
@[simp] theorem clearMarks_radio (w : Nat) (s : State) : (clearMarks w s).radio = s.radio := rfl
@[simp] theorem clearMarks_link (w : Nat) (s : State) : (clearMarks w s).link = s.link := rfl
@[simp] theorem clearMarks_masons (w : Nat) (s : State) : (clearMarks w s).masons = s.masons := rfl
@[simp] theorem clearMarks_port (w : Nat) (s : State) : (clearMarks w s).port = s.port := rfl
@[simp] theorem clearMarks_timers (w : Nat) (s : State) : (clearMarks w s).timers = s.timers := rfl
@[simp] theorem clearMarks_checks (w : Nat) (s : State) : (clearMarks w s).checks = s.checks := rfl
@[simp] theorem clearMarks_nvl (w : Nat) (s : State) : (clearMarks w s).nvl = s.nvl := rfl
@[simp] theorem clearMarks_telemPrev (w : Nat) (s : State) : (clearMarks w s).telemPrev = s.telemPrev := rfl
@[simp] theorem clearMarks_work (w : Nat) (s : State) : (clearMarks w s).work = s.work := rfl

/-! ## Operations that change stored registers only -/

/-- A fault raised keeps what storing a register keeps. -/
theorem raiseFault_keeps {α : Type} (f : State → α) (h1 : ∀ p b t, f (raiseEvent p b t) = f t)
    (h2 : ∀ i n t, f (setRegBit i n t) = f t) (h3 : ∀ i w t, f (setReg i w t) = f t) (p b detail : Nat) (s : State) :
    f (raiseFault p b detail s) = f s := by
  unfold raiseFault
  split
  · rw [h1, h1, h2, h3]
  · rw [h2]

@[simp] theorem setRegBits_pending (i msb lsb v : Nat) (s : State) : (setRegBits i msb lsb v s).pending = s.pending := setReg_pending _ _ s
@[simp] theorem setRegBits_now (i msb lsb v : Nat) (s : State) : (setRegBits i msb lsb v s).now = s.now := setReg_now _ _ s
@[simp] theorem setRegBits_freeIndex (i msb lsb v : Nat) (s : State) : (setRegBits i msb lsb v s).freeIndex = s.freeIndex := setReg_freeIndex _ _ s
@[simp] theorem setRegBits_phase (i msb lsb v : Nat) (s : State) : (setRegBits i msb lsb v s).phase = s.phase := setReg_phase _ _ s
@[simp] theorem setRegBits_boot (i msb lsb v : Nat) (s : State) : (setRegBits i msb lsb v s).boot = s.boot := setReg_boot _ _ s
@[simp] theorem setRegBits_snaps (i msb lsb v : Nat) (s : State) : (setRegBits i msb lsb v s).snaps = s.snaps := setReg_snaps _ _ s
@[simp] theorem setRegBits_snapCtl (i msb lsb v : Nat) (s : State) : (setRegBits i msb lsb v s).snapCtl = s.snapCtl := setReg_snapCtl _ _ s
@[simp] theorem setRegBits_doors (i msb lsb v : Nat) (s : State) : (setRegBits i msb lsb v s).doors = s.doors := setReg_doors _ _ s
@[simp] theorem setRegBits_queues (i msb lsb v : Nat) (s : State) : (setRegBits i msb lsb v s).queues = s.queues := setReg_queues _ _ s
@[simp] theorem setRegBits_txn (i msb lsb v : Nat) (s : State) : (setRegBits i msb lsb v s).txn = s.txn := setReg_txn _ _ s
@[simp] theorem setRegBits_mem (i msb lsb v : Nat) (s : State) : (setRegBits i msb lsb v s).mem = s.mem := setReg_mem _ _ s
@[simp] theorem setRegBits_host (i msb lsb v : Nat) (s : State) : (setRegBits i msb lsb v s).host = s.host := setReg_host _ _ s
@[simp] theorem setRegBits_power (i msb lsb v : Nat) (s : State) : (setRegBits i msb lsb v s).power = s.power := setReg_power _ _ s
@[simp] theorem setRegBits_bootUnit (i msb lsb v : Nat) (s : State) : (setRegBits i msb lsb v s).bootUnit = s.bootUnit := setReg_bootUnit _ _ s
@[simp] theorem setRegBits_rtc (i msb lsb v : Nat) (s : State) : (setRegBits i msb lsb v s).rtc = s.rtc := setReg_rtc _ _ s
@[simp] theorem setRegBits_clocks (i msb lsb v : Nat) (s : State) : (setRegBits i msb lsb v s).clocks = s.clocks := setReg_clocks _ _ s
@[simp] theorem setRegBits_fld (i msb lsb v : Nat) (s : State) : (setRegBits i msb lsb v s).fld = s.fld := setReg_fld _ _ s
@[simp] theorem setRegBits_frx (i msb lsb v : Nat) (s : State) : (setRegBits i msb lsb v s).frx = s.frx := setReg_frx _ _ s
@[simp] theorem setRegBits_nfc (i msb lsb v : Nat) (s : State) : (setRegBits i msb lsb v s).nfc = s.nfc := setReg_nfc _ _ s
@[simp] theorem setRegBits_card (i msb lsb v : Nat) (s : State) : (setRegBits i msb lsb v s).card = s.card := setReg_card _ _ s
@[simp] theorem setRegBits_bcast (i msb lsb v : Nat) (s : State) : (setRegBits i msb lsb v s).bcast = s.bcast := setReg_bcast _ _ s
@[simp] theorem setRegBits_twin (i msb lsb v : Nat) (s : State) : (setRegBits i msb lsb v s).twin = s.twin := setReg_twin _ _ s
@[simp] theorem setRegBits_cascade (i msb lsb v : Nat) (s : State) : (setRegBits i msb lsb v s).cascade = s.cascade := setReg_cascade _ _ s
@[simp] theorem setRegBits_cipher (i msb lsb v : Nat) (s : State) : (setRegBits i msb lsb v s).cipher = s.cipher := setReg_cipher _ _ s
@[simp] theorem setRegBits_ident (i msb lsb v : Nat) (s : State) : (setRegBits i msb lsb v s).ident = s.ident := setReg_ident _ _ s
@[simp] theorem setRegBits_decoder (i msb lsb v : Nat) (s : State) : (setRegBits i msb lsb v s).decoder = s.decoder := setReg_decoder _ _ s
@[simp] theorem setRegBits_radio (i msb lsb v : Nat) (s : State) : (setRegBits i msb lsb v s).radio = s.radio := setReg_radio _ _ s
@[simp] theorem setRegBits_link (i msb lsb v : Nat) (s : State) : (setRegBits i msb lsb v s).link = s.link := setReg_link _ _ s
@[simp] theorem setRegBits_masons (i msb lsb v : Nat) (s : State) : (setRegBits i msb lsb v s).masons = s.masons := setReg_masons _ _ s
@[simp] theorem setRegBits_port (i msb lsb v : Nat) (s : State) : (setRegBits i msb lsb v s).port = s.port := setReg_port _ _ s
@[simp] theorem setRegBits_timers (i msb lsb v : Nat) (s : State) : (setRegBits i msb lsb v s).timers = s.timers := setReg_timers _ _ s
@[simp] theorem setRegBits_checks (i msb lsb v : Nat) (s : State) : (setRegBits i msb lsb v s).checks = s.checks := setReg_checks _ _ s
@[simp] theorem setRegBits_nvl (i msb lsb v : Nat) (s : State) : (setRegBits i msb lsb v s).nvl = s.nvl := setReg_nvl _ _ s
@[simp] theorem setRegBits_telemPrev (i msb lsb v : Nat) (s : State) : (setRegBits i msb lsb v s).telemPrev = s.telemPrev := setReg_telemPrev _ _ s
@[simp] theorem setRegBits_work (i msb lsb v : Nat) (s : State) : (setRegBits i msb lsb v s).work = s.work := setReg_work _ _ s

@[simp] theorem setRegBit_pending (i n : Nat) (s : State) : (setRegBit i n s).pending = s.pending := setReg_pending _ _ s
@[simp] theorem setRegBit_now (i n : Nat) (s : State) : (setRegBit i n s).now = s.now := setReg_now _ _ s
@[simp] theorem setRegBit_freeIndex (i n : Nat) (s : State) : (setRegBit i n s).freeIndex = s.freeIndex := setReg_freeIndex _ _ s
@[simp] theorem setRegBit_phase (i n : Nat) (s : State) : (setRegBit i n s).phase = s.phase := setReg_phase _ _ s
@[simp] theorem setRegBit_boot (i n : Nat) (s : State) : (setRegBit i n s).boot = s.boot := setReg_boot _ _ s
@[simp] theorem setRegBit_snaps (i n : Nat) (s : State) : (setRegBit i n s).snaps = s.snaps := setReg_snaps _ _ s
@[simp] theorem setRegBit_snapCtl (i n : Nat) (s : State) : (setRegBit i n s).snapCtl = s.snapCtl := setReg_snapCtl _ _ s
@[simp] theorem setRegBit_doors (i n : Nat) (s : State) : (setRegBit i n s).doors = s.doors := setReg_doors _ _ s
@[simp] theorem setRegBit_queues (i n : Nat) (s : State) : (setRegBit i n s).queues = s.queues := setReg_queues _ _ s
@[simp] theorem setRegBit_txn (i n : Nat) (s : State) : (setRegBit i n s).txn = s.txn := setReg_txn _ _ s
@[simp] theorem setRegBit_mem (i n : Nat) (s : State) : (setRegBit i n s).mem = s.mem := setReg_mem _ _ s
@[simp] theorem setRegBit_host (i n : Nat) (s : State) : (setRegBit i n s).host = s.host := setReg_host _ _ s
@[simp] theorem setRegBit_power (i n : Nat) (s : State) : (setRegBit i n s).power = s.power := setReg_power _ _ s
@[simp] theorem setRegBit_bootUnit (i n : Nat) (s : State) : (setRegBit i n s).bootUnit = s.bootUnit := setReg_bootUnit _ _ s
@[simp] theorem setRegBit_rtc (i n : Nat) (s : State) : (setRegBit i n s).rtc = s.rtc := setReg_rtc _ _ s
@[simp] theorem setRegBit_clocks (i n : Nat) (s : State) : (setRegBit i n s).clocks = s.clocks := setReg_clocks _ _ s
@[simp] theorem setRegBit_fld (i n : Nat) (s : State) : (setRegBit i n s).fld = s.fld := setReg_fld _ _ s
@[simp] theorem setRegBit_frx (i n : Nat) (s : State) : (setRegBit i n s).frx = s.frx := setReg_frx _ _ s
@[simp] theorem setRegBit_nfc (i n : Nat) (s : State) : (setRegBit i n s).nfc = s.nfc := setReg_nfc _ _ s
@[simp] theorem setRegBit_card (i n : Nat) (s : State) : (setRegBit i n s).card = s.card := setReg_card _ _ s
@[simp] theorem setRegBit_bcast (i n : Nat) (s : State) : (setRegBit i n s).bcast = s.bcast := setReg_bcast _ _ s
@[simp] theorem setRegBit_twin (i n : Nat) (s : State) : (setRegBit i n s).twin = s.twin := setReg_twin _ _ s
@[simp] theorem setRegBit_cascade (i n : Nat) (s : State) : (setRegBit i n s).cascade = s.cascade := setReg_cascade _ _ s
@[simp] theorem setRegBit_cipher (i n : Nat) (s : State) : (setRegBit i n s).cipher = s.cipher := setReg_cipher _ _ s
@[simp] theorem setRegBit_ident (i n : Nat) (s : State) : (setRegBit i n s).ident = s.ident := setReg_ident _ _ s
@[simp] theorem setRegBit_decoder (i n : Nat) (s : State) : (setRegBit i n s).decoder = s.decoder := setReg_decoder _ _ s
@[simp] theorem setRegBit_radio (i n : Nat) (s : State) : (setRegBit i n s).radio = s.radio := setReg_radio _ _ s
@[simp] theorem setRegBit_link (i n : Nat) (s : State) : (setRegBit i n s).link = s.link := setReg_link _ _ s
@[simp] theorem setRegBit_masons (i n : Nat) (s : State) : (setRegBit i n s).masons = s.masons := setReg_masons _ _ s
@[simp] theorem setRegBit_port (i n : Nat) (s : State) : (setRegBit i n s).port = s.port := setReg_port _ _ s
@[simp] theorem setRegBit_timers (i n : Nat) (s : State) : (setRegBit i n s).timers = s.timers := setReg_timers _ _ s
@[simp] theorem setRegBit_checks (i n : Nat) (s : State) : (setRegBit i n s).checks = s.checks := setReg_checks _ _ s
@[simp] theorem setRegBit_nvl (i n : Nat) (s : State) : (setRegBit i n s).nvl = s.nvl := setReg_nvl _ _ s
@[simp] theorem setRegBit_telemPrev (i n : Nat) (s : State) : (setRegBit i n s).telemPrev = s.telemPrev := setReg_telemPrev _ _ s
@[simp] theorem setRegBit_work (i n : Nat) (s : State) : (setRegBit i n s).work = s.work := setReg_work _ _ s

@[simp] theorem clearRegBit_pending (i n : Nat) (s : State) : (clearRegBit i n s).pending = s.pending := setReg_pending _ _ s
@[simp] theorem clearRegBit_now (i n : Nat) (s : State) : (clearRegBit i n s).now = s.now := setReg_now _ _ s
@[simp] theorem clearRegBit_freeIndex (i n : Nat) (s : State) : (clearRegBit i n s).freeIndex = s.freeIndex := setReg_freeIndex _ _ s
@[simp] theorem clearRegBit_phase (i n : Nat) (s : State) : (clearRegBit i n s).phase = s.phase := setReg_phase _ _ s
@[simp] theorem clearRegBit_boot (i n : Nat) (s : State) : (clearRegBit i n s).boot = s.boot := setReg_boot _ _ s
@[simp] theorem clearRegBit_snaps (i n : Nat) (s : State) : (clearRegBit i n s).snaps = s.snaps := setReg_snaps _ _ s
@[simp] theorem clearRegBit_snapCtl (i n : Nat) (s : State) : (clearRegBit i n s).snapCtl = s.snapCtl := setReg_snapCtl _ _ s
@[simp] theorem clearRegBit_doors (i n : Nat) (s : State) : (clearRegBit i n s).doors = s.doors := setReg_doors _ _ s
@[simp] theorem clearRegBit_queues (i n : Nat) (s : State) : (clearRegBit i n s).queues = s.queues := setReg_queues _ _ s
@[simp] theorem clearRegBit_txn (i n : Nat) (s : State) : (clearRegBit i n s).txn = s.txn := setReg_txn _ _ s
@[simp] theorem clearRegBit_mem (i n : Nat) (s : State) : (clearRegBit i n s).mem = s.mem := setReg_mem _ _ s
@[simp] theorem clearRegBit_host (i n : Nat) (s : State) : (clearRegBit i n s).host = s.host := setReg_host _ _ s
@[simp] theorem clearRegBit_power (i n : Nat) (s : State) : (clearRegBit i n s).power = s.power := setReg_power _ _ s
@[simp] theorem clearRegBit_bootUnit (i n : Nat) (s : State) : (clearRegBit i n s).bootUnit = s.bootUnit := setReg_bootUnit _ _ s
@[simp] theorem clearRegBit_rtc (i n : Nat) (s : State) : (clearRegBit i n s).rtc = s.rtc := setReg_rtc _ _ s
@[simp] theorem clearRegBit_clocks (i n : Nat) (s : State) : (clearRegBit i n s).clocks = s.clocks := setReg_clocks _ _ s
@[simp] theorem clearRegBit_fld (i n : Nat) (s : State) : (clearRegBit i n s).fld = s.fld := setReg_fld _ _ s
@[simp] theorem clearRegBit_frx (i n : Nat) (s : State) : (clearRegBit i n s).frx = s.frx := setReg_frx _ _ s
@[simp] theorem clearRegBit_nfc (i n : Nat) (s : State) : (clearRegBit i n s).nfc = s.nfc := setReg_nfc _ _ s
@[simp] theorem clearRegBit_card (i n : Nat) (s : State) : (clearRegBit i n s).card = s.card := setReg_card _ _ s
@[simp] theorem clearRegBit_bcast (i n : Nat) (s : State) : (clearRegBit i n s).bcast = s.bcast := setReg_bcast _ _ s
@[simp] theorem clearRegBit_twin (i n : Nat) (s : State) : (clearRegBit i n s).twin = s.twin := setReg_twin _ _ s
@[simp] theorem clearRegBit_cascade (i n : Nat) (s : State) : (clearRegBit i n s).cascade = s.cascade := setReg_cascade _ _ s
@[simp] theorem clearRegBit_cipher (i n : Nat) (s : State) : (clearRegBit i n s).cipher = s.cipher := setReg_cipher _ _ s
@[simp] theorem clearRegBit_ident (i n : Nat) (s : State) : (clearRegBit i n s).ident = s.ident := setReg_ident _ _ s
@[simp] theorem clearRegBit_decoder (i n : Nat) (s : State) : (clearRegBit i n s).decoder = s.decoder := setReg_decoder _ _ s
@[simp] theorem clearRegBit_radio (i n : Nat) (s : State) : (clearRegBit i n s).radio = s.radio := setReg_radio _ _ s
@[simp] theorem clearRegBit_link (i n : Nat) (s : State) : (clearRegBit i n s).link = s.link := setReg_link _ _ s
@[simp] theorem clearRegBit_masons (i n : Nat) (s : State) : (clearRegBit i n s).masons = s.masons := setReg_masons _ _ s
@[simp] theorem clearRegBit_port (i n : Nat) (s : State) : (clearRegBit i n s).port = s.port := setReg_port _ _ s
@[simp] theorem clearRegBit_timers (i n : Nat) (s : State) : (clearRegBit i n s).timers = s.timers := setReg_timers _ _ s
@[simp] theorem clearRegBit_checks (i n : Nat) (s : State) : (clearRegBit i n s).checks = s.checks := setReg_checks _ _ s
@[simp] theorem clearRegBit_nvl (i n : Nat) (s : State) : (clearRegBit i n s).nvl = s.nvl := setReg_nvl _ _ s
@[simp] theorem clearRegBit_telemPrev (i n : Nat) (s : State) : (clearRegBit i n s).telemPrev = s.telemPrev := setReg_telemPrev _ _ s
@[simp] theorem clearRegBit_work (i n : Nat) (s : State) : (clearRegBit i n s).work = s.work := setReg_work _ _ s

@[simp] theorem countReg_pending (i n : Nat) (s : State) : (countReg i n s).pending = s.pending := setReg_pending _ _ s
@[simp] theorem countReg_now (i n : Nat) (s : State) : (countReg i n s).now = s.now := setReg_now _ _ s
@[simp] theorem countReg_freeIndex (i n : Nat) (s : State) : (countReg i n s).freeIndex = s.freeIndex := setReg_freeIndex _ _ s
@[simp] theorem countReg_phase (i n : Nat) (s : State) : (countReg i n s).phase = s.phase := setReg_phase _ _ s
@[simp] theorem countReg_boot (i n : Nat) (s : State) : (countReg i n s).boot = s.boot := setReg_boot _ _ s
@[simp] theorem countReg_snaps (i n : Nat) (s : State) : (countReg i n s).snaps = s.snaps := setReg_snaps _ _ s
@[simp] theorem countReg_snapCtl (i n : Nat) (s : State) : (countReg i n s).snapCtl = s.snapCtl := setReg_snapCtl _ _ s
@[simp] theorem countReg_doors (i n : Nat) (s : State) : (countReg i n s).doors = s.doors := setReg_doors _ _ s
@[simp] theorem countReg_queues (i n : Nat) (s : State) : (countReg i n s).queues = s.queues := setReg_queues _ _ s
@[simp] theorem countReg_txn (i n : Nat) (s : State) : (countReg i n s).txn = s.txn := setReg_txn _ _ s
@[simp] theorem countReg_mem (i n : Nat) (s : State) : (countReg i n s).mem = s.mem := setReg_mem _ _ s
@[simp] theorem countReg_host (i n : Nat) (s : State) : (countReg i n s).host = s.host := setReg_host _ _ s
@[simp] theorem countReg_power (i n : Nat) (s : State) : (countReg i n s).power = s.power := setReg_power _ _ s
@[simp] theorem countReg_bootUnit (i n : Nat) (s : State) : (countReg i n s).bootUnit = s.bootUnit := setReg_bootUnit _ _ s
@[simp] theorem countReg_rtc (i n : Nat) (s : State) : (countReg i n s).rtc = s.rtc := setReg_rtc _ _ s
@[simp] theorem countReg_clocks (i n : Nat) (s : State) : (countReg i n s).clocks = s.clocks := setReg_clocks _ _ s
@[simp] theorem countReg_fld (i n : Nat) (s : State) : (countReg i n s).fld = s.fld := setReg_fld _ _ s
@[simp] theorem countReg_frx (i n : Nat) (s : State) : (countReg i n s).frx = s.frx := setReg_frx _ _ s
@[simp] theorem countReg_nfc (i n : Nat) (s : State) : (countReg i n s).nfc = s.nfc := setReg_nfc _ _ s
@[simp] theorem countReg_card (i n : Nat) (s : State) : (countReg i n s).card = s.card := setReg_card _ _ s
@[simp] theorem countReg_bcast (i n : Nat) (s : State) : (countReg i n s).bcast = s.bcast := setReg_bcast _ _ s
@[simp] theorem countReg_twin (i n : Nat) (s : State) : (countReg i n s).twin = s.twin := setReg_twin _ _ s
@[simp] theorem countReg_cascade (i n : Nat) (s : State) : (countReg i n s).cascade = s.cascade := setReg_cascade _ _ s
@[simp] theorem countReg_cipher (i n : Nat) (s : State) : (countReg i n s).cipher = s.cipher := setReg_cipher _ _ s
@[simp] theorem countReg_ident (i n : Nat) (s : State) : (countReg i n s).ident = s.ident := setReg_ident _ _ s
@[simp] theorem countReg_decoder (i n : Nat) (s : State) : (countReg i n s).decoder = s.decoder := setReg_decoder _ _ s
@[simp] theorem countReg_radio (i n : Nat) (s : State) : (countReg i n s).radio = s.radio := setReg_radio _ _ s
@[simp] theorem countReg_link (i n : Nat) (s : State) : (countReg i n s).link = s.link := setReg_link _ _ s
@[simp] theorem countReg_masons (i n : Nat) (s : State) : (countReg i n s).masons = s.masons := setReg_masons _ _ s
@[simp] theorem countReg_port (i n : Nat) (s : State) : (countReg i n s).port = s.port := setReg_port _ _ s
@[simp] theorem countReg_timers (i n : Nat) (s : State) : (countReg i n s).timers = s.timers := setReg_timers _ _ s
@[simp] theorem countReg_checks (i n : Nat) (s : State) : (countReg i n s).checks = s.checks := setReg_checks _ _ s
@[simp] theorem countReg_nvl (i n : Nat) (s : State) : (countReg i n s).nvl = s.nvl := setReg_nvl _ _ s
@[simp] theorem countReg_telemPrev (i n : Nat) (s : State) : (countReg i n s).telemPrev = s.telemPrev := setReg_telemPrev _ _ s
@[simp] theorem countReg_work (i n : Nat) (s : State) : (countReg i n s).work = s.work := setReg_work _ _ s

@[simp] theorem raiseEvent_pending (p b : Nat) (s : State) : (raiseEvent p b s).pending = s.pending := setRegBit_pending _ _ s
@[simp] theorem raiseEvent_now (p b : Nat) (s : State) : (raiseEvent p b s).now = s.now := setRegBit_now _ _ s
@[simp] theorem raiseEvent_freeIndex (p b : Nat) (s : State) : (raiseEvent p b s).freeIndex = s.freeIndex := setRegBit_freeIndex _ _ s
@[simp] theorem raiseEvent_phase (p b : Nat) (s : State) : (raiseEvent p b s).phase = s.phase := setRegBit_phase _ _ s
@[simp] theorem raiseEvent_boot (p b : Nat) (s : State) : (raiseEvent p b s).boot = s.boot := setRegBit_boot _ _ s
@[simp] theorem raiseEvent_snaps (p b : Nat) (s : State) : (raiseEvent p b s).snaps = s.snaps := setRegBit_snaps _ _ s
@[simp] theorem raiseEvent_snapCtl (p b : Nat) (s : State) : (raiseEvent p b s).snapCtl = s.snapCtl := setRegBit_snapCtl _ _ s
@[simp] theorem raiseEvent_doors (p b : Nat) (s : State) : (raiseEvent p b s).doors = s.doors := setRegBit_doors _ _ s
@[simp] theorem raiseEvent_queues (p b : Nat) (s : State) : (raiseEvent p b s).queues = s.queues := setRegBit_queues _ _ s
@[simp] theorem raiseEvent_txn (p b : Nat) (s : State) : (raiseEvent p b s).txn = s.txn := setRegBit_txn _ _ s
@[simp] theorem raiseEvent_mem (p b : Nat) (s : State) : (raiseEvent p b s).mem = s.mem := setRegBit_mem _ _ s
@[simp] theorem raiseEvent_host (p b : Nat) (s : State) : (raiseEvent p b s).host = s.host := setRegBit_host _ _ s
@[simp] theorem raiseEvent_power (p b : Nat) (s : State) : (raiseEvent p b s).power = s.power := setRegBit_power _ _ s
@[simp] theorem raiseEvent_bootUnit (p b : Nat) (s : State) : (raiseEvent p b s).bootUnit = s.bootUnit := setRegBit_bootUnit _ _ s
@[simp] theorem raiseEvent_rtc (p b : Nat) (s : State) : (raiseEvent p b s).rtc = s.rtc := setRegBit_rtc _ _ s
@[simp] theorem raiseEvent_clocks (p b : Nat) (s : State) : (raiseEvent p b s).clocks = s.clocks := setRegBit_clocks _ _ s
@[simp] theorem raiseEvent_fld (p b : Nat) (s : State) : (raiseEvent p b s).fld = s.fld := setRegBit_fld _ _ s
@[simp] theorem raiseEvent_frx (p b : Nat) (s : State) : (raiseEvent p b s).frx = s.frx := setRegBit_frx _ _ s
@[simp] theorem raiseEvent_nfc (p b : Nat) (s : State) : (raiseEvent p b s).nfc = s.nfc := setRegBit_nfc _ _ s
@[simp] theorem raiseEvent_card (p b : Nat) (s : State) : (raiseEvent p b s).card = s.card := setRegBit_card _ _ s
@[simp] theorem raiseEvent_bcast (p b : Nat) (s : State) : (raiseEvent p b s).bcast = s.bcast := setRegBit_bcast _ _ s
@[simp] theorem raiseEvent_twin (p b : Nat) (s : State) : (raiseEvent p b s).twin = s.twin := setRegBit_twin _ _ s
@[simp] theorem raiseEvent_cascade (p b : Nat) (s : State) : (raiseEvent p b s).cascade = s.cascade := setRegBit_cascade _ _ s
@[simp] theorem raiseEvent_cipher (p b : Nat) (s : State) : (raiseEvent p b s).cipher = s.cipher := setRegBit_cipher _ _ s
@[simp] theorem raiseEvent_ident (p b : Nat) (s : State) : (raiseEvent p b s).ident = s.ident := setRegBit_ident _ _ s
@[simp] theorem raiseEvent_decoder (p b : Nat) (s : State) : (raiseEvent p b s).decoder = s.decoder := setRegBit_decoder _ _ s
@[simp] theorem raiseEvent_radio (p b : Nat) (s : State) : (raiseEvent p b s).radio = s.radio := setRegBit_radio _ _ s
@[simp] theorem raiseEvent_link (p b : Nat) (s : State) : (raiseEvent p b s).link = s.link := setRegBit_link _ _ s
@[simp] theorem raiseEvent_masons (p b : Nat) (s : State) : (raiseEvent p b s).masons = s.masons := setRegBit_masons _ _ s
@[simp] theorem raiseEvent_port (p b : Nat) (s : State) : (raiseEvent p b s).port = s.port := setRegBit_port _ _ s
@[simp] theorem raiseEvent_timers (p b : Nat) (s : State) : (raiseEvent p b s).timers = s.timers := setRegBit_timers _ _ s
@[simp] theorem raiseEvent_checks (p b : Nat) (s : State) : (raiseEvent p b s).checks = s.checks := setRegBit_checks _ _ s
@[simp] theorem raiseEvent_nvl (p b : Nat) (s : State) : (raiseEvent p b s).nvl = s.nvl := setRegBit_nvl _ _ s
@[simp] theorem raiseEvent_telemPrev (p b : Nat) (s : State) : (raiseEvent p b s).telemPrev = s.telemPrev := setRegBit_telemPrev _ _ s
@[simp] theorem raiseEvent_work (p b : Nat) (s : State) : (raiseEvent p b s).work = s.work := setRegBit_work _ _ s

@[simp] theorem raiseFault_pending (p b detail : Nat) (s : State) : (raiseFault p b detail s).pending = s.pending := raiseFault_keeps (fun u => u.pending) (fun _ _ t => raiseEvent_pending _ _ t) (fun _ _ t => setRegBit_pending _ _ t) (fun _ _ t => setReg_pending _ _ t) p b detail s
@[simp] theorem raiseFault_now (p b detail : Nat) (s : State) : (raiseFault p b detail s).now = s.now := raiseFault_keeps (fun u => u.now) (fun _ _ t => raiseEvent_now _ _ t) (fun _ _ t => setRegBit_now _ _ t) (fun _ _ t => setReg_now _ _ t) p b detail s
@[simp] theorem raiseFault_freeIndex (p b detail : Nat) (s : State) : (raiseFault p b detail s).freeIndex = s.freeIndex := raiseFault_keeps (fun u => u.freeIndex) (fun _ _ t => raiseEvent_freeIndex _ _ t) (fun _ _ t => setRegBit_freeIndex _ _ t) (fun _ _ t => setReg_freeIndex _ _ t) p b detail s
@[simp] theorem raiseFault_phase (p b detail : Nat) (s : State) : (raiseFault p b detail s).phase = s.phase := raiseFault_keeps (fun u => u.phase) (fun _ _ t => raiseEvent_phase _ _ t) (fun _ _ t => setRegBit_phase _ _ t) (fun _ _ t => setReg_phase _ _ t) p b detail s
@[simp] theorem raiseFault_boot (p b detail : Nat) (s : State) : (raiseFault p b detail s).boot = s.boot := raiseFault_keeps (fun u => u.boot) (fun _ _ t => raiseEvent_boot _ _ t) (fun _ _ t => setRegBit_boot _ _ t) (fun _ _ t => setReg_boot _ _ t) p b detail s
@[simp] theorem raiseFault_snaps (p b detail : Nat) (s : State) : (raiseFault p b detail s).snaps = s.snaps := raiseFault_keeps (fun u => u.snaps) (fun _ _ t => raiseEvent_snaps _ _ t) (fun _ _ t => setRegBit_snaps _ _ t) (fun _ _ t => setReg_snaps _ _ t) p b detail s
@[simp] theorem raiseFault_snapCtl (p b detail : Nat) (s : State) : (raiseFault p b detail s).snapCtl = s.snapCtl := raiseFault_keeps (fun u => u.snapCtl) (fun _ _ t => raiseEvent_snapCtl _ _ t) (fun _ _ t => setRegBit_snapCtl _ _ t) (fun _ _ t => setReg_snapCtl _ _ t) p b detail s
@[simp] theorem raiseFault_doors (p b detail : Nat) (s : State) : (raiseFault p b detail s).doors = s.doors := raiseFault_keeps (fun u => u.doors) (fun _ _ t => raiseEvent_doors _ _ t) (fun _ _ t => setRegBit_doors _ _ t) (fun _ _ t => setReg_doors _ _ t) p b detail s
@[simp] theorem raiseFault_queues (p b detail : Nat) (s : State) : (raiseFault p b detail s).queues = s.queues := raiseFault_keeps (fun u => u.queues) (fun _ _ t => raiseEvent_queues _ _ t) (fun _ _ t => setRegBit_queues _ _ t) (fun _ _ t => setReg_queues _ _ t) p b detail s
@[simp] theorem raiseFault_txn (p b detail : Nat) (s : State) : (raiseFault p b detail s).txn = s.txn := raiseFault_keeps (fun u => u.txn) (fun _ _ t => raiseEvent_txn _ _ t) (fun _ _ t => setRegBit_txn _ _ t) (fun _ _ t => setReg_txn _ _ t) p b detail s
@[simp] theorem raiseFault_mem (p b detail : Nat) (s : State) : (raiseFault p b detail s).mem = s.mem := raiseFault_keeps (fun u => u.mem) (fun _ _ t => raiseEvent_mem _ _ t) (fun _ _ t => setRegBit_mem _ _ t) (fun _ _ t => setReg_mem _ _ t) p b detail s
@[simp] theorem raiseFault_host (p b detail : Nat) (s : State) : (raiseFault p b detail s).host = s.host := raiseFault_keeps (fun u => u.host) (fun _ _ t => raiseEvent_host _ _ t) (fun _ _ t => setRegBit_host _ _ t) (fun _ _ t => setReg_host _ _ t) p b detail s
@[simp] theorem raiseFault_power (p b detail : Nat) (s : State) : (raiseFault p b detail s).power = s.power := raiseFault_keeps (fun u => u.power) (fun _ _ t => raiseEvent_power _ _ t) (fun _ _ t => setRegBit_power _ _ t) (fun _ _ t => setReg_power _ _ t) p b detail s
@[simp] theorem raiseFault_bootUnit (p b detail : Nat) (s : State) : (raiseFault p b detail s).bootUnit = s.bootUnit := raiseFault_keeps (fun u => u.bootUnit) (fun _ _ t => raiseEvent_bootUnit _ _ t) (fun _ _ t => setRegBit_bootUnit _ _ t) (fun _ _ t => setReg_bootUnit _ _ t) p b detail s
@[simp] theorem raiseFault_rtc (p b detail : Nat) (s : State) : (raiseFault p b detail s).rtc = s.rtc := raiseFault_keeps (fun u => u.rtc) (fun _ _ t => raiseEvent_rtc _ _ t) (fun _ _ t => setRegBit_rtc _ _ t) (fun _ _ t => setReg_rtc _ _ t) p b detail s
@[simp] theorem raiseFault_clocks (p b detail : Nat) (s : State) : (raiseFault p b detail s).clocks = s.clocks := raiseFault_keeps (fun u => u.clocks) (fun _ _ t => raiseEvent_clocks _ _ t) (fun _ _ t => setRegBit_clocks _ _ t) (fun _ _ t => setReg_clocks _ _ t) p b detail s
@[simp] theorem raiseFault_fld (p b detail : Nat) (s : State) : (raiseFault p b detail s).fld = s.fld := raiseFault_keeps (fun u => u.fld) (fun _ _ t => raiseEvent_fld _ _ t) (fun _ _ t => setRegBit_fld _ _ t) (fun _ _ t => setReg_fld _ _ t) p b detail s
@[simp] theorem raiseFault_frx (p b detail : Nat) (s : State) : (raiseFault p b detail s).frx = s.frx := raiseFault_keeps (fun u => u.frx) (fun _ _ t => raiseEvent_frx _ _ t) (fun _ _ t => setRegBit_frx _ _ t) (fun _ _ t => setReg_frx _ _ t) p b detail s
@[simp] theorem raiseFault_nfc (p b detail : Nat) (s : State) : (raiseFault p b detail s).nfc = s.nfc := raiseFault_keeps (fun u => u.nfc) (fun _ _ t => raiseEvent_nfc _ _ t) (fun _ _ t => setRegBit_nfc _ _ t) (fun _ _ t => setReg_nfc _ _ t) p b detail s
@[simp] theorem raiseFault_card (p b detail : Nat) (s : State) : (raiseFault p b detail s).card = s.card := raiseFault_keeps (fun u => u.card) (fun _ _ t => raiseEvent_card _ _ t) (fun _ _ t => setRegBit_card _ _ t) (fun _ _ t => setReg_card _ _ t) p b detail s
@[simp] theorem raiseFault_bcast (p b detail : Nat) (s : State) : (raiseFault p b detail s).bcast = s.bcast := raiseFault_keeps (fun u => u.bcast) (fun _ _ t => raiseEvent_bcast _ _ t) (fun _ _ t => setRegBit_bcast _ _ t) (fun _ _ t => setReg_bcast _ _ t) p b detail s
@[simp] theorem raiseFault_twin (p b detail : Nat) (s : State) : (raiseFault p b detail s).twin = s.twin := raiseFault_keeps (fun u => u.twin) (fun _ _ t => raiseEvent_twin _ _ t) (fun _ _ t => setRegBit_twin _ _ t) (fun _ _ t => setReg_twin _ _ t) p b detail s
@[simp] theorem raiseFault_cascade (p b detail : Nat) (s : State) : (raiseFault p b detail s).cascade = s.cascade := raiseFault_keeps (fun u => u.cascade) (fun _ _ t => raiseEvent_cascade _ _ t) (fun _ _ t => setRegBit_cascade _ _ t) (fun _ _ t => setReg_cascade _ _ t) p b detail s
@[simp] theorem raiseFault_cipher (p b detail : Nat) (s : State) : (raiseFault p b detail s).cipher = s.cipher := raiseFault_keeps (fun u => u.cipher) (fun _ _ t => raiseEvent_cipher _ _ t) (fun _ _ t => setRegBit_cipher _ _ t) (fun _ _ t => setReg_cipher _ _ t) p b detail s
@[simp] theorem raiseFault_ident (p b detail : Nat) (s : State) : (raiseFault p b detail s).ident = s.ident := raiseFault_keeps (fun u => u.ident) (fun _ _ t => raiseEvent_ident _ _ t) (fun _ _ t => setRegBit_ident _ _ t) (fun _ _ t => setReg_ident _ _ t) p b detail s
@[simp] theorem raiseFault_decoder (p b detail : Nat) (s : State) : (raiseFault p b detail s).decoder = s.decoder := raiseFault_keeps (fun u => u.decoder) (fun _ _ t => raiseEvent_decoder _ _ t) (fun _ _ t => setRegBit_decoder _ _ t) (fun _ _ t => setReg_decoder _ _ t) p b detail s
@[simp] theorem raiseFault_radio (p b detail : Nat) (s : State) : (raiseFault p b detail s).radio = s.radio := raiseFault_keeps (fun u => u.radio) (fun _ _ t => raiseEvent_radio _ _ t) (fun _ _ t => setRegBit_radio _ _ t) (fun _ _ t => setReg_radio _ _ t) p b detail s
@[simp] theorem raiseFault_link (p b detail : Nat) (s : State) : (raiseFault p b detail s).link = s.link := raiseFault_keeps (fun u => u.link) (fun _ _ t => raiseEvent_link _ _ t) (fun _ _ t => setRegBit_link _ _ t) (fun _ _ t => setReg_link _ _ t) p b detail s
@[simp] theorem raiseFault_masons (p b detail : Nat) (s : State) : (raiseFault p b detail s).masons = s.masons := raiseFault_keeps (fun u => u.masons) (fun _ _ t => raiseEvent_masons _ _ t) (fun _ _ t => setRegBit_masons _ _ t) (fun _ _ t => setReg_masons _ _ t) p b detail s
@[simp] theorem raiseFault_port (p b detail : Nat) (s : State) : (raiseFault p b detail s).port = s.port := raiseFault_keeps (fun u => u.port) (fun _ _ t => raiseEvent_port _ _ t) (fun _ _ t => setRegBit_port _ _ t) (fun _ _ t => setReg_port _ _ t) p b detail s
@[simp] theorem raiseFault_timers (p b detail : Nat) (s : State) : (raiseFault p b detail s).timers = s.timers := raiseFault_keeps (fun u => u.timers) (fun _ _ t => raiseEvent_timers _ _ t) (fun _ _ t => setRegBit_timers _ _ t) (fun _ _ t => setReg_timers _ _ t) p b detail s
@[simp] theorem raiseFault_checks (p b detail : Nat) (s : State) : (raiseFault p b detail s).checks = s.checks := raiseFault_keeps (fun u => u.checks) (fun _ _ t => raiseEvent_checks _ _ t) (fun _ _ t => setRegBit_checks _ _ t) (fun _ _ t => setReg_checks _ _ t) p b detail s
@[simp] theorem raiseFault_nvl (p b detail : Nat) (s : State) : (raiseFault p b detail s).nvl = s.nvl := raiseFault_keeps (fun u => u.nvl) (fun _ _ t => raiseEvent_nvl _ _ t) (fun _ _ t => setRegBit_nvl _ _ t) (fun _ _ t => setReg_nvl _ _ t) p b detail s
@[simp] theorem raiseFault_telemPrev (p b detail : Nat) (s : State) : (raiseFault p b detail s).telemPrev = s.telemPrev := raiseFault_keeps (fun u => u.telemPrev) (fun _ _ t => raiseEvent_telemPrev _ _ t) (fun _ _ t => setRegBit_telemPrev _ _ t) (fun _ _ t => setReg_telemPrev _ _ t) p b detail s
@[simp] theorem raiseFault_work (p b detail : Nat) (s : State) : (raiseFault p b detail s).work = s.work := raiseFault_keeps (fun u => u.work) (fun _ _ t => raiseEvent_work _ _ t) (fun _ _ t => setRegBit_work _ _ t) (fun _ _ t => setReg_work _ _ t) p b detail s

@[simp] theorem rejectWrite_pending (p : Nat) (req : Requester) (reason index : Nat) (s : State) : (rejectWrite p req reason index s).pending = s.pending := (raiseEvent_pending _ _ _).trans (setReg_pending _ _ s)
@[simp] theorem rejectWrite_now (p : Nat) (req : Requester) (reason index : Nat) (s : State) : (rejectWrite p req reason index s).now = s.now := (raiseEvent_now _ _ _).trans (setReg_now _ _ s)
@[simp] theorem rejectWrite_freeIndex (p : Nat) (req : Requester) (reason index : Nat) (s : State) : (rejectWrite p req reason index s).freeIndex = s.freeIndex := (raiseEvent_freeIndex _ _ _).trans (setReg_freeIndex _ _ s)
@[simp] theorem rejectWrite_phase (p : Nat) (req : Requester) (reason index : Nat) (s : State) : (rejectWrite p req reason index s).phase = s.phase := (raiseEvent_phase _ _ _).trans (setReg_phase _ _ s)
@[simp] theorem rejectWrite_boot (p : Nat) (req : Requester) (reason index : Nat) (s : State) : (rejectWrite p req reason index s).boot = s.boot := (raiseEvent_boot _ _ _).trans (setReg_boot _ _ s)
@[simp] theorem rejectWrite_snaps (p : Nat) (req : Requester) (reason index : Nat) (s : State) : (rejectWrite p req reason index s).snaps = s.snaps := (raiseEvent_snaps _ _ _).trans (setReg_snaps _ _ s)
@[simp] theorem rejectWrite_snapCtl (p : Nat) (req : Requester) (reason index : Nat) (s : State) : (rejectWrite p req reason index s).snapCtl = s.snapCtl := (raiseEvent_snapCtl _ _ _).trans (setReg_snapCtl _ _ s)
@[simp] theorem rejectWrite_doors (p : Nat) (req : Requester) (reason index : Nat) (s : State) : (rejectWrite p req reason index s).doors = s.doors := (raiseEvent_doors _ _ _).trans (setReg_doors _ _ s)
@[simp] theorem rejectWrite_queues (p : Nat) (req : Requester) (reason index : Nat) (s : State) : (rejectWrite p req reason index s).queues = s.queues := (raiseEvent_queues _ _ _).trans (setReg_queues _ _ s)
@[simp] theorem rejectWrite_txn (p : Nat) (req : Requester) (reason index : Nat) (s : State) : (rejectWrite p req reason index s).txn = s.txn := (raiseEvent_txn _ _ _).trans (setReg_txn _ _ s)
@[simp] theorem rejectWrite_mem (p : Nat) (req : Requester) (reason index : Nat) (s : State) : (rejectWrite p req reason index s).mem = s.mem := (raiseEvent_mem _ _ _).trans (setReg_mem _ _ s)
@[simp] theorem rejectWrite_host (p : Nat) (req : Requester) (reason index : Nat) (s : State) : (rejectWrite p req reason index s).host = s.host := (raiseEvent_host _ _ _).trans (setReg_host _ _ s)
@[simp] theorem rejectWrite_power (p : Nat) (req : Requester) (reason index : Nat) (s : State) : (rejectWrite p req reason index s).power = s.power := (raiseEvent_power _ _ _).trans (setReg_power _ _ s)
@[simp] theorem rejectWrite_bootUnit (p : Nat) (req : Requester) (reason index : Nat) (s : State) : (rejectWrite p req reason index s).bootUnit = s.bootUnit := (raiseEvent_bootUnit _ _ _).trans (setReg_bootUnit _ _ s)
@[simp] theorem rejectWrite_rtc (p : Nat) (req : Requester) (reason index : Nat) (s : State) : (rejectWrite p req reason index s).rtc = s.rtc := (raiseEvent_rtc _ _ _).trans (setReg_rtc _ _ s)
@[simp] theorem rejectWrite_clocks (p : Nat) (req : Requester) (reason index : Nat) (s : State) : (rejectWrite p req reason index s).clocks = s.clocks := (raiseEvent_clocks _ _ _).trans (setReg_clocks _ _ s)
@[simp] theorem rejectWrite_fld (p : Nat) (req : Requester) (reason index : Nat) (s : State) : (rejectWrite p req reason index s).fld = s.fld := (raiseEvent_fld _ _ _).trans (setReg_fld _ _ s)
@[simp] theorem rejectWrite_frx (p : Nat) (req : Requester) (reason index : Nat) (s : State) : (rejectWrite p req reason index s).frx = s.frx := (raiseEvent_frx _ _ _).trans (setReg_frx _ _ s)
@[simp] theorem rejectWrite_nfc (p : Nat) (req : Requester) (reason index : Nat) (s : State) : (rejectWrite p req reason index s).nfc = s.nfc := (raiseEvent_nfc _ _ _).trans (setReg_nfc _ _ s)
@[simp] theorem rejectWrite_card (p : Nat) (req : Requester) (reason index : Nat) (s : State) : (rejectWrite p req reason index s).card = s.card := (raiseEvent_card _ _ _).trans (setReg_card _ _ s)
@[simp] theorem rejectWrite_bcast (p : Nat) (req : Requester) (reason index : Nat) (s : State) : (rejectWrite p req reason index s).bcast = s.bcast := (raiseEvent_bcast _ _ _).trans (setReg_bcast _ _ s)
@[simp] theorem rejectWrite_twin (p : Nat) (req : Requester) (reason index : Nat) (s : State) : (rejectWrite p req reason index s).twin = s.twin := (raiseEvent_twin _ _ _).trans (setReg_twin _ _ s)
@[simp] theorem rejectWrite_cascade (p : Nat) (req : Requester) (reason index : Nat) (s : State) : (rejectWrite p req reason index s).cascade = s.cascade := (raiseEvent_cascade _ _ _).trans (setReg_cascade _ _ s)
@[simp] theorem rejectWrite_cipher (p : Nat) (req : Requester) (reason index : Nat) (s : State) : (rejectWrite p req reason index s).cipher = s.cipher := (raiseEvent_cipher _ _ _).trans (setReg_cipher _ _ s)
@[simp] theorem rejectWrite_ident (p : Nat) (req : Requester) (reason index : Nat) (s : State) : (rejectWrite p req reason index s).ident = s.ident := (raiseEvent_ident _ _ _).trans (setReg_ident _ _ s)
@[simp] theorem rejectWrite_decoder (p : Nat) (req : Requester) (reason index : Nat) (s : State) : (rejectWrite p req reason index s).decoder = s.decoder := (raiseEvent_decoder _ _ _).trans (setReg_decoder _ _ s)
@[simp] theorem rejectWrite_radio (p : Nat) (req : Requester) (reason index : Nat) (s : State) : (rejectWrite p req reason index s).radio = s.radio := (raiseEvent_radio _ _ _).trans (setReg_radio _ _ s)
@[simp] theorem rejectWrite_link (p : Nat) (req : Requester) (reason index : Nat) (s : State) : (rejectWrite p req reason index s).link = s.link := (raiseEvent_link _ _ _).trans (setReg_link _ _ s)
@[simp] theorem rejectWrite_masons (p : Nat) (req : Requester) (reason index : Nat) (s : State) : (rejectWrite p req reason index s).masons = s.masons := (raiseEvent_masons _ _ _).trans (setReg_masons _ _ s)
@[simp] theorem rejectWrite_port (p : Nat) (req : Requester) (reason index : Nat) (s : State) : (rejectWrite p req reason index s).port = s.port := (raiseEvent_port _ _ _).trans (setReg_port _ _ s)
@[simp] theorem rejectWrite_timers (p : Nat) (req : Requester) (reason index : Nat) (s : State) : (rejectWrite p req reason index s).timers = s.timers := (raiseEvent_timers _ _ _).trans (setReg_timers _ _ s)
@[simp] theorem rejectWrite_checks (p : Nat) (req : Requester) (reason index : Nat) (s : State) : (rejectWrite p req reason index s).checks = s.checks := (raiseEvent_checks _ _ _).trans (setReg_checks _ _ s)
@[simp] theorem rejectWrite_nvl (p : Nat) (req : Requester) (reason index : Nat) (s : State) : (rejectWrite p req reason index s).nvl = s.nvl := (raiseEvent_nvl _ _ _).trans (setReg_nvl _ _ s)
@[simp] theorem rejectWrite_telemPrev (p : Nat) (req : Requester) (reason index : Nat) (s : State) : (rejectWrite p req reason index s).telemPrev = s.telemPrev := (raiseEvent_telemPrev _ _ _).trans (setReg_telemPrev _ _ s)
@[simp] theorem rejectWrite_work (p : Nat) (req : Requester) (reason index : Nat) (s : State) : (rejectWrite p req reason index s).work = s.work := (raiseEvent_work _ _ _).trans (setReg_work _ _ s)

@[simp] theorem portSticky_pending (b : Nat) (s : State) : (portSticky b s).pending = s.pending := setRegBit_pending _ _ s
@[simp] theorem portSticky_now (b : Nat) (s : State) : (portSticky b s).now = s.now := setRegBit_now _ _ s
@[simp] theorem portSticky_freeIndex (b : Nat) (s : State) : (portSticky b s).freeIndex = s.freeIndex := setRegBit_freeIndex _ _ s
@[simp] theorem portSticky_phase (b : Nat) (s : State) : (portSticky b s).phase = s.phase := setRegBit_phase _ _ s
@[simp] theorem portSticky_boot (b : Nat) (s : State) : (portSticky b s).boot = s.boot := setRegBit_boot _ _ s
@[simp] theorem portSticky_snaps (b : Nat) (s : State) : (portSticky b s).snaps = s.snaps := setRegBit_snaps _ _ s
@[simp] theorem portSticky_snapCtl (b : Nat) (s : State) : (portSticky b s).snapCtl = s.snapCtl := setRegBit_snapCtl _ _ s
@[simp] theorem portSticky_doors (b : Nat) (s : State) : (portSticky b s).doors = s.doors := setRegBit_doors _ _ s
@[simp] theorem portSticky_queues (b : Nat) (s : State) : (portSticky b s).queues = s.queues := setRegBit_queues _ _ s
@[simp] theorem portSticky_txn (b : Nat) (s : State) : (portSticky b s).txn = s.txn := setRegBit_txn _ _ s
@[simp] theorem portSticky_mem (b : Nat) (s : State) : (portSticky b s).mem = s.mem := setRegBit_mem _ _ s
@[simp] theorem portSticky_host (b : Nat) (s : State) : (portSticky b s).host = s.host := setRegBit_host _ _ s
@[simp] theorem portSticky_power (b : Nat) (s : State) : (portSticky b s).power = s.power := setRegBit_power _ _ s
@[simp] theorem portSticky_bootUnit (b : Nat) (s : State) : (portSticky b s).bootUnit = s.bootUnit := setRegBit_bootUnit _ _ s
@[simp] theorem portSticky_rtc (b : Nat) (s : State) : (portSticky b s).rtc = s.rtc := setRegBit_rtc _ _ s
@[simp] theorem portSticky_clocks (b : Nat) (s : State) : (portSticky b s).clocks = s.clocks := setRegBit_clocks _ _ s
@[simp] theorem portSticky_fld (b : Nat) (s : State) : (portSticky b s).fld = s.fld := setRegBit_fld _ _ s
@[simp] theorem portSticky_frx (b : Nat) (s : State) : (portSticky b s).frx = s.frx := setRegBit_frx _ _ s
@[simp] theorem portSticky_nfc (b : Nat) (s : State) : (portSticky b s).nfc = s.nfc := setRegBit_nfc _ _ s
@[simp] theorem portSticky_card (b : Nat) (s : State) : (portSticky b s).card = s.card := setRegBit_card _ _ s
@[simp] theorem portSticky_bcast (b : Nat) (s : State) : (portSticky b s).bcast = s.bcast := setRegBit_bcast _ _ s
@[simp] theorem portSticky_twin (b : Nat) (s : State) : (portSticky b s).twin = s.twin := setRegBit_twin _ _ s
@[simp] theorem portSticky_cascade (b : Nat) (s : State) : (portSticky b s).cascade = s.cascade := setRegBit_cascade _ _ s
@[simp] theorem portSticky_cipher (b : Nat) (s : State) : (portSticky b s).cipher = s.cipher := setRegBit_cipher _ _ s
@[simp] theorem portSticky_ident (b : Nat) (s : State) : (portSticky b s).ident = s.ident := setRegBit_ident _ _ s
@[simp] theorem portSticky_decoder (b : Nat) (s : State) : (portSticky b s).decoder = s.decoder := setRegBit_decoder _ _ s
@[simp] theorem portSticky_radio (b : Nat) (s : State) : (portSticky b s).radio = s.radio := setRegBit_radio _ _ s
@[simp] theorem portSticky_link (b : Nat) (s : State) : (portSticky b s).link = s.link := setRegBit_link _ _ s
@[simp] theorem portSticky_masons (b : Nat) (s : State) : (portSticky b s).masons = s.masons := setRegBit_masons _ _ s
@[simp] theorem portSticky_port (b : Nat) (s : State) : (portSticky b s).port = s.port := setRegBit_port _ _ s
@[simp] theorem portSticky_timers (b : Nat) (s : State) : (portSticky b s).timers = s.timers := setRegBit_timers _ _ s
@[simp] theorem portSticky_checks (b : Nat) (s : State) : (portSticky b s).checks = s.checks := setRegBit_checks _ _ s
@[simp] theorem portSticky_nvl (b : Nat) (s : State) : (portSticky b s).nvl = s.nvl := setRegBit_nvl _ _ s
@[simp] theorem portSticky_telemPrev (b : Nat) (s : State) : (portSticky b s).telemPrev = s.telemPrev := setRegBit_telemPrev _ _ s
@[simp] theorem portSticky_work (b : Nat) (s : State) : (portSticky b s).work = s.work := setRegBit_work _ _ s

@[simp] theorem portError_pending (cause index : Nat) (s : State) : (portError cause index s).pending = s.pending := setReg_pending _ _ s
@[simp] theorem portError_now (cause index : Nat) (s : State) : (portError cause index s).now = s.now := setReg_now _ _ s
@[simp] theorem portError_freeIndex (cause index : Nat) (s : State) : (portError cause index s).freeIndex = s.freeIndex := setReg_freeIndex _ _ s
@[simp] theorem portError_phase (cause index : Nat) (s : State) : (portError cause index s).phase = s.phase := setReg_phase _ _ s
@[simp] theorem portError_boot (cause index : Nat) (s : State) : (portError cause index s).boot = s.boot := setReg_boot _ _ s
@[simp] theorem portError_snaps (cause index : Nat) (s : State) : (portError cause index s).snaps = s.snaps := setReg_snaps _ _ s
@[simp] theorem portError_snapCtl (cause index : Nat) (s : State) : (portError cause index s).snapCtl = s.snapCtl := setReg_snapCtl _ _ s
@[simp] theorem portError_doors (cause index : Nat) (s : State) : (portError cause index s).doors = s.doors := setReg_doors _ _ s
@[simp] theorem portError_queues (cause index : Nat) (s : State) : (portError cause index s).queues = s.queues := setReg_queues _ _ s
@[simp] theorem portError_txn (cause index : Nat) (s : State) : (portError cause index s).txn = s.txn := setReg_txn _ _ s
@[simp] theorem portError_mem (cause index : Nat) (s : State) : (portError cause index s).mem = s.mem := setReg_mem _ _ s
@[simp] theorem portError_host (cause index : Nat) (s : State) : (portError cause index s).host = s.host := setReg_host _ _ s
@[simp] theorem portError_power (cause index : Nat) (s : State) : (portError cause index s).power = s.power := setReg_power _ _ s
@[simp] theorem portError_bootUnit (cause index : Nat) (s : State) : (portError cause index s).bootUnit = s.bootUnit := setReg_bootUnit _ _ s
@[simp] theorem portError_rtc (cause index : Nat) (s : State) : (portError cause index s).rtc = s.rtc := setReg_rtc _ _ s
@[simp] theorem portError_clocks (cause index : Nat) (s : State) : (portError cause index s).clocks = s.clocks := setReg_clocks _ _ s
@[simp] theorem portError_fld (cause index : Nat) (s : State) : (portError cause index s).fld = s.fld := setReg_fld _ _ s
@[simp] theorem portError_frx (cause index : Nat) (s : State) : (portError cause index s).frx = s.frx := setReg_frx _ _ s
@[simp] theorem portError_nfc (cause index : Nat) (s : State) : (portError cause index s).nfc = s.nfc := setReg_nfc _ _ s
@[simp] theorem portError_card (cause index : Nat) (s : State) : (portError cause index s).card = s.card := setReg_card _ _ s
@[simp] theorem portError_bcast (cause index : Nat) (s : State) : (portError cause index s).bcast = s.bcast := setReg_bcast _ _ s
@[simp] theorem portError_twin (cause index : Nat) (s : State) : (portError cause index s).twin = s.twin := setReg_twin _ _ s
@[simp] theorem portError_cascade (cause index : Nat) (s : State) : (portError cause index s).cascade = s.cascade := setReg_cascade _ _ s
@[simp] theorem portError_cipher (cause index : Nat) (s : State) : (portError cause index s).cipher = s.cipher := setReg_cipher _ _ s
@[simp] theorem portError_ident (cause index : Nat) (s : State) : (portError cause index s).ident = s.ident := setReg_ident _ _ s
@[simp] theorem portError_decoder (cause index : Nat) (s : State) : (portError cause index s).decoder = s.decoder := setReg_decoder _ _ s
@[simp] theorem portError_radio (cause index : Nat) (s : State) : (portError cause index s).radio = s.radio := setReg_radio _ _ s
@[simp] theorem portError_link (cause index : Nat) (s : State) : (portError cause index s).link = s.link := setReg_link _ _ s
@[simp] theorem portError_masons (cause index : Nat) (s : State) : (portError cause index s).masons = s.masons := setReg_masons _ _ s
@[simp] theorem portError_port (cause index : Nat) (s : State) : (portError cause index s).port = s.port := setReg_port _ _ s
@[simp] theorem portError_timers (cause index : Nat) (s : State) : (portError cause index s).timers = s.timers := setReg_timers _ _ s
@[simp] theorem portError_checks (cause index : Nat) (s : State) : (portError cause index s).checks = s.checks := setReg_checks _ _ s
@[simp] theorem portError_nvl (cause index : Nat) (s : State) : (portError cause index s).nvl = s.nvl := setReg_nvl _ _ s
@[simp] theorem portError_telemPrev (cause index : Nat) (s : State) : (portError cause index s).telemPrev = s.telemPrev := setReg_telemPrev _ _ s
@[simp] theorem portError_work (cause index : Nat) (s : State) : (portError cause index s).work = s.work := setReg_work _ _ s

@[simp] theorem masonFault_pending (m : Fin 5) (b detail : Nat) (s : State) : (masonFault m b detail s).pending = s.pending := raiseFault_pending _ _ _ s
@[simp] theorem masonFault_now (m : Fin 5) (b detail : Nat) (s : State) : (masonFault m b detail s).now = s.now := raiseFault_now _ _ _ s
@[simp] theorem masonFault_freeIndex (m : Fin 5) (b detail : Nat) (s : State) : (masonFault m b detail s).freeIndex = s.freeIndex := raiseFault_freeIndex _ _ _ s
@[simp] theorem masonFault_phase (m : Fin 5) (b detail : Nat) (s : State) : (masonFault m b detail s).phase = s.phase := raiseFault_phase _ _ _ s
@[simp] theorem masonFault_boot (m : Fin 5) (b detail : Nat) (s : State) : (masonFault m b detail s).boot = s.boot := raiseFault_boot _ _ _ s
@[simp] theorem masonFault_snaps (m : Fin 5) (b detail : Nat) (s : State) : (masonFault m b detail s).snaps = s.snaps := raiseFault_snaps _ _ _ s
@[simp] theorem masonFault_snapCtl (m : Fin 5) (b detail : Nat) (s : State) : (masonFault m b detail s).snapCtl = s.snapCtl := raiseFault_snapCtl _ _ _ s
@[simp] theorem masonFault_doors (m : Fin 5) (b detail : Nat) (s : State) : (masonFault m b detail s).doors = s.doors := raiseFault_doors _ _ _ s
@[simp] theorem masonFault_queues (m : Fin 5) (b detail : Nat) (s : State) : (masonFault m b detail s).queues = s.queues := raiseFault_queues _ _ _ s
@[simp] theorem masonFault_txn (m : Fin 5) (b detail : Nat) (s : State) : (masonFault m b detail s).txn = s.txn := raiseFault_txn _ _ _ s
@[simp] theorem masonFault_mem (m : Fin 5) (b detail : Nat) (s : State) : (masonFault m b detail s).mem = s.mem := raiseFault_mem _ _ _ s
@[simp] theorem masonFault_host (m : Fin 5) (b detail : Nat) (s : State) : (masonFault m b detail s).host = s.host := raiseFault_host _ _ _ s
@[simp] theorem masonFault_power (m : Fin 5) (b detail : Nat) (s : State) : (masonFault m b detail s).power = s.power := raiseFault_power _ _ _ s
@[simp] theorem masonFault_bootUnit (m : Fin 5) (b detail : Nat) (s : State) : (masonFault m b detail s).bootUnit = s.bootUnit := raiseFault_bootUnit _ _ _ s
@[simp] theorem masonFault_rtc (m : Fin 5) (b detail : Nat) (s : State) : (masonFault m b detail s).rtc = s.rtc := raiseFault_rtc _ _ _ s
@[simp] theorem masonFault_clocks (m : Fin 5) (b detail : Nat) (s : State) : (masonFault m b detail s).clocks = s.clocks := raiseFault_clocks _ _ _ s
@[simp] theorem masonFault_fld (m : Fin 5) (b detail : Nat) (s : State) : (masonFault m b detail s).fld = s.fld := raiseFault_fld _ _ _ s
@[simp] theorem masonFault_frx (m : Fin 5) (b detail : Nat) (s : State) : (masonFault m b detail s).frx = s.frx := raiseFault_frx _ _ _ s
@[simp] theorem masonFault_nfc (m : Fin 5) (b detail : Nat) (s : State) : (masonFault m b detail s).nfc = s.nfc := raiseFault_nfc _ _ _ s
@[simp] theorem masonFault_card (m : Fin 5) (b detail : Nat) (s : State) : (masonFault m b detail s).card = s.card := raiseFault_card _ _ _ s
@[simp] theorem masonFault_bcast (m : Fin 5) (b detail : Nat) (s : State) : (masonFault m b detail s).bcast = s.bcast := raiseFault_bcast _ _ _ s
@[simp] theorem masonFault_twin (m : Fin 5) (b detail : Nat) (s : State) : (masonFault m b detail s).twin = s.twin := raiseFault_twin _ _ _ s
@[simp] theorem masonFault_cascade (m : Fin 5) (b detail : Nat) (s : State) : (masonFault m b detail s).cascade = s.cascade := raiseFault_cascade _ _ _ s
@[simp] theorem masonFault_cipher (m : Fin 5) (b detail : Nat) (s : State) : (masonFault m b detail s).cipher = s.cipher := raiseFault_cipher _ _ _ s
@[simp] theorem masonFault_ident (m : Fin 5) (b detail : Nat) (s : State) : (masonFault m b detail s).ident = s.ident := raiseFault_ident _ _ _ s
@[simp] theorem masonFault_decoder (m : Fin 5) (b detail : Nat) (s : State) : (masonFault m b detail s).decoder = s.decoder := raiseFault_decoder _ _ _ s
@[simp] theorem masonFault_radio (m : Fin 5) (b detail : Nat) (s : State) : (masonFault m b detail s).radio = s.radio := raiseFault_radio _ _ _ s
@[simp] theorem masonFault_link (m : Fin 5) (b detail : Nat) (s : State) : (masonFault m b detail s).link = s.link := raiseFault_link _ _ _ s
@[simp] theorem masonFault_masons (m : Fin 5) (b detail : Nat) (s : State) : (masonFault m b detail s).masons = s.masons := raiseFault_masons _ _ _ s
@[simp] theorem masonFault_port (m : Fin 5) (b detail : Nat) (s : State) : (masonFault m b detail s).port = s.port := raiseFault_port _ _ _ s
@[simp] theorem masonFault_timers (m : Fin 5) (b detail : Nat) (s : State) : (masonFault m b detail s).timers = s.timers := raiseFault_timers _ _ _ s
@[simp] theorem masonFault_checks (m : Fin 5) (b detail : Nat) (s : State) : (masonFault m b detail s).checks = s.checks := raiseFault_checks _ _ _ s
@[simp] theorem masonFault_nvl (m : Fin 5) (b detail : Nat) (s : State) : (masonFault m b detail s).nvl = s.nvl := raiseFault_nvl _ _ _ s
@[simp] theorem masonFault_telemPrev (m : Fin 5) (b detail : Nat) (s : State) : (masonFault m b detail s).telemPrev = s.telemPrev := raiseFault_telemPrev _ _ _ s
@[simp] theorem masonFault_work (m : Fin 5) (b detail : Nat) (s : State) : (masonFault m b detail s).work = s.work := raiseFault_work _ _ _ s

@[simp] theorem countBankOff_pending (s : State) : (countBankOff s).pending = s.pending := countReg_pending _ _ s
@[simp] theorem countBankOff_now (s : State) : (countBankOff s).now = s.now := countReg_now _ _ s
@[simp] theorem countBankOff_freeIndex (s : State) : (countBankOff s).freeIndex = s.freeIndex := countReg_freeIndex _ _ s
@[simp] theorem countBankOff_phase (s : State) : (countBankOff s).phase = s.phase := countReg_phase _ _ s
@[simp] theorem countBankOff_boot (s : State) : (countBankOff s).boot = s.boot := countReg_boot _ _ s
@[simp] theorem countBankOff_snaps (s : State) : (countBankOff s).snaps = s.snaps := countReg_snaps _ _ s
@[simp] theorem countBankOff_snapCtl (s : State) : (countBankOff s).snapCtl = s.snapCtl := countReg_snapCtl _ _ s
@[simp] theorem countBankOff_doors (s : State) : (countBankOff s).doors = s.doors := countReg_doors _ _ s
@[simp] theorem countBankOff_queues (s : State) : (countBankOff s).queues = s.queues := countReg_queues _ _ s
@[simp] theorem countBankOff_txn (s : State) : (countBankOff s).txn = s.txn := countReg_txn _ _ s
@[simp] theorem countBankOff_mem (s : State) : (countBankOff s).mem = s.mem := countReg_mem _ _ s
@[simp] theorem countBankOff_host (s : State) : (countBankOff s).host = s.host := countReg_host _ _ s
@[simp] theorem countBankOff_power (s : State) : (countBankOff s).power = s.power := countReg_power _ _ s
@[simp] theorem countBankOff_bootUnit (s : State) : (countBankOff s).bootUnit = s.bootUnit := countReg_bootUnit _ _ s
@[simp] theorem countBankOff_rtc (s : State) : (countBankOff s).rtc = s.rtc := countReg_rtc _ _ s
@[simp] theorem countBankOff_clocks (s : State) : (countBankOff s).clocks = s.clocks := countReg_clocks _ _ s
@[simp] theorem countBankOff_fld (s : State) : (countBankOff s).fld = s.fld := countReg_fld _ _ s
@[simp] theorem countBankOff_frx (s : State) : (countBankOff s).frx = s.frx := countReg_frx _ _ s
@[simp] theorem countBankOff_nfc (s : State) : (countBankOff s).nfc = s.nfc := countReg_nfc _ _ s
@[simp] theorem countBankOff_card (s : State) : (countBankOff s).card = s.card := countReg_card _ _ s
@[simp] theorem countBankOff_bcast (s : State) : (countBankOff s).bcast = s.bcast := countReg_bcast _ _ s
@[simp] theorem countBankOff_twin (s : State) : (countBankOff s).twin = s.twin := countReg_twin _ _ s
@[simp] theorem countBankOff_cascade (s : State) : (countBankOff s).cascade = s.cascade := countReg_cascade _ _ s
@[simp] theorem countBankOff_cipher (s : State) : (countBankOff s).cipher = s.cipher := countReg_cipher _ _ s
@[simp] theorem countBankOff_ident (s : State) : (countBankOff s).ident = s.ident := countReg_ident _ _ s
@[simp] theorem countBankOff_decoder (s : State) : (countBankOff s).decoder = s.decoder := countReg_decoder _ _ s
@[simp] theorem countBankOff_radio (s : State) : (countBankOff s).radio = s.radio := countReg_radio _ _ s
@[simp] theorem countBankOff_link (s : State) : (countBankOff s).link = s.link := countReg_link _ _ s
@[simp] theorem countBankOff_masons (s : State) : (countBankOff s).masons = s.masons := countReg_masons _ _ s
@[simp] theorem countBankOff_port (s : State) : (countBankOff s).port = s.port := countReg_port _ _ s
@[simp] theorem countBankOff_timers (s : State) : (countBankOff s).timers = s.timers := countReg_timers _ _ s
@[simp] theorem countBankOff_checks (s : State) : (countBankOff s).checks = s.checks := countReg_checks _ _ s
@[simp] theorem countBankOff_nvl (s : State) : (countBankOff s).nvl = s.nvl := countReg_nvl _ _ s
@[simp] theorem countBankOff_telemPrev (s : State) : (countBankOff s).telemPrev = s.telemPrev := countReg_telemPrev _ _ s
@[simp] theorem countBankOff_work (s : State) : (countBankOff s).work = s.work := countReg_work _ _ s

end Sys2Proof.Machine
end

