-- ==== Sys2Proof/Laws/Doors.lean ====
section
/-!
SUPPORT. Sys2Proof/Laws/Doors.lean: fields of words, result queues, and what a door write does where DoorOpen holds.
-/
namespace Sys2Proof.Machine

/-! ## Fields of words -/

theorem getLsbD_maskOf (m l i : Nat) (hi : i < 32) :
    (maskOf m l).getLsbD i = (decide (l ≤ i) && decide (i - l < m + 1 - l)) := by
  simp only [maskOf, BitVec.getLsbD_ofNat, hi, decide_true, Bool.true_and, Nat.testBit_mul_two_pow, Nat.testBit_two_pow_sub_one]

theorem getLsbD_fieldWord (m l v i : Nat) (hi : i < 32) :
    (fieldWord m l v).getLsbD i = (decide (l ≤ i) && (decide (i - l < m + 1 - l) && v.testBit (i - l))) := by
  simp only [fieldWord, BitVec.getLsbD_ofNat, hi, decide_true, Bool.true_and, Nat.testBit_mul_two_pow, Nat.testBit_mod_two_pow]

theorem testBit_bitsOf (w : Word) (m l i : Nat) :
    (bitsOf w m l).testBit i = (decide (i < m + 1 - l) && w.getLsbD (i + l)) := by
  simp only [bitsOf, Nat.testBit_mod_two_pow, Nat.testBit_div_two_pow, BitVec.testBit_toNat]

/-- A field written is read back. -/
theorem bitsOf_withBits (w : Word) (m l v : Nat) (hl : l ≤ m) (hm : m < 32) :
    bitsOf (withBits w m l v) m l = v % 2 ^ (m + 1 - l) := by
  apply Nat.eq_of_testBit_eq
  intro i
  rw [testBit_bitsOf, Nat.testBit_mod_two_pow]
  by_cases h : i < m + 1 - l
  · have h32 : i + l < 32 := by omega
    have hk : l ≤ i + l := by omega
    simp only [withBits, BitVec.getLsbD_or, BitVec.getLsbD_and, BitVec.getLsbD_not, getLsbD_maskOf _ _ _ h32,
      getLsbD_fieldWord _ _ _ _ h32, h, h32, hk, decide_true, Bool.and_self, Bool.not_true, Bool.and_false,
      Bool.false_or, Bool.true_and, Nat.add_sub_cancel]
  · simp [h]

/-- A field written leaves every field that does not meet it. -/
theorem bitsOf_withBits_apart (w : Word) (m l v m' l' : Nat) (h : m < l' ∨ m' < l) (hm : m' < 32) :
    bitsOf (withBits w m l v) m' l' = bitsOf w m' l' := by
  apply Nat.eq_of_testBit_eq
  intro i
  rw [testBit_bitsOf, testBit_bitsOf]
  by_cases hi : i < m' + 1 - l'
  · have h32 : i + l' < 32 := by omega
    have ho : (decide (l ≤ i + l') && decide (i + l' - l < m + 1 - l)) = false := by
      simp only [Bool.and_eq_false_iff, decide_eq_false_iff_not]
      omega
    have hf : (decide (l ≤ i + l') && (decide (i + l' - l < m + 1 - l) && v.testBit (i + l' - l))) = false := by
      rw [← Bool.and_assoc, ho, Bool.false_and]
    simp only [withBits, BitVec.getLsbD_or, BitVec.getLsbD_and, BitVec.getLsbD_not, getLsbD_maskOf _ _ _ h32,
      getLsbD_fieldWord _ _ _ _ h32, ho, hf, h32, decide_true, Bool.not_false, Bool.and_true, Bool.or_false]
  · simp [hi]

theorem regBits_setRegBits (i m l v : Nat) (s : State) (hl : l ≤ m) (hm : m < 32) :
    regBits (setRegBits i m l v s) i m l = v % 2 ^ (m + 1 - l) := by
  rw [regBits, setRegBits, getReg_setReg_self, bitsOf_withBits _ _ _ _ hl hm]

theorem regBits_setRegBits_apart (i m l v m' l' : Nat) (s : State) (h : m < l' ∨ m' < l) (hm : m' < 32) :
    regBits (setRegBits i m l v s) i m' l' = regBits s i m' l' := by
  rw [regBits, setRegBits, getReg_setReg_self, bitsOf_withBits_apart _ _ _ _ _ _ h hm]
  rfl

theorem getLsbD_oneBit (n : Nat) (hn : n < 32) : (oneBit n).getLsbD n = true := by
  simp only [oneBit, BitVec.getLsbD_ofNat, hn, decide_true, Bool.true_and, Nat.testBit_two_pow_self]

theorem regBit_setRegBit (i n : Nat) (s : State) (hn : n < 32) : regBit (setRegBit i n s) i n = true := by
  rw [regBit, setRegBit, getReg_setReg_self, bitAt, BitVec.getLsbD_or, getLsbD_oneBit _ hn, Bool.or_true]

theorem regBit_clearRegBit (i n : Nat) (s : State) (hn : n < 32) : regBit (clearRegBit i n s) i n = false := by
  rw [regBit, clearRegBit, getReg_setReg_self, bitAt, BitVec.getLsbD_and, BitVec.getLsbD_not, getLsbD_oneBit _ hn]
  simp

/-! ## Result queues -/

@[simp] theorem queueAt_setQueue (p : Nat) (q : RQueue) (s : State) : queueAt (setQueue p q s) p = q := by
  simp [queueAt, keyGet]

theorem queueAt_setQueue_ne (p r : Nat) (q : RQueue) (s : State) (h : r ≠ p) :
    queueAt (setQueue p q s) r = queueAt s r := by
  simp [queueAt, keyGet, keyFind_keySet_ne _ _ _ _ h]

/-- An entry pushed on a queue with room stands last. -/
theorem queuePush_entries (p : Nat) (ws : List Word) (s : State) (h : (queueAt s p).entries.length < queueCap p) :
    (queueAt (queuePush p ws s) p).entries = (queueAt s p).entries
      ++ [{ seq := (queueAt s p).nextSeq % 2 ^ 32, poison := false, words := ws }] := by
  simp [queuePush, h]

/-! ## Door views and door writes (03 R131 to R138, R659) -/

@[simp] theorem viewAt_setView (v : DoorView) (s : State) : viewAt (setView v s) v.page v.set = v := by
  simp [viewAt, setView]

/-- A write that nothing holds for a verdict is carried out. -/
theorem issued_unbound {s : State} {req : Requester} (h : ∀ m, req = .mason m → isBound s m = false) (i : Nat) (w : Word)
    (f : State → State) : issued req i w f s = f s := by
  cases req with
  | mason m => simp [issued, h m rfl]
  | host => rfl
  | lintel => rfl

/-- A door command met by DoorOpen is issued at once. -/
theorem doorIssue_open {s : State} {req : Requester} {p : Nat} {word : Word} (h : DoorOpen s req p word)
    (f : Requester → Word → State → State) : doorIssue p f req word s = f req word s := by
  have hb := h.first
  rw [doorIssue, issued_unbound h.unbound]
  simp [hb]

/-- A register write met by WriteOpen is the direct write of its requester, at once. -/
theorem issueWrite_open {s : State} {req : Requester} {i : Nat} {w : Word} (h : WriteOpen s req i w) :
    issueWrite req i w s = directWrite req i w s := by
  rw [issueWrite, issued_unbound h.unbound]

/-- A door word met by DoorOpen that meets a refusal shows it, sets DOOR_DONE, and does nothing else. -/
theorem doorWrite_refused {s : State} {req : Requester} {p : Nat} {word : Word} (h : DoorOpen s req p word) (oc : Nat)
    (series : Option Nat) (run : Nat → Nat → State → State) :
    doorWrite req p word (some oc) series run s = refuseDoor req p word oc s := by
  have hf := h.fuse
  simp only [doorWrite, h.up, h.ready, hf, h.fresh, h.stays, h.enabled, Bool.not_true, Bool.false_eq_true, if_false]

/-- A door word met by DoorOpen that meets no refusal is accepted, and what its command does at once is done. -/
theorem doorWrite_accepted {s : State} {req : Requester} {p : Nat} {word : Word} (h : DoorOpen s req p word)
    (run : Nat → Nat → State → State) :
    doorWrite req p word none none run s = run s.doors.nextId 0 (acceptDoor req p word 0 s) := by
  have hf := h.fuse
  simp only [doorWrite, h.up, h.ready, hf, h.fresh, h.stays, h.enabled, Bool.not_true, Bool.false_eq_true, if_false]

/-- The same of a command that produces results: it takes the next ticket of its series. -/
theorem doorWrite_accepted_ticket {s : State} {req : Requester} {p : Nat} {word : Word} (h : DoorOpen s req p word)
    (k : Nat) (run : Nat → Nat → State → State) :
    doorWrite req p word none (some k) run s
      = run s.doors.nextId (nextTicket s k) (acceptDoor req p word (nextTicket s k) (useTicket k s)) := by
  have hf := h.fuse
  simp only [doorWrite, h.up, h.ready, hf, h.fresh, h.stays, h.enabled, Bool.not_true, Bool.false_eq_true, if_false]

/-- Acceptance touches the doors only. -/
theorem acceptDoor_only (req : Requester) (p : Nat) (word : Word) (t : Nat) (s : State) :
    ∃ d, acceptDoor req p word t s = { s with doors := d } := by
  unfold acceptDoor
  dsimp only
  split
  · exact ⟨_, rfl⟩
  · exact ⟨_, rfl⟩

theorem viewAt_remember (r : DoorRec) (s : State) (p k : Nat) : viewAt (remember r s) p k = viewAt s p k := rfl

/-- The view an accepted word leaves. -/
theorem viewAt_acceptDoor (req : Requester) (p : Nat) (word : Word) (t : Nat) (s : State) :
    viewAt (acceptDoor req p word t s) p (Requester.set req)
      = { page := p, set := Requester.set req, tag := bitsOf word 31 24, cmd := bitsOf word 23 16, dup := false,
          outcome := Oc.accepted, ticket := t % 256, follows := s.doors.nextId } := by
  unfold acceptDoor
  dsimp only
  split
  · exact viewAt_setView _ _
  · rw [viewAt_remember]
    exact viewAt_setView _ _

/-- The view a refused word leaves. -/
theorem doorShows_refuseDoor (req : Requester) (p : Nat) (word : Word) (oc : Nat) (s : State) :
    DoorShows (refuseDoor req p word oc s) req p word oc := by
  have h : viewAt (refuseDoor req p word oc s) p (Requester.set req)
      = { page := p, set := Requester.set req, tag := bitsOf word 31 24, cmd := bitsOf word 23 16, dup := false,
          outcome := oc, ticket := 0, follows := 0 } := by
    rw [refuseDoor, viewAt, raiseEvent_doors]
    exact viewAt_setView _ _
  simp [DoorShows, h]

end Sys2Proof.Machine
end

