-- ==== Sys2Proof/Laws/Kept.lean ====
section
/-!
SUPPORT. Sys2Proof/Laws/Kept.lean: what every operation of the machine keeps (the form of the data, the queue, the time,
the order of the free values, the blown fuses), said once for each shared operation.
-/
namespace Sys2Proof.Machine

/-- What no command changes otherwise than forward. -/
structure Kept (s t : State) : Prop where
  sound : s.Sound → t.Sound
  pending : t.pending = s.pending
  now : t.now = s.now
  free : s.freeIndex ≤ t.freeIndex
  locks : ∀ k : Nat, s.ident.locks.getLsbD k = true → t.ident.locks.getLsbD k = true

variable {s₀ : State}

theorem Kept.refl (s : State) : Kept s s := ⟨id, rfl, rfl, Nat.le_refl _, fun _ h => h⟩

theorem Kept.trans {s t u : State} (h : Kept s t) (g : Kept t u) : Kept s u :=
  ⟨fun x => g.sound (h.sound x), g.pending.trans h.pending, g.now.trans h.now, Nat.le_trans h.free g.free,
    fun k x => g.locks k (h.locks k x)⟩

/-- A change that touches none of what is kept. -/
theorem Kept.same {s t : State} (hm : t.mem.mortar = s.mem.mortar) (hr : t.mem.mram = s.mem.mram) (hg : t.regs = s.regs)
    (ha : t.masons = s.masons) (hi : t.txn.ids.length = s.txn.ids.length) (hc : t.checks = s.checks)
    (hp : t.pending = s.pending) (hn : t.now = s.now) (hf : t.freeIndex = s.freeIndex) (hl : t.ident = s.ident) :
    Kept s t :=
  ⟨fun x => ⟨hm ▸ x.mortar, hr ▸ x.mram, hg ▸ x.regs, ha ▸ x.masons, hi ▸ x.ids, hc ▸ x.checks⟩, hp, hn,
    Nat.le_of_eq hf.symm, fun _ h => hl ▸ h⟩

/-- Either way of a choice keeps. -/
theorem Kept.ite {c : Prop} [Decidable c] {t u : State} (ht : c → Kept s₀ t) (hu : ¬c → Kept s₀ u) :
    Kept s₀ (if c then t else u) := by
  split
  · exact ht ‹_›
  · exact hu ‹_›

/-- A fold of steps that each keep. -/
theorem Kept.foldl {α : Type} (f : State → α → State) (hf : ∀ s a, Kept s (f s a)) (l : List α) {s : State}
    (h : Kept s₀ s) : Kept s₀ (l.foldl f s) := by
  induction l generalizing s with
  | nil => exact h
  | cons a t ih => exact ih (h.trans (hf s a))

/-! ## Updates that touch none of it -/

theorem setView_kept (v : DoorView) {s : State} (h : Kept s₀ s) : Kept s₀ (setView v s) :=
  h.trans (.same rfl rfl rfl rfl rfl rfl rfl rfl rfl rfl)

theorem showOutcome_kept (id oc : Nat) {s : State} (h : Kept s₀ s) : Kept s₀ (showOutcome id oc s) :=
  h.trans (.same rfl rfl rfl rfl rfl rfl rfl rfl rfl rfl)

theorem deliverResult_kept (r : ResultEntry) {s : State} (h : Kept s₀ s) : Kept s₀ (deliverResult r s) :=
  h.trans (.same rfl rfl rfl rfl rfl rfl rfl rfl rfl rfl)

theorem useTicket_kept (key : Nat) {s : State} (h : Kept s₀ s) : Kept s₀ (useTicket key s) :=
  h.trans (.same rfl rfl rfl rfl rfl rfl rfl rfl rfl rfl)

theorem remember_kept (r : DoorRec) {s : State} (h : Kept s₀ s) : Kept s₀ (remember r s) :=
  h.trans (.same rfl rfl rfl rfl rfl rfl rfl rfl rfl rfl)

theorem clearSnaps_kept (p : Nat) {s : State} (h : Kept s₀ s) : Kept s₀ (clearSnaps p s) :=
  h.trans (.same rfl rfl rfl rfl rfl rfl rfl rfl rfl rfl)

theorem setQueue_kept (pop : Nat) (q : RQueue) {s : State} (h : Kept s₀ s) : Kept s₀ (setQueue pop q s) :=
  h.trans (.same rfl rfl rfl rfl rfl rfl rfl rfl rfl rfl)

theorem queueReset_kept (pop : Nat) {s : State} (h : Kept s₀ s) : Kept s₀ (queueReset pop s) :=
  h.trans (.same rfl rfl rfl rfl rfl rfl rfl rfl rfl rfl)

theorem rtcSet_kept (n : Nat) (slew : Int) {s : State} (h : Kept s₀ s) : Kept s₀ (rtcSet n slew s) :=
  h.trans (.same rfl rfl rfl rfl rfl rfl rfl rfl rfl rfl)

theorem closeRecord_kept (t state code : Nat) {s : State} (h : Kept s₀ s) : Kept s₀ (closeRecord t state code s) :=
  h.trans (.same rfl rfl rfl rfl rfl rfl rfl rfl rfl rfl)

theorem strobeRecord_kept (t : Nat) {s : State} (h : Kept s₀ s) : Kept s₀ (strobeRecord t s) :=
  h.trans (.same rfl rfl rfl rfl rfl rfl rfl rfl rfl rfl)

theorem setFld_kept (f : FieldUnit) {s : State} (h : Kept s₀ s) : Kept s₀ (setFld f s) :=
  h.trans (.same rfl rfl rfl rfl rfl rfl rfl rfl rfl rfl)

theorem setFrx_kept (f : ReceiveUnit) {s : State} (h : Kept s₀ s) : Kept s₀ (setFrx f s) :=
  h.trans (.same rfl rfl rfl rfl rfl rfl rfl rfl rfl rfl)

theorem setNfc_kept (n : NfcUnit) {s : State} (h : Kept s₀ s) : Kept s₀ (setNfc n s) :=
  h.trans (.same rfl rfl rfl rfl rfl rfl rfl rfl rfl rfl)

theorem setCard_kept (c : CardUnit) {s : State} (h : Kept s₀ s) : Kept s₀ (setCard c s) :=
  h.trans (.same rfl rfl rfl rfl rfl rfl rfl rfl rfl rfl)

theorem setBcast_kept (b : BcastUnit) {s : State} (h : Kept s₀ s) : Kept s₀ (setBcast b s) :=
  h.trans (.same rfl rfl rfl rfl rfl rfl rfl rfl rfl rfl)

theorem setPath_kept (p : Nat) (x : BcastPath) {s : State} (h : Kept s₀ s) : Kept s₀ (setPath p x s) :=
  h.trans (.same rfl rfl rfl rfl rfl rfl rfl rfl rfl rfl)

theorem setTwin_kept (t : TwinUnit) {s : State} (h : Kept s₀ s) : Kept s₀ (setTwin t s) :=
  h.trans (.same rfl rfl rfl rfl rfl rfl rfl rfl rfl rfl)

theorem setCascade_kept (c : CascadeUnit) {s : State} (h : Kept s₀ s) : Kept s₀ (setCascade c s) :=
  h.trans (.same rfl rfl rfl rfl rfl rfl rfl rfl rfl rfl)

theorem setCipher_kept (c : CipherUnit) {s : State} (h : Kept s₀ s) : Kept s₀ (setCipher c s) :=
  h.trans (.same rfl rfl rfl rfl rfl rfl rfl rfl rfl rfl)

theorem setSlot_kept (i : Nat) (k : Option KeySlot) {s : State} (h : Kept s₀ s) : Kept s₀ (setSlot i k s) :=
  h.trans (.same rfl rfl rfl rfl rfl rfl rfl rfl rfl rfl)

theorem setDecoder_kept (d : DecoderUnit) {s : State} (h : Kept s₀ s) : Kept s₀ (setDecoder d s) :=
  h.trans (.same rfl rfl rfl rfl rfl rfl rfl rfl rfl rfl)

theorem setRadio_kept (r : RadioUnit) {s : State} (h : Kept s₀ s) : Kept s₀ (setRadio r s) :=
  h.trans (.same rfl rfl rfl rfl rfl rfl rfl rfl rfl rfl)

theorem setLink_kept (l : LinkUnit) {s : State} (h : Kept s₀ s) : Kept s₀ (setLink l s) :=
  h.trans (.same rfl rfl rfl rfl rfl rfl rfl rfl rfl rfl)

theorem setPort_kept (p : PortUnit) {s : State} (h : Kept s₀ s) : Kept s₀ (setPort p s) :=
  h.trans (.same rfl rfl rfl rfl rfl rfl rfl rfl rfl rfl)

theorem setClocks_kept (c : Clocks) {s : State} (h : Kept s₀ s) : Kept s₀ (setClocks c s) :=
  h.trans (.same rfl rfl rfl rfl rfl rfl rfl rfl rfl rfl)

theorem setPower_kept (p : Power) {s : State} (h : Kept s₀ s) : Kept s₀ (setPower p s) :=
  h.trans (.same rfl rfl rfl rfl rfl rfl rfl rfl rfl rfl)

theorem setBoot_kept (b : Boot) {s : State} (h : Kept s₀ s) : Kept s₀ (setBoot b s) :=
  h.trans (.same rfl rfl rfl rfl rfl rfl rfl rfl rfl rfl)

theorem setNvl_kept (n : NvlUnit) {s : State} (h : Kept s₀ s) : Kept s₀ (setNvl n s) :=
  h.trans (.same rfl rfl rfl rfl rfl rfl rfl rfl rfl rfl)

theorem setEdges_kept (n k : Nat) {s : State} (h : Kept s₀ s) : Kept s₀ (setEdges n k s) :=
  h.trans (.same rfl rfl rfl rfl rfl rfl rfl rfl rfl rfl)

/-! ## Registers, memory, masons, transactions, free values -/

theorem setReg_kept (i : Nat) (w : Word) {s : State} (h : Kept s₀ s) : Kept s₀ (setReg i w s) :=
  h.trans ⟨fun x => ⟨x.mortar, x.mram, setReg_regsWf i w s x.regs, x.masons, x.ids, x.checks⟩, rfl, rfl, Nat.le_refl _,
    fun _ k => k⟩

theorem setRegBits_kept (i msb lsb v : Nat) {s : State} (h : Kept s₀ s) : Kept s₀ (setRegBits i msb lsb v s) :=
  setReg_kept _ _ h

theorem setRegBit_kept (i n : Nat) {s : State} (h : Kept s₀ s) : Kept s₀ (setRegBit i n s) := setReg_kept _ _ h

theorem clearRegBit_kept (i n : Nat) {s : State} (h : Kept s₀ s) : Kept s₀ (clearRegBit i n s) := setReg_kept _ _ h

theorem countReg_kept (i n : Nat) {s : State} (h : Kept s₀ s) : Kept s₀ (countReg i n s) := setReg_kept _ _ h

theorem raiseEvent_kept (p b : Nat) {s : State} (h : Kept s₀ s) : Kept s₀ (raiseEvent p b s) := setRegBit_kept _ _ h

theorem raiseFault_kept (p b detail : Nat) {s : State} (h : Kept s₀ s) : Kept s₀ (raiseFault p b detail s) := by
  unfold raiseFault
  exact .ite (fun _ => raiseEvent_kept _ _ (raiseEvent_kept _ _ (setRegBit_kept _ _ (setReg_kept _ _ h))))
    (fun _ => setRegBit_kept _ _ h)

theorem rejectWrite_kept (p : Nat) (req : Requester) (reason index : Nat) {s : State} (h : Kept s₀ s) :
    Kept s₀ (rejectWrite p req reason index s) := by
  unfold rejectWrite
  exact raiseEvent_kept _ _ (setReg_kept _ _ h)

theorem portSticky_kept (b : Nat) {s : State} (h : Kept s₀ s) : Kept s₀ (portSticky b s) := setRegBit_kept _ _ h

theorem portError_kept (cause index : Nat) {s : State} (h : Kept s₀ s) : Kept s₀ (portError cause index s) :=
  setReg_kept _ _ h

theorem masonFault_kept (m : Fin 5) (b detail : Nat) {s : State} (h : Kept s₀ s) : Kept s₀ (masonFault m b detail s) :=
  raiseFault_kept _ _ _ h

theorem countBankOff_kept {s : State} (h : Kept s₀ s) : Kept s₀ (countBankOff s) := countReg_kept _ _ h

theorem domainOffAccess_kept (req : Requester) {s : State} (h : Kept s₀ s) : Kept s₀ (domainOffAccess req s) := by
  cases req with
  | host => exact .ite (fun _ => portSticky_kept _ h) (fun _ => h)
  | mason m => exact .ite (fun _ => masonFault_kept _ _ _ h) (fun _ => h)
  | lintel => exact h

theorem holdWrite_kept (req : Requester) (i : Nat) (w : Word) (q : Bool) {s : State} (h : Kept s₀ s) :
    Kept s₀ (holdWrite req i w q s) :=
  h.trans ⟨fun x => ⟨x.mortar, x.mram, x.regs, x.masons, x.ids, x.checks⟩, rfl, rfl, Nat.le_refl _, fun _ k => k⟩

theorem awayWrite_kept (req : Requester) (i : Nat) (w : Word) {s : State} (h : Kept s₀ s) : Kept s₀ (awayWrite req i w s) :=
  .ite (fun _ => holdWrite_kept _ _ _ _ h) (fun _ => domainOffAccess_kept _ h)

/-- Registers dropped, as by the reset of a page. -/
theorem resetPageRegs_kept (p : Nat) (keep : Nat → Bool) {s : State} (h : Kept s₀ s) :
    Kept s₀ (resetPageRegs p keep s) :=
  h.trans ⟨fun x => ⟨x.mortar, x.mram, regs_filter_wf _ _ x.regs, x.masons, x.ids, x.checks⟩, rfl, rfl, Nat.le_refl _,
    fun _ k => k⟩

/-- The memories replaced by memories whose form is kept. -/
theorem setMem_kept (m : Mem) {s : State} (h : Kept s₀ s) (hm : Memory.wf s.mem.mortar = true → Memory.wf m.mortar = true)
    (hr : Memory.wf s.mem.mram = true → Memory.wf m.mram = true) : Kept s₀ (setMem m s) :=
  h.trans ⟨fun x => ⟨hm x.mortar, hr x.mram, x.regs, x.masons, x.ids, x.checks⟩, rfl, rfl, Nat.le_refl _, fun _ k => k⟩

theorem setMason_kept (m : Fin 5) (u : MasonUnit) {s : State} (h : Kept s₀ s) : Kept s₀ (setMason m u s) :=
  h.trans ⟨fun x => ⟨x.mortar, x.mram, x.regs, (List.length_set ..).trans x.masons, x.ids, x.checks⟩, rfl, rfl,
    Nat.le_refl _, fun _ k => k⟩

theorem setTxn_kept (t : Nat) (x : Txn) {s : State} (h : Kept s₀ s) : Kept s₀ (setTxn t x s) :=
  h.trans (.same rfl rfl rfl rfl (List.length_set ..) rfl rfl rfl rfl rfl)

theorem useFreeN_kept (n : Nat) {s : State} (h : Kept s₀ s) : Kept s₀ (useFreeN n s) :=
  h.trans ⟨fun x => ⟨x.mortar, x.mram, x.regs, x.masons, x.ids, x.checks⟩, rfl, rfl, Nat.le_add_right _ _, fun _ k => k⟩

theorem useFree_kept {s : State} (h : Kept s₀ s) : Kept s₀ (useFree s) := useFreeN_kept 1 h

/-- The identity replaced by one whose blown fuses are still blown. -/
theorem setIdent_kept (i : IdentUnit) {s : State} (h : Kept s₀ s)
    (hl : ∀ k : Nat, s.ident.locks.getLsbD k = true → i.locks.getLsbD k = true) : Kept s₀ (setIdent i s) :=
  h.trans ⟨fun x => ⟨x.mortar, x.mram, x.regs, x.masons, x.ids, x.checks⟩, rfl, rfl, Nat.le_refl _, hl⟩

/-! ## Queues -/

theorem queuePush_kept (pop : Nat) (words : List Word) {s : State} (h : Kept s₀ s) : Kept s₀ (queuePush pop words s) :=
  .ite (fun _ => setQueue_kept _ _ h) (fun _ => h)

theorem queueReserve_kept (pop n : Nat) {s : State} (h : Kept s₀ s) : Kept s₀ (queueReserve pop n s) := setQueue_kept _ _ h

theorem queueUnreserve_kept (pop n : Nat) {s : State} (h : Kept s₀ s) : Kept s₀ (queueUnreserve pop n s) :=
  setQueue_kept _ _ h

theorem queueClear_kept (pop : Nat) {s : State} (h : Kept s₀ s) : Kept s₀ (queueClear pop s) := setQueue_kept _ _ h

theorem queuePop_kept (pop : Nat) {s : State} (h : Kept s₀ s) : Kept s₀ (queuePop pop s) := setQueue_kept _ _ h

/-! ## Doors -/

theorem finishCmd_kept (id oc : Nat) {s : State} (h : Kept s₀ s) : Kept s₀ (finishCmd id oc s) := by
  unfold finishCmd
  split
  · exact h
  · exact raiseEvent_kept _ _ ((showOutcome_kept id oc h).trans (.same rfl rfl rfl rfl rfl rfl rfl rfl rfl rfl))

theorem finishWhere_kept (f : RunCmd → Bool) (oc : Nat) {s : State} (h : Kept s₀ s) : Kept s₀ (finishWhere f oc s) :=
  Kept.foldl _ (fun s id => finishCmd_kept id oc (.refl s)) _ h

theorem refuseDoor_kept (req : Requester) (p : Nat) (word : Word) (oc : Nat) {s : State} (h : Kept s₀ s) :
    Kept s₀ (refuseDoor req p word oc s) := by
  unfold refuseDoor
  exact raiseEvent_kept _ _ (setView_kept _ h)

theorem acceptDoor_kept (req : Requester) (p : Nat) (word : Word) (ticket : Nat) {s : State} (h : Kept s₀ s) :
    Kept s₀ (acceptDoor req p word ticket s) := by
  have h1 := h.trans (t := s) (.refl s)
  unfold acceptDoor
  refine .ite (fun _ => setView_kept _ (h1.trans ?_)) (fun _ => remember_kept _ (setView_kept _ (h1.trans ?_)))
  all_goals exact .same rfl rfl rfl rfl rfl rfl rfl rfl rfl rfl

theorem tagMatch_kept (req : Requester) (p : Nat) (word : Word) (r : DoorRec) {s : State} (h : Kept s₀ s) :
    Kept s₀ (tagMatch req p word r s) :=
  .ite (fun _ => setView_kept _ h) (fun _ => raiseEvent_kept _ _ (setView_kept _ h))

/-- A door write keeps what its command keeps. -/
theorem doorWrite_kept (req : Requester) (p : Nat) (word : Word) (refusal series : Option Nat)
    (run : Nat → Nat → State → State) (hr : ∀ a b t, Kept t (run a b t)) {s : State} (h : Kept s₀ s) :
    Kept s₀ (doorWrite req p word refusal series run s) := by
  unfold doorWrite
  refine .ite (fun _ => awayWrite_kept _ _ _ h) (fun _ => .ite (fun _ => holdWrite_kept _ _ _ _ h) (fun _ =>
    .ite (fun _ => .ite (fun _ => portSticky_kept _ h) (fun _ => h)) (fun _ => ?_)))
  split
  · exact tagMatch_kept _ _ _ _ h
  · refine .ite (fun _ => refuseDoor_kept _ _ _ _ h) (fun _ => .ite (fun _ => refuseDoor_kept _ _ _ _ h) (fun _ => ?_))
    split
    · exact refuseDoor_kept _ _ _ _ h
    · cases series with
      | none => exact (acceptDoor_kept _ _ _ _ h).trans (hr _ _ _)
      | some k => exact (acceptDoor_kept _ _ _ _ (useTicket_kept k h)).trans (hr _ _ _)

/-! ## Pages -/

theorem clearHeader_kept (p : Nat) {s : State} (h : Kept s₀ s) : Kept s₀ (clearHeader p s) :=
  clearSnaps_kept _ (h.trans ⟨fun x => ⟨x.mortar, x.mram, regs_filter_wf _ _ x.regs, x.masons, x.ids, x.checks⟩, rfl, rfl,
    Nat.le_refl _, fun _ k => k⟩)

theorem wipePage_kept (p : Nat) {s : State} (h : Kept s₀ s) : Kept s₀ (wipePage p s) := by
  refine .ite (fun _ => setRegBit_kept _ _ (clearSnaps_kept _ (h.trans ?_))) (fun _ => clearSnaps_kept _ (h.trans ?_))
  all_goals exact ⟨fun x => ⟨x.mortar, x.mram, regs_filter_wf _ _ x.regs, x.masons, x.ids, x.checks⟩, rfl, rfl,
    Nat.le_refl _, fun _ k => k⟩

/-! ## Memory accesses -/

theorem markPoison_kept (w : Nat) {s : State} (h : Kept s₀ s) : Kept s₀ (markPoison w s) := by
  unfold markPoison
  exact raiseFault_kept _ _ _ (setReg_kept _ _ (countReg_kept _ _ (setMem_kept _ h id id)))

theorem markMramPoison_kept (w : Nat) {s : State} (h : Kept s₀ s) : Kept s₀ (markMramPoison w s) := by
  unfold markMramPoison
  exact raiseFault_kept _ _ _ (setReg_kept _ _ (countReg_kept _ _ (setMem_kept _ h id id)))

theorem settleWord_kept (w : Nat) {s : State} (h : Kept s₀ s) : Kept s₀ (settleWord w s) :=
  .ite (fun _ => h) (fun _ => .ite (fun _ => markPoison_kept _ h)
    (fun _ => countReg_kept _ _ (setMem_kept _ h (flipSymbols_wf _ _ _) id)))

theorem settleWords_kept (n w : Nat) {s : State} (h : Kept s₀ s) : Kept s₀ (settleWords w n s) := by
  induction n generalizing w s with
  | zero => exact h
  | succ k ih => exact ih _ (settleWord_kept w h)

theorem countOff_kept (a n : Nat) {s : State} (h : Kept s₀ s) : Kept s₀ (countOff a n s) :=
  .ite (fun _ => h) (fun _ => countReg_kept _ _ h)

theorem settleRange_kept (a n : Nat) {s : State} (h : Kept s₀ s) : Kept s₀ (settleRange a n s) :=
  .ite (fun _ => h) (fun _ => countOff_kept _ _ (.ite (fun _ => h) (fun _ => settleWords_kept _ _ h)))

theorem waitBank_kept (who : Option Requester) (a : Nat) (bs : List Byte) (idx : Nat) {s : State} (h : Kept s₀ s) :
    Kept s₀ (waitBank who a bs idx s) := setMem_kept _ h id id

theorem mortarPutByte_kept (a : Nat) (b : Byte) {s : State} (h : Kept s₀ s) : Kept s₀ (mortarPutByte a b s) :=
  .ite (fun _ => h) (fun _ => setMem_kept _ h (memSet_wf _ _ _) id)

theorem mortarPutBytes_kept (bs : List Byte) (a : Nat) {s : State} (h : Kept s₀ s) : Kept s₀ (mortarPutBytes a bs s) := by
  induction bs generalizing a s with
  | nil => exact h
  | cons b t ih => exact ih _ (mortarPutByte_kept a b h)

theorem clearMarks_kept (w : Nat) {s : State} (h : Kept s₀ s) : Kept s₀ (clearMarks w s) := setMem_kept _ h id id

theorem clearMarksN_kept (n w : Nat) {s : State} (h : Kept s₀ s) : Kept s₀ (clearMarksN w n s) := by
  induction n generalizing w s with
  | zero => exact h
  | succ k ih => exact ih _ (clearMarks_kept w h)

theorem engineWrite_kept (a : Nat) (bs : List Byte) {s : State} (h : Kept s₀ s) : Kept s₀ (engineWrite a bs s) :=
  .ite (fun _ => waitBank_kept _ _ _ _ h) (fun _ => mortarPutBytes_kept _ _ (settleRange_kept _ _ (clearMarksN_kept _ _ h)))

theorem halfWrite_kept (a : Nat) (w : Word) {s : State} (h : Kept s₀ s) : Kept s₀ (halfWrite a w s).1 := by
  unfold halfWrite
  dsimp only
  split
  · exact settleWord_kept _ h
  · exact mortarPutBytes_kept _ _ (settleWord_kept _ h)

theorem halfRead_kept (a : Nat) {s : State} (h : Kept s₀ s) : Kept s₀ (halfRead a s).1 := settleWord_kept _ h

theorem mramWrite_kept (a : Nat) (bs : List Byte) {s : State} (h : Kept s₀ s) : Kept s₀ (mramWrite a bs s) :=
  setMem_kept _ h id (memPut_wf _ _ _)

theorem wipeBank_kept (one : Bool) {s : State} (h : Kept s₀ s) : Kept s₀ (wipeBank one s) :=
  setMem_kept _ h (memory_filter_wf _ _) id

end Sys2Proof.Machine
end

