-- ==== Sys2Proof/Laws/MasonRun.lean ====
section
/-!
SUPPORT. Sys2Proof/Laws/MasonRun.lean: what the shared operations of a mason do where nothing interferes: an instruction
that issues is carried out, and its end leaves only its mason changed.
-/
namespace Sys2Proof.Machine

theorem landDue_fields (c : Nat) (ps : List Product) (u : MasonUnit) :
    ∃ lo hi p, landDue c ps u = { u with mlo := lo, mhi := hi, products := p } := by
  induction ps generalizing u with
  | nil => exact ⟨u.mlo, u.mhi, [], rfl⟩
  | cons q t ih =>
    unfold landDue
    split
    · obtain ⟨lo, hi, p, h⟩ := ih { u with mlo := q.lo, mhi := q.hi }
      exact ⟨lo, hi, p, h⟩
    · exact ⟨u.mlo, u.mhi, _, rfl⟩

/-- Landing products changes MLO, MHI and the products only. -/
theorem unitNow_eq (s : State) (m : Fin 5) :
    ∃ lo hi p, unitNow s m = { masonAt s m with mlo := lo, mhi := hi, products := p } :=
  landDue_fields _ _ _

theorem masonAt_setMason (s : State) (m : Fin 5) (u : MasonUnit) (h : s.masons.length = 5) :
    masonAt (setMason m u s) m = u := by
  have hm := m.isLt
  simp [masonAt, setMason, List.getD, h, hm]

theorem setMason_setMason (s : State) (m : Fin 5) (u v : MasonUnit) :
    setMason m v (setMason m u s) = setMason m v s := by
  simp [setMason]

/-- No loop level ends at `a`. -/
theorem loopEnd_off (k a : Nat) (u : MasonUnit) (hl : u.ld ≤ 4) (h : u.atLe a = false) : loopEnd k a u = (u, none) := by
  cases k with
  | zero => rfl
  | succ k =>
    unfold loopEnd
    split
    · rename_i hc
      exfalso
      have : u.atLe a = true := by
        simp only [MasonUnit.atLe, List.any_eq_true, List.mem_range]
        refine ⟨u.ld - 1, by omega, ?_⟩
        have h1 := hc.1
        simp only [hc.2, Bool.and_eq_true, decide_eq_true_eq, beq_iff_eq, and_true]
        omega
      simp [this] at h
    · rfl

/-- The fetch of an instruction that issues moves at most the buffer of the window. -/
theorem fetchWord_port {s : State} {m : Fin 5} {a : Nat} (h : fetched s m a = true) : ∃ p, fetchWord m a s = setPort p s := by
  unfold fetchWord
  split
  · rename_i hc
    simp only [Bool.and_eq_true, Bool.not_eq_true'] at hc
    simp only [fetched, hc.1.1, hc.1.2, hc.2, Bool.not_true, Bool.false_or, Bool.not_false, Bool.true_and, flashWord,
      Option.isSome_map] at h
    unfold touchLine lineOf
    cases hk : keyFind s.port.lines (packageAddr a / 64) with
    | none => simp [hk] at h
    | some d => exact ⟨_, rfl⟩
  · exact ⟨s.port, rfl⟩

/-- Whatever is granted the port, the masons stay five. -/
theorem grantPort_masons (s : State) : (grantPort s).masons.length = s.masons.length := by
  have fill : (startFill s).masons.length = s.masons.length := by
    unfold startFill
    split <;> rfl
  have cop : (startCopFrame s).masons.length = s.masons.length := by
    unfold startCopFrame
    split
    · rfl
    · split
      · simp [setMason, setPort]
      · exact fill
  unfold grantPort
  split
  · rfl
  · split
    · split
      · rfl
      · exact cop
    · exact cop

theorem fetchWord_masons (m : Fin 5) (a : Nat) (s : State) : (fetchWord m a s).masons.length = s.masons.length := by
  unfold fetchWord
  split
  · unfold touchLine
    split
    · rfl
    · exact grantPort_masons _
  · rfl

theorem fetchInstr_masons (m : Fin 5) (s : State) : (fetchInstr m s).masons.length = s.masons.length := by
  unfold fetchInstr
  dsimp only
  split
  · rw [fetchWord_masons, fetchWord_masons]
  · exact fetchWord_masons _ _ _

/-- Fetching from program memory touches nothing. -/
theorem fetchInstr_stored {s : State} {m : Fin 5} (h : fetchesFlash s m = false) : fetchInstr m s = s := by
  simp [fetchInstr, fetchWord, h]

/-- An instruction without an obstacle is carried out on the mason as it stands. -/
theorem runInstr_of_issues {s : State} {m : Fin 5} {needs : MasonUnit → InstrNeeds} {f : MasonUnit → State → State}
    (h : canIssue s m (needs (unitNow s m)).words = true) (ht : trapOf (unitNow s m) (needs (unitNow s m)) = none) :
    runInstr m needs f s = f (unitNow s m) (setMason m (unitNow s m) (fetchInstr m s)) := by
  simp only [unitNow] at h ht ⊢
  simp [runInstr, h, ht]

/-- The end of an instruction at which no loop ends and nothing waits: its mason goes on at `next`. -/
theorem endInstr_plain {s : State} {m : Fin 5} {u : MasonUnit} {next cycles : Nat} {jump : Bool}
    (hm : s.masons.length = 5) (hr : u.rep = 0) (hl : u.ld ≤ 4) (ha : u.atLe u.pc = false)
    (hh : u.haltIds = []) (hs : u.stepId = none) :
    endInstr m u next jump cycles none s = afterInstr s m u next cycles := by
  have hback : (if jump then ({ u with cycle := u.cycle + cycles, skipBp := false, stall := none, rep := 0, repFirst := false }, none)
      else loopEnd 4 u.pc { u with cycle := u.cycle + cycles, skipBp := false, stall := none, rep := 0, repFirst := false })
      = (({ u with cycle := u.cycle + cycles, skipBp := false, stall := none, rep := 0, repFirst := false } : MasonUnit), none) := by
    split
    · rfl
    · exact loopEnd_off _ _ _ hl ha
  unfold endInstr
  simp only [hr]
  rw [if_neg (by omega)]
  simp only [hback, Option.getD_none]
  unfold atBoundary
  rw [masonAt_setMason _ _ _ hm]
  simp [hh, hs, afterInstr]

/-- Pushing touches the stack and its depth. -/
theorem pushAll_fields (ws : List Word) (u : MasonUnit) :
    ∃ st d, u.pushAll ws = { u with stack := st, depth := d } := by
  induction ws generalizing u with
  | nil => exact ⟨u.stack, u.depth, rfl⟩
  | cons w t ih =>
    obtain ⟨st, d, h⟩ := ih (u.push w)
    exact ⟨st, d, h⟩

/-- What `Issues` says of the mason with its products landed. -/
theorem Issues.unit {s : State} {m : Fin 5} {ws : List (BitVec 14)} (h : Issues s m ws) :
    (unitNow s m).rep = 0 ∧ (unitNow s m).haltIds = [] ∧ (unitNow s m).stepId = none := by
  obtain ⟨lo, hi, p, hu⟩ := unitNow_eq s m
  rw [hu]
  exact ⟨h.once, h.noHalt, h.noStep⟩

/-- The mason after the instruction, where only fields that its end does not look at were changed. -/
theorem Issues.end_ {s : State} {m : Fin 5} {ws : List (BitVec 14)} (h : Issues s m ws) (v : MasonUnit)
    (next cycles : Nat) (jump : Bool) (hr : v.rep = 0) (hl : v.ld ≤ 4) (ha : v.atLe v.pc = false) (hh : v.haltIds = [])
    (hs : v.stepId = none) :
    endInstr m v next jump cycles none (setMason m (unitNow s m) (fetchInstr m s)) = afterInstr (fetchInstr m s) m v next cycles := by
  rw [endInstr_plain (by simp [setMason, fetchInstr_masons, h.five]) hr hl ha hh hs]
  simp [afterInstr, setMason_setMason]

/-- An instruction needs nothing that fails. -/
theorem trapOf_none {u : MasonUnit} {k : InstrNeeds} (hpc : u.pc + k.words.length < 0x4000) (hr : u.rep = 0)
    (hb : k.badTarget = false) (hu : k.undefined = false) (ha : k.absent = false) (hi : k.illegal = false)
    (hbit : k.badBit = false) (hp : k.pops ≤ u.depth) (hq : u.depth - k.pops + k.pushes ≤ 16) (hn : k.noRoom = false) :
    trapOf u k = none := by
  unfold trapOf
  have h1 : (u.pc + k.words.length == 0x4000) = false := by simp; omega
  simp only [h1, hb, hu, ha, hi, hbit, hn, hr, Bool.and_false, Bool.false_and, Bool.or_false, bne_self_eq_false]
  simp only [Bool.false_eq_true, if_false]
  repeat rw [if_neg (by simp; omega)]

/-- A stack instruction that nothing stands in the way of. -/
theorem stackInstr_effect {s : State} {m : Fin 5} {w : BitVec 14} {pops pushes cycles : Nat}
    {g : MasonUnit → List Word} (h : Issues s m [w]) (hroom : HasRoom s m pops pushes) :
    stackInstr m w pops pushes cycles g s =
      afterInstr (fetchInstr m s) m (((unitNow s m).pop pops).pushAll (g (unitNow s m))) ((unitNow s m).pc + 1) cycles := by
  obtain ⟨h1, h2, h3⟩ := h.unit
  unfold stackInstr
  rw [runInstr_of_issues h.issue (trapOf_none h.inside h1 rfl rfl rfl rfl rfl hroom.1 hroom.2 rfl)]
  obtain ⟨st, d, hp⟩ := pushAll_fields (g (unitNow s m)) ((unitNow s m).pop pops)
  rw [hp]
  exact h.end_ _ _ _ _ h1 h.levels h.notLe h2 h3

end Sys2Proof.Machine
end

