-- ==== Sys2Proof/WellFormed.lean ====
section
/-!
DEFINITION. Sys2Proof/WellFormed.lean: what the operands of a command that the outside sends are, beyond their types: the
number of words, bytes or sensors a report has, and the page or register a header command names. A command that is not
well formed still has a meaning; no rule of the spec is about one.
-/
namespace Sys2Proof

/-- A write frame has accepted at most the words it carried (02 R76). -/
def acceptedFits (words : List Word) (accepted : Nat) : Bool := accepted ≤ words.length

/-- A page of the directory (00 R8). -/
def pageKnown (page : Byte) : Bool := Machine.inDirectory page.toNat

/-- CCD.STREAM or a map entry (09 R378). -/
def streamRegister (i : Nat) : Bool := decide (Machine.Reg.ccdStream ≤ i ∧ i < Machine.Reg.ccdStream + 24)

/-- The command is well formed. -/
def Instr.wellFormed (c : Instr) : Bool :=
  match c with
  | .wrInc _ words accepted => acceptedFits words accepted
  | .wrTxn _ _ words accepted => acceptedFits words accepted
  | .mwinWr _ words accepted => acceptedFits words accepted
  | .registerWrite _ index _ => Machine.inDirectory (index.toNat / 256)
  | .softReset _ page => pageKnown page
  | .lock _ page => pageKnown page
  | .snapshot _ page _ => pageKnown page
  | .resultRelease _ page _ => (Machine.resultBlock page.toNat).isSome
  | .selfTest _ page _ _ => pageKnown page
  | .calibrate _ page _ _ => pageKnown page
  | .deferredStart page => pageKnown page
  | .urgentStart page => pageKnown page
  | .notRun page => pageKnown page
  | .testComplete page _ _ _ => pageKnown page
  | .ashlarChange trims => trims.length == 8
  | .portFault _ kind => kind != 0
  | .limiterStep outMw _ _ => outMw.length == 8
  | .surveyStep report => report.responses.length == 8
  | .windowOpen carriers noises => carriers.length == 8 && noises.length == 8
  | .runScan responses => responses.length == 8
  | .probeScan codes => codes.length == 8 && codes.all (fun c => c < 256)
  | .pskFrame _ raw => raw.length ≤ 1017
  | .fib _ _ _ bytes => bytes.length == 32
  | .tcMinute _ report => report.seconds.length == 60
  | .dataGroup _ _ packets => packets.all (fun p => p.length ≤ 96)
  | .stream _ index _ => streamRegister index.toNat
  | .captureEnd soft decoded => soft.length ≤ 4128 && decoded.length ≤ 256
  | .meterFrame report => report.chips.length ≤ 3480
  | .copTimeout results => results.length ≤ 15
  | .lineFill data => data.length == 64
  | .telemetry sensors _ _ | .overtemp sensors => sensors.length == 6
  | .hello _ peer => peer.random.length == 16
  | .ident _ peer => peer.key.length == 64
  | .record _ _ _ _ words => words.length ≤ 64
  | .load _ _ _ words => words.length == 13
  | .tempHigh sensors => sensors.length == 6
  | .coprocessorReady results => results.length ≤ 15
  | .rd _ _ _ _ | .rdInc _ _ _ | .wr _ _ _ _ | .txnBegin | .txnCommit _ | .txnAbort _ | .status | .qpop _ _ _
  | .mwinRd _ _ _ | .selectReleasedMidWord _ _ | .busyTimeout | .readReady | .commitConditionMet _
  | .applyWindowEnd _ | .txnTimeout _ | .abort _ _ _ | .patsel _ _ | .fieldRequest _ | .rampUpEnd | .rampDownEnd
  | .offMinExpiry | .thermalRecovery _ | .solve _ _ _ | .cascLoad _ _ _ | .cascSwitch _ _ _ | .switchCycleReached _
  | .solveResult | .replyDetected | .estimationWindowEnd _ _ | .replyEnd _ _ _ _ _ | .chainClip _ _ | .chainTrimStep _ _ _
  | .cascWaitExpiry | .capture _ _ _ | .captureDone _ | .noWindow | .exchange _ _ _ | .inventory _ _ _
  | .cancel _ _ _ | .jobStart | .guardOnExpiry | .readerFrame _ _ | .windowClose | .budget | .keepFieldExpiry
  | .relearn _ _ _ | .tune _ _ _ | .synthesiserSettled _ _ | .locked _ _ | .frameSync _ | .lost _
  | .frameBoundary _ _ | .agcStep _ _ _ | .role _ _ _ | .candidateCheck _ _ | .verify _ _
  | .barredExpiry _ _ | .crossfadeEnd | .scan _ _ _ _ | .scanPoint _ _ _ | .check _ _ _ _
  | .audioFormatChange | .rdsGroup _ _ _ _ _ | .select _ _ _ | .cif _ _ _ _ | .messageCopy
  | .messageWindowEnd _ _ | .timeVoteClose | .decodeRequest _ _ _ | .decodeUnitEnd | .cipher _ _ _
  | .cipherJobStart _ | .cipherJobDone _ | .verdict _ | .keyLoad _ _ _ | .keyClear _ _ _ | .nodePut _ _ _
  | .nodeClear _ _ _ | .random _ _ _ | .sign _ _ _ | .verifySignature _ _ _ | .ecdh _ _ _ | .certCopy _ _ _ | .pkDone
  | .rngFail _ _ | .blow _ _ _ | .channel _ _ | .detection _ _ _ _ | .syncFound _ _ | .falseDetect
  | .provisionalLength _ | .txRampUpStart _ | .txFirstSymbol | .txRampDownStart | .carrierOff | .txToRx
  | .synthLocked | .holdLimitExpiry | .lockLost | .paFault _ | .calDue _ | .calStart | .calDone _ _ _ | .calRetry
  | .synthSettled | .carrierTest _ _ _ | .send _ _ _ | .sendCancel _ _ _ | .slotBoundary
  | .ackWaitExpiry | .backoffEnd _ | .expired _ | .inboundFrame | .ackStart | .bucketClose _ | .doneMap _ _
  | .linkEnable _ _ | .coxReqLead | .coxGntChange _ | .coxTimeout | .nop _ | .dup _ | .drop _ | .swap _ | .over _
  | .rot _ | .nip _ | .pick _ _ | .add _ | .sub _ | .andOp _ | .orOp _ | .xorOp _ | .notOp _ | .neg _ | .addi _ _
  | .shl _ _ | .shr _ _ | .sar _ _ | .rol _ _ | .shlv _ | .shrv _ | .sarv _ | .lit _ _ | .litu _ _ | .mul _ | .mulu _
  | .productLands _ | .crcb _ | .crcw _ | .brev _ | .brevb _ | .mfs _ _ | .mts _ _ | .ldx _ | .stx _ | .ldb _
  | .stb _ | .jmpi _ | .ret _ | .rtt _ | .rte _ | .rep _ _ | .lbrk _ | .wait _ | .waitEnd _ | .halt _ | .brk _
  | .slt _ | .sltu _ | .seq _ | .ldp _ _ _ | .stp _ _ _ | .ldpi _ _ _ | .stpi _ _ _ | .padd _ _ _ | .pget _ _ _
  | .pset _ _ | .beq _ _ | .bne _ _ | .blt _ _ | .bge _ _ | .bltu _ _ | .bgeu _ _ | .bz _ _ | .bnz _ _ | .litLong _ _
  | .litx _ _ | .jmp _ _ | .call _ _ _ | .calli _ _ | .ldl _ _ | .stl _ _ | .ldr _ _ | .str _ _ | .pushb _ _
  | .popb _ _ | .setb _ _ | .clrb _ _ | .tglb _ _ | .par _ _ | .bbc _ _ _ | .bbs _ _ _ | .loopOp _ _ | .loopi _ _ _
  | .cksum _ _ | .ckcopy _ _ | .tbegin _ | .tstage _ | .tstagem _ | .tcommit _ _ | .tabort _ | .externalOperation _
  | .eventEntry _ | .breakpoint _ _ | .haltCommand _ _ _ _ | .resume _ _ _ _ | .step _ _ _ _ | .reload _ _ _ _
  | .masonReset _ _ _ | .programLoadDone _ _ | .pmData _ _ _ | .dmData _ _ _ | .tick _ | .overflow _ | .matchEvent _
  | .ctrl _ _ _ | .cnt _ _ _ _ | .cntRead _ _ | .cmp _ _ _ _ | .link _ _ _ | .globalStart _ _ | .globalStop _ _
  | .timerCapture _ _ | .checkValueCfg _ _ _ | .value _ _ _ _ | .flashFrame _ _ _ | .flashPoll _ _ _ | .pollInterval
  | .pollTimeout | .islandClock _ _ | .lfOsc _ | .plumb _ _ | .plumbLocked | .plumbBypass | .refLost | .refRestored
  | .rtcTrim _ | .setTime _ _ _ | .alarm | .powerOn _ _ _ | .domainReady _ | .powerOff _ _ _ | .drainEnd
  | .drainLimit | .bankReady _ | .stop _ _ _ | .stopEntered | .wake _ _ _ | .supply _ | .powerUp _ | .resetN
  | .reset _ _ _ | .startDone _ _ _ | .idReady _ | .mramWrite _ _ _ | .mramRead _ _ _ | .scrub _ _
  | .inject _ _ _ | .zero _ _ _ | .dropBad _ _ _ | .keyConfirm _ _ _ | .heartbeat _ _ _ _ _ | .heartbeatMissed
  | .bulk _ _ _ _ | .txn _ _ _ _ | .valve _ _ _ _ | .ack _ _ _ _ | .detach _ _ _ | .resend _ | .lintelPoll _
  | .confirm _ _ _ | .confirmTimeout | .unpair _ _ _ | .resumeSolo _ _ _ | .endorse _ _ _ | .probe _ _
  | .answer _ _ _ _ _ _ | .alignment | .sync _ | .sync2 _ _ | .switch _ _ _ | .estimate _ _ _ _ _ | .field _ _ _ _
  | .quiet _ | .memberStatus _ _ _ _ _ _ | .memberPoll _ _ | .memberLeft _ | .orphaned | .func _ _ _ | .edge _ _
  | .resetEnd _ _ _ | .supplyLow _ | .rdsSyncLost _ | .flashFrameEnd _ | .mramCopyDone | .blowDone _
  | .checkResult _ _ _ | .relearnNotRun | .recoveryOutcome _ | .undefinedOpcode _ => true

end Sys2Proof
end

