-- ==== Sys2Proof/Tests/Slice0.lean ====
section
/-!
SUPPORT. Sys2Proof/Tests/Slice0.lean: the model's own tests: ill-formed commands, the spec's worked examples, and for each
statement of Certificates/Slice0 that has hypotheses a theorem that shows states and operands which meet them together,
clause by clause.
-/
namespace Sys2Proof.Tests

open Sys2Proof.Machine

/- One theorem at a time: a witness evaluates a whole state in the kernel, and many at once need many large stacks. -/
set_option Elab.async false

/-! ## States the witnesses start from -/

/-- A device in Run with every domain on. -/
def run : State :=
  { State.reset with phase := .run, boot := .run, power := { State.reset.power with on := 0x3FF#10, req := 0x3FF#10 },
                     mem := { State.reset.mem with bank0Busy := false, bank1Busy := false },
                     bootUnit := { State.reset.bootUnit with holdReset := false }
                     clocks := { State.reset.clocks with islands := 0xFF#8 } }

/-- That device, with registers set. -/
def withRegs (l : List (Nat × Word)) : State := l.foldl (fun s e => setReg e.1 e.2 s) run

/-- Pairs of an address and a word, from an address on. -/
def numbered (a : Nat) (ws : List (BitVec 14)) : List (Nat × BitVec 14) :=
  match ws with
  | [] => []
  | w :: t => (a, w) :: numbered (a + 1) t

/-- Mason 4 about to run these words at address 8, with these entries on its stack, the last on top. -/
def at4 (ws : List (BitVec 14)) (stack : List Word) (f : MasonUnit → MasonUnit := id) : State :=
  setMason 4 (f { MasonUnit.reset with
    state := .running, prog := numbered 8 ws, pc := 8, stack := stack ++ List.replicate (16 - stack.length) 0#32,
    depth := stack.length }) run

/-! ### One unit in a given state each, for the witnesses below -/

def masonTxn (ws : List (BitVec 14)) (st : List Word) : State :=
  setTxn 7 { Txn.free with phase := .openPhase, requester := .mason 4 } (at4 ws st)
def copState (ws : List (BitVec 14)) (st : List Word) (sh : Word) : State := setReg (Reg.mptCopShape + 31) sh (at4 ws st)
def copWaiting : State :=
  setMason 4 { masonAt (at4 [opWord 0x3FE0 31, 0] [1,2,3]) 4 with stall := some (.frame 31 [1,2] 2 true) } { run with now := 100000 }
def flashJob : FlashJob :=
  { id := 1, poll := true, desc := List.replicate 16 0, first := false, due := false, onPort := false, since := 0, lastEnd := 0 }
def frameDesc : List Byte := [0x9F, 0x00, 0,0, 0,0,0,0, 0,0,0,0, 4,0,0,0]
def descAt16 (d : List Byte) : State := setMem { run.mem with mortar := memPut [] 16 d } run
def pollDesc : List Byte := [5,0x00,0,0,0,0,0,0,0xFF,0xFF,1,0,1,0,0,0]
def flashOnPort (j : FlashJob) : State := setPort { PortUnit.reset with flash := some j, lines := [(1, [])] } run
def flashDummies : FlashJob := { flashJob with poll := false, onPort := true, desc := [0x9F, 0x08, 0,0, 0,0,0,0, 0,0,0,0, 4,0,0,0] }
def flashWrite : FlashJob := { flashJob with poll := false, onPort := true, desc := [0x02, 0x01, 0,0, 0,0,0,0, 0,1,0,0, 4,0,0,0] }
def flashRead : FlashJob := { flashJob with poll := false, onPort := true, desc := frameDesc }
def flashPoll : FlashJob := { flashJob with poll := true, onPort := true, desc := pollDesc }
def hostTxn (k : Nat) : State := setTxn k { Txn.free with phase := .openPhase, requester := .host } run
def queueEntry : QEntry := { seq := 3, poison := false, words := [1,2,3] }
def heldBy (h : HeldFrame) (why : HoldReason) : State := { run with host := { run.host with held := some (h, why) } }
def heldResult : State :=
  { run with doors := { run.doors with results := [{ page := 0x10, ticket := 7, poison := false, words := [] }] } }
def haltedWithIndices : State :=
  setReg 0x2C14 0x3FFF (setReg 0x2C16 0x7FFC (setMason 4 { MasonUnit.reset with state := .halted } run))
def txnSeven (x : Txn) : State := setTxn 7 x run
def queuedTest (p : Nat) (u st : Bool) (dl : Nat) : State :=
  { run with doors := { run.doors with tests := [{ id := 3, page := p, code := 0xF0, urgent := u, deadline := dl, started := st }],
                                       running := [{ id := 3, page := p, requester := .host, word := 0x00F00000, ticket := 0 }] } }
def fieldState (n : Nat) : State := setRegBits Reg.fldPatStatus 31 28 n run
def surveyState : State := setRegBits (Reg.fldPortCfg + 1) 31 31 1 (setRegBits (Reg.fldPortCfg + 7) 31 31 1 (fieldState Fs.survey))
def solveState : State :=
  setFld { run.fld with solves := [{ id := 3, ticket := 5, inputs := [], used := [1], survey := [] }] } (queuedTest 0x10 false false 0)
def headState : State := setRegBits Reg.fldArray 31 30 1 (setReg Reg.cscStatus 0x33000000 run)
def switchAsked : State := setRegBit Reg.fldCascStatus 31 headState
def withFrx (f : ReceiveUnit → ReceiveUnit) (s : State := run) : State := setFrx (f s.frx) s
def replyRun : ReplyRun :=
  { ctrl := 4, limits := 0x80000010, est := 0, wait := 0, cycle := 0, number := 0, used := [7], clipped := [], clippedAny := [],
    broken := false, window := none, formed := false, vectors := [], coils := [], k := 0, kappa := 0, chains := 0, fails := [], members := 0 }
def chainOn : State := setRegBits (Reg.frxChainCfg + 7) 31 31 1 (setRegBits (Reg.fldPortCfg + 7) 31 31 1 run)
def captureJob : CaptureJob := { id := 3, chains := [7], base := 0x1000, pairs := 2, cycles := 8, waiting := false, since := 0 }
def runningDoor (p : Nat) (s : State :=
  run) : State := { s with doors := { s.doors with nextId := 7, running := [{ id := 3, page := p, requester := .host, word := 0x00F00000, ticket := 0 }] } }
def withMortar (a : Nat) (bs : List Byte) (s : State := run) : State := setMem { s.mem with mortar := memPut s.mem.mortar a bs } s
def exchangeDesc : List Byte := [1,0,0,0,0,0, 2,0, 16,0, 0,0, 0,0,0,0, 0x26, 0x27]
def inventoryDesc : List Byte := [1,0,0,1] ++ List.replicate 8 0 ++ [0,0, 1,0, 100,0] ++ List.replicate 14 0
def inventoryJob : NfcJob := { id := 3, ticket := 9, inventory := true, page := 0x15, desc := inventoryDesc, tx := [] }
def withNfc (f : NfcUnit → NfcUnit) (s : State := run) : State := setNfc (f s.nfc) s
def nfcRun (j : NfcJob) : NfcRun := { startRun run j with reserved := 1 }
def exchangeJob : NfcJob :=
  { id := 3, ticket := 9, inventory := false, page := 0x14, desc := exchangeDesc.take 16, tx := [0x26, 0x27] }
def fieldOn (s : State := run) : State := setRegBits Reg.fldPatStatus 31 28 Fs.on s
def runningJob (r : NfcRun) : State := withNfc (fun n => { n with table := [r.job], run := some r }) (fieldOn (runningDoor 0x14))
def replyWindow (r : NfcRun) (q : Option ReplyRun) : State :=
  withFrx (fun f => { f with windowOpen := true, reply := q }) (runningJob r)
def withCard (f : CardUnit → CardUnit) (s : State := run) : State := setCard (f s.card) s
def detectOn : State := setRegBits Reg.lpdRunCtrl 31 31 1 (setRegBits (Reg.fldPortCfg + 7) 31 31 1 run)
def baseline : List (Int × Int) := List.replicate 7 (0,0) ++ [(1000, 0)]
def pathAt (p role mode st : Nat) (sync : Bool) (s : State := run) : State :=
  s |> setRegBits (bpReg p Reg.bpRole) 31 30 role |> setRegBits (bpReg p Reg.bpTune) 31 28 mode |> setRegBits (bpReg p Reg.bpStatus) 31 28 st
    |> setRegBits (bpReg p Reg.bpStatus) 27 27 (bit01 sync)
def withBcast (f : BcastUnit → BcastUnit) (s : State := run) : State := setBcast (f s.bcast) s
def pathReport : PathReport := { level := 3, snr := 60, detail := 5, foffset := 6, pilot := true, width := 120, trim := 0 }
def following (s : State :=
  run) : State := s |> setRegBits (bpReg 0 Reg.bpRole) 27 27 1 |> setReg (bpReg 0 Reg.bpService) 7 |> setRegBits (bpReg 0 Reg.bpCand + 15) 31 30 2
def twoPaths (s : State := run) : State := pathAt 3 2 2 Bs.locked true (pathAt 0 1 2 Bs.locked true s)
def verifying (s : State) : State := withBcast (fun b => { b with verifying := some (0, 15) }) s
def scanJob (scan : Bool) : BpJob :=
  { id := 3, ticket := 8, scan := scan, arg := 0x0160, tune := 0, started := true, startNow := 0, stations := 118, point := 0 }
def pathJob (b : BpJob) : State := setPath 3 { BcastPath.reset with jobs := [b] } (runningDoor 0x1B twoPaths)
def selectorOn (w : Word) (s : State := pathAt 3 1 3 Bs.locked true) : State := setReg (selReg 0 3) w s
def minuteReport : MinuteReport :=
  { seconds := List.replicate 60 0x3FF#10, ageUs := 7 }
def copyRec (n : Nat) : CopyRec := { entry := 7, bytes := List.replicate n 6 }
def voteEntry : VoteEntry :=
  { stream := 0, seq := 6, first := List.replicate 9 6, firstUsec := 0, agree := [1], confirmed := false, disputed := false }
def decodeReq (n : Nat) : DecodeReq := { mason := 2, left := n, urgent := false, submitted := 0, bits := 5000, frame := none }
def decoding (n : Nat) : State := setDecoder { DecoderUnit.reset with running := some false, normal := [decodeReq n] } run
def cipherDesc (mode flags slot tl : Byte) (dst : Byte := 2) : List Byte :=
  [mode, flags, slot, tl, 0,0,0,0] ++ List.replicate 12 0 ++ [0,0,0,0, 0,1,0,0, 0,dst,0,0, 0,3,0,0, 2,0, 0,0] ++ List.replicate 8 0
def cipherJob (d : List Byte) (ph : CipherPhase) (kind : CipherKind := .cipher) : CipherJob :=
  { id := 3, ticket := 9, requester := .host, kind := kind, slot := leField d 2 1, desc := d, phase := ph,
    counter := 0, provReads := 0, good := false, left := 0, startNow := 0 }
def keySlot (modes : Nat) : KeySlot :=
  { size := 0, modes := modes, users := 127, key := List.replicate 16 1, ctr := 5, hist := 64, node := none, used := 0 }
def cipherState (j : CipherJob) (k : Option KeySlot) : State :=
  setSlot j.slot k (setCipher { CipherUnit.reset with jobs := [j] } (runningDoor 0x0A))
def keyDesc (slot : Byte) : List Byte := [slot, 2, 63, 127, 1,0,0,0] ++ List.replicate 8 0 ++ List.replicate 32 0x55
def nodeDesc : List Byte := [0xFF,1, 5,0, 2, 0,0,0] ++ List.replicate 40 3
def randomDesc : List Byte := [0x00,0xF0,0x1F,0, 0,0x10,0,0]
def ecdhDesc : List Byte := List.replicate 64 1 ++ [19, 2, 63, 127, 0,0,0,0] ++ List.replicate 32 7
def pkJob (code : Nat) : PkJob := { id := 3, ticket := 4, code := code, desc := List.replicate 160 1 }
def pkState (code : Nat) (rng : Bool) : State :=
  { runningDoor 0x0B with ident := { run.ident with rngOk := rng, jobs := [pkJob code] } }
def copySetup : State := setReg Reg.nvlDst 0x080000 (setReg Reg.nvlLength 65536 (setReg Reg.nvlSrc 0x1F0000 run))
def copyJob (w : Bool) : NvlCopy := { id := 3, write := w, dst := 0x080000, src := 0x1000, left := 16 }
def blowing : State := { runningDoor 0x0C with nvl := { run.nvl with blows := [(3, 1)] } }
def radioAt (r y : Nat) (f : RadioUnit → RadioUnit := id) (mode : Nat := 1) (s : State := run) : State :=
  s |> setRegBits Reg.vlrState 31 28 r |> setRegBits Reg.vlrSynth 31 28 y |> setRegBits Reg.vlrCtrl 31 30 mode
    |> (fun t => setRadio (f { t.radio with cfg := liveConfig t }) t)
def reception : Reception :=
  { portB := false, level := 3, foffset := 4, word1 := true, errors := 0, syncUs := 0, channel := 0, length := none, atUs := 0, meter := false }
def transmission (k : TxKind) : Transmission :=
  { kind := k, channel := 0, bytes := [1,2], airtime := 900, pri := false, reqUs := 0, step3Us := 0, startUs := 0, band := 8, ramped := false,
    capped := false, code := 0, level := 0, downUs := 0, modulated := false }
def sending (r y : Nat) (k : TxKind) (f : RadioUnit → RadioUnit :=
  id) : State := radioAt r y (fun u => f { u with tx := some (transmission k) })
def meterFrame : List Byte :=
  let b : List Byte := 9 :: List.replicate 9 5
  b ++ beBytes 2 (meterCrc b)
def meterRx : Reception := { reception with meter := true }
def meterReport (c1 ok : Bool) : MeterReport :=
  { modeC1 := c1, formatB := false, foffset := 0, chips := if ok then airBits meterFrame else [] }
def sendDesc : List Byte := [0xFF,1, 0,0, 0, 0, 0, 3, 1,0, 0,0, 0,0,0,0, 7,8,9]
def linkOn (s : State) : State := setReg Reg.vlqCtrl 0x80000001 s
def withSlot (k : Nat) (o : OutSlot) (s : State := run) : State := setOut k o s
def outSlot (st : Nat) : OutSlot :=
  { OutSlot.free with state := st, id := 3, ticket := 5, order := 1, desc := sendDesc, payload := [7,8,9], sealed := some [1,2,3] }
def captured (b : List Byte) : CapturedFrame := { rx := reception, bytes := b, corr := 0, coded := 0, rate := 0, endUs := 0 }
def goodFrame : List Byte := let b := frameHead 0 false false false 0 7 9 1 ++ List.replicate 8 0; b ++ beBytes 2 (valveCrc b)
def lateAck : AckDue := { node := 1, seq := 2, channel := 0, dueUs := 0, data := false, started := false }
def mason4In (st : MasonState) : State := setMason 4 { MasonUnit.reset with state := st, dram := [(4, 5)] } run
def mason3Loading : State := setMason 3 { MasonUnit.reset with state := .loading } run
def mason3BadImage : State := setMem { mason3Loading.mem with mramPoison := [8] } mason3Loading
def withClocks (f : Clocks → Clocks) (s : State := run) : State := setClocks (f s.clocks) s
def withPower (f : Power → Power) (s : State := run) : State := setPower (f s.power) s
def lowPower : State := withPower (fun p => { p with on := 3#10, req := 3#10 })
def bootReset : State := { run with phase := .inReset, boot := .startUp }
def generating (r : Bool) : State :=
  { run with bootUnit := { run.bootUnit with idGen := true }, ident := { run.ident with rngOk := r, state := 1, certLen := 0 } }
def inStartUp : State := { run with boot := .startUp }
def twinAt (st role : Nat) (f : TwinUnit → TwinUnit := id) (s : State := run) : State :=
  s |> setReg Reg.twnCtrl 0xC0000000 |> setRegBits Reg.twnPortCtrl 31 31 1 |> setRegBits Reg.twnPortCtrl 30 29 1 |> setRegBits Reg.twnStatus 31 28 st
    |> setRegBits Reg.twnStatus 27 26 role |> (fun t => setTwin (f t.twin) t)
def hello (sil : Word) : PeerHello :=
  { serial := 0x1122334455667788, priority := 3, acting := true, nodes := false, silicon := sil, random := List.replicate 16 9, cascade := none }
def identOf (g : Bool) : PeerIdent :=
  { certGood := g, key := List.replicate 64 1, oem := List.replicate 64 0, endorsement := List.replicate 64 0, autoPair := false }
def sessionSlot : KeySlot :=
  { size := 0, modes := 16, users := 2, key := List.replicate 16 1, ctr := 0, hist := 64, node := none, used := 0 }
def paired (role : Nat) (f : TwinUnit → TwinUnit := id) (s : State := run) : State :=
  twinAt Tw.paired role (fun t => f { t with step := 3, becoming := role, inCtr := 5 }) (setSlot 18 (some sessionSlot) (setSlot 19 (some sessionSlot) s))
def slotImage : SlotImage :=
  { state := 1, attempts := 2, result := 0, ticket := 4, desc := List.replicate 16 1, payload := [5], sealed := none }
def cascadeAt (pos : Nat) (f : CascadeUnit → CascadeUnit := id) (s : State := run) : State :=
  s |> setRegBits Reg.cscPortCtrl 31 31 1 |> setReg Reg.cscCtrl (0x80000000 ||| fieldWord 29 28 pos) |> setRegBits Reg.cscStatus 31 28 Cc.running
    |> (fun t => setCascade (f t.cascade) t) |> (fun t => setClocks { t.clocks with plumb := .locked } t)
def loadJob (l : List (Nat × Nat)) : CascLoad := { id := 3, left := l }
def loadingHead (l : List (Nat × Nat)) : State :=
  cascadeAt 0 id (setFld { run.fld with load := some (loadJob l) } (runningDoor 0x10))
def memberPresent : State :=
  setRegBit Reg.cscStatus 26 (cascadeAt 0 (fun c => { c with missed := [0,0,10], reports := [(0,false,false,0),(0,false,false,0),(0,false,false,0)] }))
def memberOn : State := setRegBits Reg.fldArray 31 30 2 (cascadeAt 3)

theorem freeTouchesNone : ∀ x : Txn, x ∈ (cascadeAt 3).txn.ids → ∀ i : Nat, x.touches i = false := by
  intro x hx i
  have h : x ∈ List.replicate 8 Txn.free := hx
  rw [List.eq_of_mem_replicate h]
  rfl


/-! ### Later additions -/

def recovery0 (bs : List Byte) : State :=
  setReg Reg.mptXipCtrl 0x80000000 (setPort { PortUnit.reset with lines := [(0, List.replicate 16 0 ++ bs)] }
    (setMason 0 { MasonUnit.reset with state := .running } { run with boot := .recovery }))

def pollRunning : State :=
  setPort { PortUnit.reset with flash := some { flashJob with id := 3 } } { runningDoor 0x04 with now := 13561 }
def posted16 : State :=
  { run with txn := { run.txn with held := List.replicate 16 { requester := .host, index := 0x1010, word := 0, quiet := false } } }
def lateHeld : State := { heldBy (.read false 0 0x2211 1) .bank with now := 14000 }
def replied (s : State) : State := { s with host := { s.host with reply := some { statuses := [], words := [] } } }

def later (n : Nat) (s : State) : State := { s with now := n }
def portSeven (s : State) : State := setRegBits (Reg.fldPortCfg + 7) 31 31 1 s
def timerState (l : List (Nat × Word)) (acc : Option Bool := none) : State :=
  let s := withRegs l
  later 100000 { s with timers := { s.timers with accepted := List.replicate 16 acc } }

def oneRow : List (List (Int × Int)) := [List.replicate 7 (0, 0) ++ [(9000, 0)]]
def lockedTwo (f : ReceiveUnit → ReceiveUnit) : State :=
  setCascade { run.cascade with blocks := [] } (withFrx f (setRegBits Reg.umxStatus 31 30 1 (setRegBits Reg.umxStatus 26 24 6 run)))
def lateRun : ReplyRun := { replyRun with est := 1 }

def rdsCode (offset data : Nat) : BitVec 26 := BitVec.ofNat 26 (data * 1024 + (rdsRemainder 16 (data * 1024) ^^^ offset))
def groupB : BitVec 26 := rdsCode 0x198 0xF800
def goodGroup : RdsGroup := { a := 1, b := 0xF800, c := 3, d := 4, corrected := 0, cPrime := true }
def withCrc (bs : List Byte) : List Byte := bs ++ beBytes 2 (~~~(crc16 bs)).toNat
def fibBytes : List Byte := withCrc (List.replicate 30 0xFF)
def wwvb : MinuteReport :=
  { seconds := (List.range 60).map (fun n => if (tcMarkers 2).contains n then 0xFF#10 else 3#10), ageUs := 7 }
def scanEnd : BpJob := { scanJob true with point := 248 }
def onePacket : List Byte := withCrc ([0x0C, 9, 19] ++ List.replicate 19 0)

def long (s : State) : State := later 1000000000 s

def package : List Byte :=
  let p : List Byte := [0xFF, 0x0F]
  leBytes 4 0x52435650 ++ [1, 0, 0, 0] ++ leBytes 4 (crc32c p).toNat ++ [0, 0, 0, 0] ++ p
def hotSince : State :=
  long { run with work := { run.work with hotAt := some 0 :: List.replicate 5 none } }
def waitingWrite : BankWait := { who := none, addr := 16, bytes := [1, 2], idx := 0 }

def wireOf (header : Byte) : LinkFrame := { header := header, declared := 16, payload := [1, 2], ready := true }
def sentMsg (n : Nat) : TwinMsg := { counter := n, kind := 0xD3, body := [], sentAt := none }
def twoSent : State := paired 1 (fun t => { t with out := [sentMsg 4, sentMsg 5] })
def atLintel (role : Nat) (queue : List TwinMsg) : State :=
  setRegBits Reg.twnPortCtrl 30 29 role (paired 2 (fun t => { t with queue := queue }))

/-! ## Ill-formed commands are refused by the check -/

theorem test_wf_accepted : (Instr.wrInc 0x0015 [1#32] 2).wellFormed = false ∧ (Instr.wrTxn 0 0x0015 [1#32] 2).wellFormed = false
    ∧ (Instr.mwinWr 0 [] 1).wellFormed = false := by decide
theorem test_wf_index : (Instr.registerWrite .host 0x3E00 0).wellFormed = false := by decide
theorem test_wf_page : (Instr.lock .host 0x3F).wellFormed = false ∧ (Instr.softReset .host 0x3F).wellFormed = false
    ∧ (Instr.snapshot .host 0x3F 0).wellFormed = false ∧ (Instr.selfTest .host 0x3F 0 0).wellFormed = false
    ∧ (Instr.calibrate .host 0x3F 0 0).wellFormed = false ∧ (Instr.deferredStart 0x3F).wellFormed = false
    ∧ (Instr.urgentStart 0x3F).wellFormed = false ∧ (Instr.notRun 0x3F).wellFormed = false
    ∧ (Instr.testComplete 0x3F true 0 []).wellFormed = false := by decide
theorem test_wf_result : (Instr.resultRelease .host 0x00 0).wellFormed = false := by decide
theorem test_wf_trims : (Instr.ashlarChange [1, 2]).wellFormed = false := by decide
theorem test_wf_port_fault : (Instr.portFault 0 0).wellFormed = false := by decide
theorem test_wf_limiter : (Instr.limiterStep [] 0 0).wellFormed = false := by decide
theorem test_wf_survey : (Instr.surveyStep { port := 0, responses := [], selfOk := true, hottest := 0 }).wellFormed = false := by
  decide
theorem test_wf_window : (Instr.windowOpen [] []).wellFormed = false := by decide
theorem test_wf_scan : (Instr.runScan []).wellFormed = false ∧ (Instr.probeScan [300]).wellFormed = false := by decide
theorem test_wf_stream : (Instr.stream .host 0x1D10 0).wellFormed = false := by decide
theorem test_wf_psk : (Instr.pskFrame 0 (List.replicate 1018 true)).wellFormed = false := by decide +kernel
theorem test_wf_minute : (Instr.tcMinute 0 { seconds := [], ageUs := 0 }).wellFormed = false := by decide
theorem test_wf_fib : (Instr.fib 0 0 0 [1, 2]).wellFormed = false := by decide
theorem test_wf_packets : (Instr.dataGroup 0 0 [List.replicate 97 0]).wellFormed = false := by decide +kernel
theorem test_wf_capture : (Instr.captureEnd [] (List.replicate 257 0)).wellFormed = false
    ∧ (Instr.captureEnd (List.replicate 4129 0) []).wellFormed = false := by decide +kernel
theorem test_wf_meter :
    (Instr.meterFrame { modeC1 := true, formatB := false, foffset := 0, chips := List.replicate 3481 true }).wellFormed = false := by
  decide +kernel
theorem test_wf_cop : (Instr.copTimeout (List.replicate 16 0)).wellFormed = false
    ∧ (Instr.coprocessorReady (List.replicate 16 0)).wellFormed = false := by decide
theorem test_wf_line : (Instr.lineFill []).wellFormed = false := by decide
theorem test_wf_sensors : (Instr.telemetry [] 0 0).wellFormed = false ∧ (Instr.overtemp []).wellFormed = false
    ∧ (Instr.tempHigh []).wellFormed = false := by decide
theorem test_wf_load : (Instr.load (wireOf 0x10) 0 1 []).wellFormed = false := by decide
theorem test_wf_record : (Instr.record (wireOf 0) 0 true true (List.replicate 65 0)).wellFormed = false := by decide +kernel
theorem test_wf_peer :
    (Instr.hello (wireOf 0) { serial := 0, priority := 0, acting := false, nodes := false, silicon := 0, random := [], cascade := none }).wellFormed
      = false
    ∧ (Instr.ident (wireOf 0) { certGood := true, key := [], oem := [], endorsement := [], autoPair := false }).wellFormed = false := by
  decide
theorem test_wf_good : (Instr.lock .host 0x00).wellFormed = true := by decide

/-! ## The spec's worked examples and the standards it names, one step or one function each -/

def after (o : Out) : State :=
  match o with
  | .next t => t
  | _ => State.reset

/-- 03, under R112: what PAT.PAGE_ID reads. -/
theorem test_page_id : (readRegister .host 0x1100 run).2 = 0x031100E0#32 := by decide +kernel

/-- 03, worked example of a self-test: DEFERRED while an inventory job runs, then DUP for the same word. -/
theorem test_door_deferred :
    (readRegister .host 0x120E (after (execSelfTest .host 0x12 0x2B 0 (runningJob (nfcRun inventoryJob))))).2 = 0x2BF00300#32 := by
  decide +kernel
theorem test_door_duplicate :
    let s := after (execSelfTest .host 0x12 0x2B 0 (runningJob (nfcRun inventoryJob)))
    (readRegister .host 0x120E (after (execSelfTest .host 0x12 0x2B 0 s))).2 = 0x2BF08300#32
      ∧ (readRegister .host 0x120E (after (execSelfTest .host 0x12 0x2B 0x8000 s))).2 = 0x2BF08900#32 := by
  decide +kernel

/-- 11, worked example of the duty budget: the airtimes of 77 and 18 bytes. -/
theorem test_airtime : packetAirtime RadioConfig.reset 77 = 279199 ∧ packetAirtime RadioConfig.reset 18 = 82532 := by
  decide +kernel

/-- 17, worked example of INJECT: step 1 inverts symbol 0, step 2 reads the corrected word. -/
theorem test_inject :
    let s := setReg Reg.itgTarget 0x4000 { withMortar 0x4000 [0x44, 0x33, 0x22, 0x11, 0x88, 0x77, 0x66, 0x55] with boot := .startUp }
    let t := after (execInject .host 0x21 1 s)
    mortarWord t 0x4000 = 0x1122334B#32 ∧ (halfRead 0x4000 t).2.1 = 0x11223344#32
      ∧ getReg (halfRead 0x4000 t).1 Reg.itgMortarCorrected = 1#32 := by
  decide +kernel

/-- 04, worked example: the reply of TXN_BEGIN on identifier 3, and of a begin with none free (03, under R66). -/
theorem test_begin_reply :
    let busy := fun (n : Nat) => (List.range n).foldl (fun s k => setTxn k { Txn.free with phase := .openPhase } s) run
    (after (execTxnBegin (busy 3))).host.reply = some { statuses := [0x3C#8], words := [0x80000003#32] } := by
  decide +kernel

/-- 13, worked example: the multiplication at 0x0048 gives a product seen from four cycles after its issue. -/
theorem test_mul_lands :
    ((masonAt (after (execMul 4 (at4 [0x0640] [6, 7]))) 4).products.map (fun p => (p.due, p.lo, p.hi))) = [(4, 42#32, 0#32)] := by
  decide +kernel

/-- The check value of CRC-32C over the nine digits (01 R32 names the polynomial; the value is the standard's). -/
theorem test_crc32c : crc32c [0x31, 0x32, 0x33, 0x34, 0x35, 0x36, 0x37, 0x38, 0x39] = 0xE3069283#32 := by decide +kernel

/-- FIPS-197, appendix C.1. -/
theorem test_aes :
    aesEnc ((List.range 16).map (BitVec.ofNat 8)) ((List.range 16).map (fun i => BitVec.ofNat 8 (17 * i)))
      = [0x69, 0xC4, 0xE0, 0xD8, 0x6A, 0x7B, 0x04, 0x30, 0xD8, 0xCD, 0xB7, 0x80, 0x70, 0xB4, 0xC5, 0x5A] := by
  decide +kernel

/-- FIPS 180-4, the digest of "abc": its first four bytes. -/
theorem test_sha256 : (sha256 [0x61, 0x62, 0x63]).take 4 = [0xBA, 0x78, 0x16, 0xBF] := by decide +kernel

/-- The CRCs of contactless frames (07 R297): the worked values of the standards that the rule names. -/
theorem test_nfc_crc : nfcCrc 1 [0, 0] = [0xA0, 0x1E] ∧ nfcCrc 2 [0, 0, 0] = [0xCC, 0xC6] ∧ nfcCrc 3 [1, 2, 3, 4] = [0x91, 0x39]
    ∧ nfcCrc 4 [6, 0, 0xFF, 0xFF, 0, 0] = [0x09, 0x21] := by decide +kernel

/-- The CRCs of a fast information block and of a meter block over the nine digits; the values are the standards'. -/
theorem test_block_crcs :
    crc16 [0x31, 0x32, 0x33, 0x34, 0x35, 0x36, 0x37, 0x38, 0x39] = ~~~(0xD64E#16)
      ∧ meterCrc [0x31, 0x32, 0x33, 0x34, 0x35, 0x36, 0x37, 0x38, 0x39] = 0xC2B7 := by decide +kernel

/-- A port word (05 R204): full amplitude is code 1023. -/
theorem test_drive_codes : ampCode 1 = 1023 ∧ codeAmp 1023 = 1 := by decide +kernel

/-- Whitening twice gives the bytes back, and so does decoding an undisturbed coded block (10 R397, R398). -/
theorem test_air_round_trip :
    let c : RadioConfig := RadioConfig.reset
    airBytes 2 (whiten c (whiten c (airBits [0x5A, 0xC3]))) = [0x5A, 0xC3]
      ∧ cleanDecode c 16 (codedBlock c (airBits [0x5A, 0xC3])) = some (airBits [0x5A, 0xC3]) := by decide +kernel

/-! ## The hypotheses of every statement are met -/

theorem witness_StepRunsFrontCommand : ∃ (c : Instr) (rest : List Instr) (s : State), s.pending = c :: rest :=
  ⟨.txnBegin, [], { run with pending := [.txnBegin] }, rfl⟩

theorem witness_SoundnessIsKept : ∃ s t : State, s.Sound ∧ step s = .next t :=
  ⟨run, { run with now := 1 }, by constructor <;> decide +kernel, rfl⟩

theorem witness_QueueIsFirstInFirstOut :
    (∃ s t : State, s.pending = [] ∧ step s = .next t) ∧ (∃ s t : State, s.pending ≠ [] ∧ step s = .next t) :=
  ⟨⟨run, { run with now := 1 }, rfl, rfl⟩, { run with pending := [.txnBegin] }, _, nofun, rfl⟩

theorem witness_BlownFusesStayBlown : ∃ (s t : State) (k : Nat), step s = .next t ∧ s.ident.locks.getLsbD k = true :=
  ⟨run, { run with now := 1 }, 0, rfl, by decide⟩

theorem witness_MasonStackInstructions :
    (∃ (m : Fin 5) (s : State), Issues s m [0#14] ∧ HasRoom s m 0 0)
    ∧ (∃ (m : Fin 5) (s : State), Issues s m [64#14] ∧ HasRoom s m 1 2)
    ∧ (∃ (m : Fin 5) (s : State), Issues s m [128#14] ∧ HasRoom s m 1 0)
    ∧ (∃ (m : Fin 5) (s : State), Issues s m [192#14] ∧ HasRoom s m 2 2)
    ∧ (∃ (m : Fin 5) (s : State), Issues s m [256#14] ∧ HasRoom s m 2 3)
    ∧ (∃ (m : Fin 5) (s : State), Issues s m [320#14] ∧ HasRoom s m 3 3)
    ∧ (∃ (m : Fin 5) (s : State), Issues s m [384#14] ∧ HasRoom s m 2 1)
    ∧ (∃ (m : Fin 5) (s : State), Issues s m [512#14] ∧ HasRoom s m 2 1)
    ∧ (∃ (m : Fin 5) (s : State), Issues s m [576#14] ∧ HasRoom s m 2 1)
    ∧ (∃ (m : Fin 5) (s : State), Issues s m [640#14] ∧ HasRoom s m 2 1)
    ∧ (∃ (m : Fin 5) (s : State), Issues s m [704#14] ∧ HasRoom s m 2 1)
    ∧ (∃ (m : Fin 5) (s : State), Issues s m [768#14] ∧ HasRoom s m 2 1)
    ∧ (∃ (m : Fin 5) (s : State), Issues s m [832#14] ∧ HasRoom s m 1 1)
    ∧ (∃ (m : Fin 5) (s : State), Issues s m [896#14] ∧ HasRoom s m 1 1)
    ∧ (∃ (m : Fin 5) (s : State), Issues s m [2944#14] ∧ HasRoom s m 2 1)
    ∧ (∃ (m : Fin 5) (s : State), Issues s m [3008#14] ∧ HasRoom s m 2 1)
    ∧ (∃ (m : Fin 5) (s : State), Issues s m [3072#14] ∧ HasRoom s m 2 1)
    ∧ (∃ (m : Fin 5) (n : Fin 16) (s : State), Issues s m [opWord 448 ↑n] ∧ HasRoom s m (↑n + 1) (↑n + 2)) := by
  refine ⟨⟨4, at4 [0] [], ?_, ?_⟩,
    ⟨4, at4 [0x40] [7], ?_, ?_⟩,
    ⟨4, at4 [0x80] [7], ?_, ?_⟩,
    ⟨4, at4 [0xC0] [7,9], ?_, ?_⟩,
    ⟨4, at4 [0x100] [7,9], ?_, ?_⟩,
    ⟨4, at4 [0x140] [7,9,11], ?_, ?_⟩,
    ⟨4, at4 [0x180] [7,9,11], ?_, ?_⟩,
    ⟨4, at4 [0x200] [7,9,11], ?_, ?_⟩,
    ⟨4, at4 [0x240] [7,9,11], ?_, ?_⟩,
    ⟨4, at4 [0x280] [7,9,11], ?_, ?_⟩,
    ⟨4, at4 [0x2C0] [7,9,11], ?_, ?_⟩,
    ⟨4, at4 [0x300] [7,9,11], ?_, ?_⟩,
    ⟨4, at4 [0x340] [7,9,11], ?_, ?_⟩,
    ⟨4, at4 [0x380] [7,9,11], ?_, ?_⟩,
    ⟨4, at4 [0xB80] [7,9,0xFFFFFFFF], ?_, ?_⟩,
    ⟨4, at4 [0xBC0] [7,9,0xFFFFFFFF], ?_, ?_⟩,
    ⟨4, at4 [0xC00] [7,9,9], ?_, ?_⟩,
    ⟨4, 14, at4 [opWord 0x1C0 14] (List.replicate 15 3), ?_, ?_⟩⟩ <;>
    first | decide +kernel | (unfold HasRoom; decide +kernel) | (constructor <;> decide +kernel)

theorem witness_MasonShiftsAndLiterals :
    (∃ (m : Fin 5) (n : Fin 32) (s : State), Issues s m [opWord 1024 ↑n] ∧ HasRoom s m 1 1)
    ∧ (∃ (m : Fin 5) (n : Fin 32) (s : State), Issues s m [opWord 1088 ↑n] ∧ HasRoom s m 1 1)
    ∧ (∃ (m : Fin 5) (n : Fin 32) (s : State), Issues s m [opWord 1152 ↑n] ∧ HasRoom s m 1 1)
    ∧ (∃ (m : Fin 5) (n : Fin 32) (s : State), Issues s m [opWord 1216 ↑n] ∧ HasRoom s m 1 1)
    ∧ (∃ (m : Fin 5) (s : State), Issues s m [1280#14] ∧ HasRoom s m 2 1)
    ∧ (∃ (m : Fin 5) (s : State), Issues s m [1344#14] ∧ HasRoom s m 2 1)
    ∧ (∃ (m : Fin 5) (s : State), Issues s m [1408#14] ∧ HasRoom s m 2 1)
    ∧ (∃ (m : Fin 5) (i : BitVec 6) (s : State), Issues s m [opWord 960 i.toNat] ∧ HasRoom s m 1 1)
    ∧ (∃ (m : Fin 5) (i : BitVec 6) (s : State), Issues s m [opWord 1472 i.toNat] ∧ HasRoom s m 0 1)
    ∧ (∃ (m : Fin 5) (i : BitVec 6) (s : State), Issues s m [opWord 1536 i.toNat] ∧ HasRoom s m 0 1)
    ∧ (∃ (m : Fin 5) (n : Fin 64) (s : State), Issues s m [opWord 1984 ↑n] ∧ HasRoom s m 0 1)
    ∧ (∃ (m : Fin 5) (n : Fin 64) (s : State), Issues s m [opWord 1984 ↑n] ∧ HasRoom s m 0 1)
    ∧ (∃ (m : Fin 5) (p : Fin 8) (f : BitVec 6) (s : State), Issues s m [opWord 6656 (64 * ↑p + f.toNat)] ∧ HasRoom s m 0 1)
    ∧ (∃ (m : Fin 5) (s : State), Issues s m [1728#14] ∧ HasRoom s m 2 1)
    ∧ (∃ (m : Fin 5) (s : State), Issues s m [1792#14] ∧ HasRoom s m 2 1)
    ∧ (∃ (m : Fin 5) (s : State), Issues s m [1856#14] ∧ HasRoom s m 1 1)
    ∧ (∃ (m : Fin 5) (s : State), Issues s m [1920#14] ∧ HasRoom s m 1 1)
    ∧ (∃ (m : Fin 5) (k : BitVec 14) (s : State), Issues s m [12288#14, k] ∧ HasRoom s m 0 1)
    ∧ (∃ (m : Fin 5) (k : BitVec 14) (s : State), Issues s m [12352#14, k] ∧ HasRoom s m 1 1) := by
  refine ⟨⟨4, 31, at4 [opWord 0x400 31] [7], ?_, ?_⟩,
    ⟨4, 31, at4 [opWord 0x440 31] [0x80000007], ?_, ?_⟩,
    ⟨4, 31, at4 [opWord 0x480 31] [0x80000007], ?_, ?_⟩,
    ⟨4, 31, at4 [opWord 0x4C0 31] [0x80000007], ?_, ?_⟩,
    ⟨4, at4 [0x500] [0x80000007, 35], ?_, ?_⟩,
    ⟨4, at4 [0x540] [0x80000007, 35], ?_, ?_⟩,
    ⟨4, at4 [0x580] [0x80000007, 35], ?_, ?_⟩,
    ⟨4, 63, at4 [opWord 0x3C0 63] [0x80000007, 35], ?_, ?_⟩,
    ⟨4, 63, at4 [opWord 0x5C0 63] [0x80000007, 35], ?_, ?_⟩,
    ⟨4, 63, at4 [opWord 0x600 63] [0x80000007, 35], ?_, ?_⟩,
    ⟨4, 63, at4 [opWord 0x7C0 63] [0x80000007, 35], ?_, ?_⟩,
    ⟨4, 3, at4 [opWord 0x7C0 3] [0x80000007, 35], ?_, ?_⟩,
    ⟨4, 7, 63, at4 [opWord 0x1A00 511] [0x80000007, 35], ?_, ?_⟩,
    ⟨4, at4 [0x6C0] [0x80000007, 35], ?_, ?_⟩,
    ⟨4, at4 [0x700] [0x80000007, 35], ?_, ?_⟩,
    ⟨4, at4 [0x740] [0x80000007, 35], ?_, ?_⟩,
    ⟨4, at4 [0x780] [0x80000007, 35], ?_, ?_⟩,
    ⟨4, 0x3FFF, at4 [0x3000, 0x3FFF] [0x80000007, 35], ?_, ?_⟩,
    ⟨4, 0x3FFF, at4 [0x3040, 0x3FFF] [0x80000007, 35], ?_, ?_⟩⟩ <;>
    first | decide +kernel | (unfold HasRoom; decide +kernel) | (constructor <;> decide +kernel)

theorem witness_MasonMultiplierAndRegisters :
    (∃ (m : Fin 5) (s : State), Issues s m [1600#14] ∧ HasRoom s m 2 0)
    ∧ (∃ (m : Fin 5) (s : State), Issues s m [1664#14] ∧ HasRoom s m 2 0)
    ∧ (∃ (m : Fin 5) (s : State) (p : Product) (rest : List Product), (masonAt s m).products = p :: rest ∧ p.due ≤ (masonAt s
      m).cycle)
    ∧ (∃ (m : Fin 5) (s : State) (n : Fin 64) (v : MasonUnit), Issues s m [opWord 2048 ↑n] ∧ HasRoom s m 1 0 ∧ sprWrite
      ((unitNow s m).pop 1) (↑n) ((unitNow s m).top 0) = some v ∧ v.atLe v.pc = false)
    ∧ (∃ (m : Fin 5) (s : State) (n : Fin 64), Issues s m [opWord 2048 ↑n] ∧ HasRoom s m 1 0 ∧ sprWrite ((unitNow s m).pop 1)
      (↑n) ((unitNow s m).top 0) = none)
    ∧ (∃ (m : Fin 5) (s : State) (p : Fin 8) (i : BitVec 6), Issues s m [opWord 6144 (64 * ↑p + i.toNat)])
    ∧ (∃ (m : Fin 5) (s : State) (p : Fin 8), Issues s m [opWord 7168 (64 * ↑p)] ∧ HasRoom s m 1 0) := by
  refine ⟨⟨4, at4 [0x640] [0x80000001, 0x7FFFFFFF], ?_, ?_⟩,
    ⟨4, at4 [0x680] [0x80000001, 0x7FFFFFFF], ?_, ?_⟩,
    ⟨4, at4 [] [] (fun u => { u with products := [{due := 3, lo := 5, hi := 6}], cycle := 3 }), {due := 3, lo := 5, hi := 6},
      [], ?_, ?_⟩,
    ⟨4, at4 [opWord 0x800 2] [4], 2, { (unitNow (at4 [opWord 0x800 2] [4]) 4).pop 1 with crcSel := 4 }, ?_, ?_, ?_, ?_⟩,
    ⟨4, at4 [opWord 0x800 63] [4], 63, ?_, ?_, ?_⟩,
    ⟨4, at4 [opWord 0x1800 (64*7+63)] [4], 7, 63, ?_⟩,
    ⟨4, at4 [opWord 0x1C00 (64*7)] [4], 7, ?_, ?_⟩⟩ <;>
    first | decide +kernel | (unfold HasRoom; decide +kernel) | (constructor <;> decide +kernel)

theorem witness_MasonBranchesAndCalls :
    (∃ (m : Fin 5) (off : BitVec 9) (s : State), Issues s m [opWord 8192 (512 * 0 + off.toNat)] ∧ HasRoom s m 2 0 ∧ (unitNow s
      m).top 1 = (unitNow s m).top 0 ∧ 0 ≤ ↑(unitNow s m).pc + 1 + off.toInt ∧ ↑(unitNow s m).pc + 1 + off.toInt ≤ 16383)
    ∧ (∃ (m : Fin 5) (off : BitVec 9) (s : State), Issues s m [opWord 8192 (512 * 0 + off.toNat)] ∧ HasRoom s m 2 0 ∧ (¬(unitNow
      s m).top 1 = (unitNow s m).top 0))
    ∧ (∃ (m : Fin 5) (off : BitVec 9) (s : State), Issues s m [opWord 8192 (512 * 1 + off.toNat)] ∧ HasRoom s m 2 0 ∧ (unitNow s
      m).top 1 ≠ (unitNow s m).top 0 ∧ 0 ≤ ↑(unitNow s m).pc + 1 + off.toInt ∧ ↑(unitNow s m).pc + 1 + off.toInt ≤ 16383)
    ∧ (∃ (m : Fin 5) (off : BitVec 9) (s : State), Issues s m [opWord 8192 (512 * 1 + off.toNat)] ∧ HasRoom s m 2 0 ∧ (¬(unitNow
      s m).top 1 ≠ (unitNow s m).top 0))
    ∧ (∃ (m : Fin 5) (off : BitVec 9) (s : State), Issues s m [opWord 8192 (512 * 2 + off.toNat)] ∧ HasRoom s m 2 0 ∧
      BitVec.toInt ((unitNow s m).top 1) < BitVec.toInt ((unitNow s m).top 0) ∧ 0 ≤ ↑(unitNow s m).pc + 1 + off.toInt ∧
      ↑(unitNow s m).pc + 1 + off.toInt ≤ 16383)
    ∧ (∃ (m : Fin 5) (off : BitVec 9) (s : State), Issues s m [opWord 8192 (512 * 2 + off.toNat)] ∧ HasRoom s m 2 0 ∧
      (¬BitVec.toInt ((unitNow s m).top 1) < BitVec.toInt ((unitNow s m).top 0)))
    ∧ (∃ (m : Fin 5) (off : BitVec 9) (s : State), Issues s m [opWord 8192 (512 * 3 + off.toNat)] ∧ HasRoom s m 2 0 ∧
      BitVec.toInt ((unitNow s m).top 0) ≤ BitVec.toInt ((unitNow s m).top 1) ∧ 0 ≤ ↑(unitNow s m).pc + 1 + off.toInt ∧
      ↑(unitNow s m).pc + 1 + off.toInt ≤ 16383)
    ∧ (∃ (m : Fin 5) (off : BitVec 9) (s : State), Issues s m [opWord 8192 (512 * 3 + off.toNat)] ∧ HasRoom s m 2 0 ∧
      (¬BitVec.toInt ((unitNow s m).top 0) ≤ BitVec.toInt ((unitNow s m).top 1)))
    ∧ (∃ (m : Fin 5) (off : BitVec 9) (s : State), Issues s m [opWord 8192 (512 * 4 + off.toNat)] ∧ HasRoom s m 2 0 ∧
      BitVec.toNat ((unitNow s m).top 1) < BitVec.toNat ((unitNow s m).top 0) ∧ 0 ≤ ↑(unitNow s m).pc + 1 + off.toInt ∧
      ↑(unitNow s m).pc + 1 + off.toInt ≤ 16383)
    ∧ (∃ (m : Fin 5) (off : BitVec 9) (s : State), Issues s m [opWord 8192 (512 * 4 + off.toNat)] ∧ HasRoom s m 2 0 ∧
      (¬BitVec.toNat ((unitNow s m).top 1) < BitVec.toNat ((unitNow s m).top 0)))
    ∧ (∃ (m : Fin 5) (off : BitVec 9) (s : State), Issues s m [opWord 8192 (512 * 5 + off.toNat)] ∧ HasRoom s m 2 0 ∧
      BitVec.toNat ((unitNow s m).top 0) ≤ BitVec.toNat ((unitNow s m).top 1) ∧ 0 ≤ ↑(unitNow s m).pc + 1 + off.toInt ∧
      ↑(unitNow s m).pc + 1 + off.toInt ≤ 16383)
    ∧ (∃ (m : Fin 5) (off : BitVec 9) (s : State), Issues s m [opWord 8192 (512 * 5 + off.toNat)] ∧ HasRoom s m 2 0 ∧
      (¬BitVec.toNat ((unitNow s m).top 0) ≤ BitVec.toNat ((unitNow s m).top 1)))
    ∧ (∃ (m : Fin 5) (off : BitVec 9) (s : State), Issues s m [opWord 8192 (512 * 6 + off.toNat)] ∧ HasRoom s m 1 0 ∧ (unitNow s
      m).top 0 = 0#32 ∧ 0 ≤ ↑(unitNow s m).pc + 1 + off.toInt ∧ ↑(unitNow s m).pc + 1 + off.toInt ≤ 16383)
    ∧ (∃ (m : Fin 5) (off : BitVec 9) (s : State), Issues s m [opWord 8192 (512 * 6 + off.toNat)] ∧ HasRoom s m 1 0 ∧ (¬(unitNow
      s m).top 0 = 0#32))
    ∧ (∃ (m : Fin 5) (off : BitVec 9) (s : State), Issues s m [opWord 8192 (512 * 7 + off.toNat)] ∧ HasRoom s m 1 0 ∧ (unitNow s
      m).top 0 ≠ 0#32 ∧ 0 ≤ ↑(unitNow s m).pc + 1 + off.toInt ∧ ↑(unitNow s m).pc + 1 + off.toInt ≤ 16383)
    ∧ (∃ (m : Fin 5) (off : BitVec 9) (s : State), Issues s m [opWord 8192 (512 * 7 + off.toNat)] ∧ HasRoom s m 1 0 ∧ (¬(unitNow
      s m).top 0 ≠ 0#32))
    ∧ (∃ (m : Fin 5) (s : State) (k : BitVec 14), Issues s m [12416#14, k])
    ∧ (∃ (m : Fin 5) (s : State), Issues s m [2368#14] ∧ HasRoom s m 1 0 ∧ BitVec.toNat ((unitNow s m).top 0) < 16384)
    ∧ (∃ (m : Fin 5) (s : State) (mask : Byte) (k : BitVec 14), Issues s m [opWord 12544 (BitVec.toNat mask), k] ∧ (unitNow s
      m).rdepth + (maskList (BitVec.toNat mask)).length + 1 ≤ 32)
    ∧ (∃ (m : Fin 5) (s : State) (mask : Byte), Issues s m [opWord 13824 (BitVec.toNat mask), 0#14] ∧ HasRoom s m 1 0 ∧
      BitVec.toNat ((unitNow s m).top 0) < 16384 ∧ (unitNow s m).rdepth + (maskList (BitVec.toNat mask)).length + 1 ≤ 32)
    ∧ (∃ (m : Fin 5) (s : State), Issues s m [2432#14] ∧ 0 < (unitNow s m).rdepth) := by
  refine ⟨⟨4, 3, at4 [opWord 0x2000 (0x200*0+3)] [5,5], ?_, ?_, ?_, ?_, ?_⟩,
    ⟨4, 3, at4 [opWord 0x2000 (0x200*0+3)] [5,6], ?_, ?_, ?_⟩,
    ⟨4, 0x1FE, at4 [opWord 0x2000 (0x200*1+0x1FE)] [5,6], ?_, ?_, ?_, ?_, ?_⟩,
    ⟨4, 3, at4 [opWord 0x2000 (0x200*1+3)] [5,5], ?_, ?_, ?_⟩,
    ⟨4, 3, at4 [opWord 0x2000 (0x200*2+3)] [0xFFFFFFFF,6], ?_, ?_, ?_, ?_, ?_⟩,
    ⟨4, 3, at4 [opWord 0x2000 (0x200*2+3)] [5,5], ?_, ?_, ?_⟩,
    ⟨4, 3, at4 [opWord 0x2000 (0x200*3+3)] [5,5], ?_, ?_, ?_, ?_, ?_⟩,
    ⟨4, 3, at4 [opWord 0x2000 (0x200*3+3)] [0xFFFFFFFF,5], ?_, ?_, ?_⟩,
    ⟨4, 3, at4 [opWord 0x2000 (0x200*4+3)] [5,6], ?_, ?_, ?_, ?_, ?_⟩,
    ⟨4, 3, at4 [opWord 0x2000 (0x200*4+3)] [5,5], ?_, ?_, ?_⟩,
    ⟨4, 3, at4 [opWord 0x2000 (0x200*5+3)] [5,5], ?_, ?_, ?_, ?_, ?_⟩,
    ⟨4, 3, at4 [opWord 0x2000 (0x200*5+3)] [5,6], ?_, ?_, ?_⟩,
    ⟨4, 3, at4 [opWord 0x2000 (0x200*6+3)] [0], ?_, ?_, ?_, ?_, ?_⟩,
    ⟨4, 3, at4 [opWord 0x2000 (0x200*6+3)] [5], ?_, ?_, ?_⟩,
    ⟨4, 3, at4 [opWord 0x2000 (0x200*7+3)] [1], ?_, ?_, ?_, ?_, ?_⟩,
    ⟨4, 3, at4 [opWord 0x2000 (0x200*7+3)] [0], ?_, ?_, ?_⟩,
    ⟨4, at4 [0x3080, 0x3FFF] [], 0x3FFF, ?_⟩,
    ⟨4, at4 [0x940] [0x3FFF], ?_, ?_, ?_⟩,
    ⟨4, at4 [opWord 0x3100 0x81, 0x3FFF] [0x3FFF] (fun u => {u with pts := [1,2,3,4,5,6,7,8]}), 0x81, 0x3FFF, ?_, ?_⟩,
    ⟨4, at4 [opWord 0x3600 0x81, 0] [0x3FFF] (fun u => {u with pts := [1,2,3,4,5,6,7,8]}), 0x81, ?_, ?_, ?_, ?_⟩,
    ⟨4, at4 [0x980] [0x3FFF] (fun u => {u with rdepth := 3, rstack := [1,2,0x3FFFFF]}), ?_, ?_⟩⟩ <;>
    first | decide +kernel | (unfold HasRoom; decide +kernel) | (constructor <;> decide +kernel)

theorem witness_MasonLinkRoundTrip :
    (∃ (u : MasonUnit) (mask : Byte) (ret : Nat) (pts : List Word), u.rstack.length = 32 ∧ u.pts.length = 8 ∧ pts.length = 8 ∧
      u.rdepth + (maskList (BitVec.toNat mask)).length + 1 ≤ 32 ∧ ret < 16384) := by
  refine ⟨MasonUnit.reset, 0x83, 9, [1,2,3,4,5,6,7,8], ?_, ?_, ?_, ?_, ?_⟩ <;>
    decide +kernel

theorem witness_MasonLoopsAndHandlers :
    (∃ (m : Fin 5) (s : State) (n : Fin 64), (unitNow s m).le.length = 4 ∧ 0 < ↑n ∧ Issues s m [opWord 2624 ↑n] ∧ fetched s m
      ((unitNow s m).pc + 1) = true ∧ repBad (progWord s m ((unitNow s m).pc + 1)) = false)
    ∧ (∃ (m : Fin 5) (s : State) (k : BitVec 14), (unitNow s m).le.length = 4 ∧ Issues s m [13568#14, k] ∧ HasRoom s m 1 0 ∧
      (unitNow s m).top 0 ≠ 0#32 ∧ (unitNow s m).ld < 4 ∧ (unitNow s m).pc + 2 ≤ k.toNat)
    ∧ (∃ (m : Fin 5) (s : State) (n : Fin 64) (k : BitVec 14), (unitNow s m).le.length = 4 ∧ Issues s m [opWord 13632 ↑n, k] ∧ 0
      < ↑n ∧ (unitNow s m).ld < 4 ∧ (unitNow s m).pc + 2 ≤ k.toNat)
    ∧ (∃ (m : Fin 5) (s : State), (unitNow s m).le.length = 4 ∧ Issues s m [2688#14] ∧ 0 < (unitNow s m).ld)
    ∧ (∃ (m : Fin 5) (s : State), (unitNow s m).le.length = 4 ∧ Issues s m [2496#14] ∧ (unitNow s m).tact = true ∧ (unitNow s
      m).rleft = 0#32 ∧ (unitNow s m).lbase ≤ 4)
    ∧ (∃ (m : Fin 5) (s : State), (unitNow s m).le.length = 4 ∧ Issues s m [2560#14] ∧ (unitNow s m).eact = true ∧ (unitNow s
      m).lbase ≤ 4)
    ∧ (∃ (m : Fin 5) (s : State), (unitNow s m).le.length = 4 ∧ Issues s 4 [2752#14] ∧ masonEvt (setMason 4 (unitNow s 4) s) =
      false)
    ∧ (∃ (m : Fin 5) (s : State), (unitNow s m).le.length = 4 ∧ Issues s 4 [2752#14] ∧ masonEvt (setMason 4 (unitNow s 4) s) =
      true)
    ∧ (∃ (m : Fin 5) (s : State), (unitNow s m).le.length = 4 ∧ m ≠ 4 ∧ Issues s m [2752#14])
    ∧ (∃ (m : Fin 5) (s : State), (unitNow s m).le.length = 4 ∧ (masonAt s m).state = MasonState.waiting ∧ domainOn s
      (masonDomain m) = true ∧ testRuns s (40 + ↑m) = false ∧ (m = 4 → masonEvt s = true))
    ∧ (∃ (m : Fin 5) (s : State), (unitNow s m).le.length = 4 ∧ masonFree s m = true ∧ eventDue s m = true) := by
  refine ⟨⟨4, at4 [opWord 0xA40 63, 0] [], 63, ?_, ?_, ?_, ?_, ?_⟩,
    ⟨4, at4 [0x3500, 12] [5], 12, ?_, ?_, ?_, ?_, ?_, ?_⟩,
    ⟨4, at4 [opWord 0x3540 63, 10] [5], 63, 10, ?_, ?_, ?_, ?_, ?_⟩,
    ⟨4, at4 [0xA80] [5] (fun u => {u with ld := 1}), ?_, ?_, ?_⟩,
    ⟨4, at4 [0x9C0] [5] (fun u => {u with ld := 1, tact := true, tpc := 77, lbase := 1}), ?_, ?_, ?_, ?_, ?_⟩,
    ⟨4, at4 [0xA00] [5] (fun u => {u with ld := 1, eact := true, epc := 77, lbase := 1}), ?_, ?_, ?_, ?_⟩,
    ⟨4, at4 [0xAC0] [5], ?_, ?_, ?_⟩,
    ⟨4, setReg (pageReg 0x2C 6) 0x10000 (setReg (pageReg 0x2C 4) 2 (setReg (pageReg 0x2C 5) 2 (at4 [0xAC0] [5]))), ?_, ?_, ?_⟩,
    ⟨0, recovery0 [0xC0, 0x0A], ?_, ?_, ?_⟩,
    ⟨3, setMason 3 {MasonUnit.reset with state := .waiting} run, ?_, ?_, ?_, ?_, ?_⟩,
    ⟨3, setMason 3 {MasonUnit.reset with state := .running, ectrl := true, pc := 70} run, ?_, ?_, ?_⟩⟩ <;>
    first | decide +kernel | (unfold HasRoom; decide +kernel) | (constructor <;> decide +kernel)

theorem witness_MasonTraps :
    (∃ (m : Fin 5) (s : State), Issues s m [2816#14] ∧ debugLocked s = false)
    ∧ (∃ (m : Fin 5) (s : State), Issues s m [2880#14] ∧ debugLocked s = false)
    ∧ (∃ (m : Fin 5) (s : State) (i : Fin 4), s.masons.length = 5 ∧ masonFree s m = true ∧ (m = 4 → eventDue s 4 = false) ∧
      bpStops s m ↑i = true)
    ∧ (∃ (m : Fin 5) (s : State) (w : BitVec 14), wordsOf w = 1 ∧ progWord s m (unitNow s m).pc = w ∧ Issues s m [w] ∧ (masonAt
      s m).tact = false ∧ slotAbsent m w = false ∧ assignedWords m w (progWord s m ((unitNow s m).pc + 1)) = false)
    ∧ (∃ (m : Fin 5) (s : State), (masonAt s m).tact = false ∧ Issues s m [512#14] ∧ (unitNow s m).depth < 2)
    ∧ (∃ (m : Fin 5) (s : State), (masonAt s m).tact = false ∧ Issues s m [128#14] ∧ (unitNow s m).depth < 1)
    ∧ (∃ (m : Fin 5) (s : State), (masonAt s m).tact = false ∧ Issues s m [64#14] ∧ (unitNow s m).depth = 16)
    ∧ (∃ (m : Fin 5) (s : State) (k : BitVec 14), (masonAt s m).tact = false ∧ Issues s m [12288#14, k] ∧ (unitNow s m).depth =
      16) := by
  refine ⟨⟨4, at4 [0xB00] [5], ?_, ?_⟩,
    ⟨4, at4 [0xB40] [5], ?_, ?_⟩,
    ⟨4, setReg (pageReg 0x2C (Reg.msBp + 3)) 0x80000008 (at4 [0xB40] [5]), 3, ?_, ?_, ?_, ?_⟩,
    ⟨4, at4 [0xFFE] [5], 0xFFE, ?_, ?_, ?_, ?_, ?_, ?_⟩,
    ⟨4, at4 [0x200] [5], ?_, ?_, ?_⟩,
    ⟨4, at4 [0x80] [], ?_, ?_, ?_⟩,
    ⟨4, at4 [0x40] (List.replicate 16 0), ?_, ?_, ?_⟩,
    ⟨4, at4 [0x3000,8] (List.replicate 16 0), 8, ?_, ?_, ?_⟩⟩ <;>
    first | decide +kernel | (constructor <;> decide +kernel)

theorem witness_MasonBitInstructions :
    (∃ (m : Fin 5) (bit : BitVec 12) (s : State), bit.toNat < 1024 ∧ Issues s m [opWord 13056 0, opWord 0 bit.toNat] ∧ HasRoom s
      m 0 1)
    ∧ (∃ (m : Fin 5) (bit : BitVec 12) (s : State), bit.toNat < 1024 ∧ Issues s m [opWord 13056 1, opWord 0 bit.toNat] ∧ HasRoom
      s m 1 0)
    ∧ (∃ (m : Fin 5) (bit : BitVec 12) (s : State), bit.toNat < 1024 ∧ Issues s m [opWord 13056 2, opWord 0 bit.toNat])
    ∧ (∃ (m : Fin 5) (bit : BitVec 12) (s : State), bit.toNat < 1024 ∧ Issues s m [opWord 13056 3, opWord 0 bit.toNat])
    ∧ (∃ (m : Fin 5) (bit : BitVec 12) (s : State), bit.toNat < 1024 ∧ Issues s m [opWord 13056 4, opWord 0 bit.toNat])
    ∧ (∃ (m : Fin 5) (bit : BitVec 12) (s : State), bit.toNat < 1024 ∧ Issues s m [opWord 13056 5, opWord 0 bit.toNat] ∧ HasRoom
      s m 1 0)
    ∧ (∃ (m : Fin 5) (bit : BitVec 12) (s : State) (off : BitVec 7), bit.toNat < 1024 ∧ 0 ≤ ↑(unitNow s m).pc + 2 + off.toInt ∧
      ↑(unitNow s m).pc + 2 + off.toInt ≤ 16383 ∧ Issues s m [opWord 13312 off.toNat, opWord 0 bit.toNat])
    ∧ (∃ (m : Fin 5) (bit : BitVec 12) (s : State) (off : BitVec 7), bit.toNat < 1024 ∧ 0 ≤ ↑(unitNow s m).pc + 2 + off.toInt ∧
      ↑(unitNow s m).pc + 2 + off.toInt ≤ 16383 ∧ Issues s m [opWord 13440 off.toNat, opWord 0 bit.toNat]) := by
  refine ⟨⟨4, 0x3FF, at4 [0x3300,0x3FF] [], ?_, ?_, ?_⟩,
    ⟨4, 0x3FF, at4 [0x3301,0x3FF] [1], ?_, ?_, ?_⟩,
    ⟨4, 0x3FF, at4 [0x3302,0x3FF] [], ?_, ?_⟩,
    ⟨4, 0x3FF, at4 [0x3303,0x3FF] [], ?_, ?_⟩,
    ⟨4, 0x3FF, at4 [0x3304,0x3FF] [], ?_, ?_⟩,
    ⟨4, 0x3FF, at4 [0x3305,0x3FF] [7], ?_, ?_, ?_⟩,
    ⟨4, 0x3FF, at4 [opWord 0x3400 0x7E,0x3FF] [7], 0x7E, ?_, ?_, ?_, ?_⟩,
    ⟨4, 0x3FF, at4 [opWord 0x3480 0x7E,0x3FF] [7] (fun u => {u with bits := putBit 0#1024 0x3FF true}), 0x7E, ?_, ?_, ?_, ?_⟩⟩ <;>
    first | decide +kernel | (unfold HasRoom; decide +kernel) | (constructor <;> decide +kernel)

theorem witness_MasonLocalMemory :
    (∃ (m : Fin 5) (s : State), Issues s m [2112#14] ∧ HasRoom s m 1 1 ∧ BitVec.toNat ((unitNow s m).top 0) < 32768)
    ∧ (∃ (m : Fin 5) (s : State), Issues s m [2240#14] ∧ HasRoom s m 1 1 ∧ BitVec.toNat ((unitNow s m).top 0) < 32768)
    ∧ (∃ (m : Fin 5) (s : State) (p : Fin 8) (f : BitVec 6), HasRoom s m 0 1 ∧ Issues s m [opWord 4096 (64 * ↑p + f.toNat)] ∧
      BitVec.toNat ((unitNow s m).pt ↑p + BitVec.ofNat 32 (4 * f.toNat)) < 32768)
    ∧ (∃ (m : Fin 5) (s : State) (p : Fin 8) (f : BitVec 6), HasRoom s m 0 1 ∧ Issues s m [opWord 5120 (64 * ↑p + f.toNat)] ∧
      BitVec.toNat ((unitNow s m).pt ↑p) < 32768)
    ∧ (∃ (m : Fin 5) (s : State) (k : BitVec 14), k.toNat < 8192 ∧ HasRoom s m 0 1 ∧ Issues s m [12800#14, k])
    ∧ (∃ (m : Fin 5) (s : State), Issues s m [2176#14] ∧ HasRoom s m 2 0 ∧ BitVec.toNat ((unitNow s m).top 0) < 32768)
    ∧ (∃ (m : Fin 5) (s : State), Issues s m [2304#14] ∧ HasRoom s m 2 0 ∧ BitVec.toNat ((unitNow s m).top 0) < 32768)
    ∧ (∃ (m : Fin 5) (s : State) (p : Fin 8) (f : BitVec 6), HasRoom s m 1 0 ∧ Issues s m [opWord 4608 (64 * ↑p + f.toNat)] ∧
      BitVec.toNat ((unitNow s m).pt ↑p + BitVec.ofNat 32 (4 * f.toNat)) < 32768)
    ∧ (∃ (m : Fin 5) (s : State) (p : Fin 8) (f : BitVec 6), HasRoom s m 1 0 ∧ Issues s m [opWord 5632 (64 * ↑p + f.toNat)] ∧
      BitVec.toNat ((unitNow s m).pt ↑p) < 32768)
    ∧ (∃ (m : Fin 5) (s : State) (k : BitVec 14), k.toNat < 8192 ∧ HasRoom s m 1 0 ∧ Issues s m [12864#14, k]) := by
  refine ⟨⟨4, at4 [0x840] [0x7FFF], ?_, ?_, ?_⟩,
    ⟨4, at4 [0x8C0] [0x7FFF] (fun u => {u with dram := [(0x7FFF, 8)]}), ?_, ?_, ?_⟩,
    ⟨4, at4 [opWord 0x1000 (64*7+63)] [] (fun u => {u with dram := [(0xFD, 8)], pts := [0,0,0,0,0,0,0,1]}), 7, 63, ?_, ?_, ?_⟩,
    ⟨4, at4 [opWord 0x1400 (64*7+63)] [] (fun u => {u with dram := [(0x1, 8)], pts := [0,0,0,0,0,0,0,1]}), 7, 63, ?_, ?_, ?_⟩,
    ⟨4, at4 [0x3200, 8191] [], 8191, ?_, ?_, ?_⟩,
    ⟨4, at4 [0x880] [0x12345678, 0x7FFF], ?_, ?_, ?_⟩,
    ⟨4, at4 [0x900] [0x12345678, 0x7FFF], ?_, ?_, ?_⟩,
    ⟨4, at4 [opWord 0x1200 (64*7+63)] [0x12345678] (fun u => {u with pts := [0,0,0,0,0,0,0,1]}), 7, 63, ?_, ?_, ?_⟩,
    ⟨4, at4 [opWord 0x1600 (64*7+63)] [0x12345678] (fun u => {u with pts := [0,0,0,0,0,0,0,1]}), 7, 63, ?_, ?_, ?_⟩,
    ⟨4, at4 [0x3240, 8191] [3], 8191, ?_, ?_, ?_⟩⟩ <;>
    first | decide +kernel | (unfold HasRoom; decide +kernel) | (constructor <;> decide +kernel)

theorem witness_MemoryWordWrite :
    (∃ (a : Nat) (b : Nat) (i : Nat), i < 4 ∧ b = a + i)
    ∧ (∃ (a : Nat) (b : Nat), (b < a ∨ a + 4 ≤ b))
    ∧ (∃ (mem : Memory), mem.wf = true) := by
  refine ⟨⟨4, 5, 1, ?_, ?_⟩,
    ⟨4, 8, ?_⟩,
    ⟨[(4,1),(5,2)], ?_⟩⟩ <;>
    decide +kernel

theorem witness_MasonChecksumAndCopy :
    (∃ (m : Fin 5) (sel : Fin 5) (s : State), Issues s m [16128#14, BitVec.ofNat 14 ↑sel] ∧ HasRoom s m 3 1 ∧ BitVec.toNat
      ((unitNow s m).top 1) + BitVec.toNat ((unitNow s m).top 0) % 65536 ≤ 32768 ∧ (masonAt s m).stall = none)
    ∧ (∃ (m : Fin 5) (sel : Fin 5) (s : State), Issues s m [16129#14, BitVec.ofNat 14 ↑sel] ∧ HasRoom s m 4 1 ∧ BitVec.toNat
      ((unitNow s m).top 2) + BitVec.toNat ((unitNow s m).top 0) % 65536 ≤ 32768 ∧ BitVec.toNat ((unitNow s m).top 1) +
      BitVec.toNat ((unitNow s m).top 0) % 65536 ≤ 32768 ∧ (BitVec.toNat ((unitNow s m).top 2) + BitVec.toNat ((unitNow s m).top
      0) % 65536 ≤ BitVec.toNat ((unitNow s m).top 1) ∨ BitVec.toNat ((unitNow s m).top 1) + BitVec.toNat ((unitNow s m).top 0)
      % 65536 ≤ BitVec.toNat ((unitNow s m).top 2)) ∧ (masonAt s m).stall = none) := by
  refine ⟨⟨4, 4, at4 [0x3F00, 4] [0xFFFFFFFF, 2, 5]  (fun u => {u with dram := [(4,1),(5,2)]}), ?_, ?_, ?_, ?_⟩,
    ⟨4, 4, at4 [0x3F01, 4] [0xFFFFFFFF, 2, 16, 5]  (fun u => {u with dram := [(4,1),(5,2)]}), ?_, ?_, ?_, ?_, ?_, ?_⟩⟩ <;>
    first | decide +kernel | (unfold HasRoom; decide +kernel) | (constructor <;> decide +kernel)

theorem witness_MasonRegisterAccess :
    (∃ (m : Fin 5) (i : RegIndex) (s : State), Issues s m [opWord 12928 (BitVec.toNat i / 16384), BitVec.ofNat 14 (BitVec.toNat
      i % 16384)] ∧ HasRoom s m 0 1 ∧ inDirectory (BitVec.toNat i / 256) = true ∧ applyingReg s (BitVec.toNat i) = false ∧
      msPage (BitVec.toNat i / 256) = none ∧ pageUp (setMason m (unitNow s m) (fetchInstr m s)) (BitVec.toNat i / 256) = true ∧
      timerOf (BitVec.toNat i) = none ∧ crossingWaits s (Requester.mason m) (BitVec.toNat i) = false)
    ∧ (∃ (m : Fin 5) (i : RegIndex) (s : State), Issues s m [opWord 12992 (BitVec.toNat i / 16384), BitVec.ofNat 14
      (BitVec.toNat i % 16384)] ∧ HasRoom s m 1 0 ∧ inDirectory (BitVec.toNat i / 256) = true ∧ boundJobs s m = []) := by
  refine ⟨⟨4, 0x2211, at4 [0x3280, 0x2211] [], ?_, ?_, ?_, ?_, ?_, ?_, ?_, ?_⟩,
    ⟨4, 0x2211, at4 [0x32C0, 0x2211] [5], ?_, ?_, ?_, ?_⟩⟩ <;>
    first | decide +kernel | (unfold HasRoom; decide +kernel) | (constructor <;> decide +kernel)

theorem witness_MasonTransactions :
    (∃ (m : Fin 5) (s : State) (n : Nat), Issues s m [16320#14, 0#14] ∧ HasRoom s m 0 1 ∧ activeSecondary (setMason m (unitNow s
      m) (fetchInstr m s)) = false ∧ lowestFree s.txn.ids 0 = some n)
    ∧ (∃ (m : Fin 5) (s : State), Issues s m [16321#14, 0#14] ∧ HasRoom s m 3 0 ∧ boundJobs s m = [] ∧ stagesInto (setMason m
      (unitNow s m) (fetchInstr m s)) (Requester.mason m) (BitVec.toNat ((unitNow s m).top 0)) = true ∧ (txnAt s (BitVec.toNat
      ((unitNow s m).top 0))).phase = TxnPhase.openPhase ∧ BitVec.toNat ((unitNow s m).top 1) < 512 ∧ pageUp (setMason m
      (unitNow s m) (fetchInstr m s)) (BitVec.toNat ((unitNow s m).top 1) / 256) = true ∧ stageRefusal (Requester.mason m)
      (setMason m (unitNow s m) (fetchInstr m s)) (BitVec.toNat ((unitNow s m).top 1)) ((unitNow s m).top 2) = none ∧ (txnAt s
      (BitVec.toNat ((unitNow s m).top 0))).regs = [] ∧ entryFits (setMason m (unitNow s m) (fetchInstr m s)) (txnAt s
      (BitVec.toNat ((unitNow s m).top 0))) false = true)
    ∧ (∃ (m : Fin 5) (s : State), Issues s m [16322#14, 0#14] ∧ HasRoom s m 3 0 ∧ boundJobs s m = [] ∧ stagesInto (setMason m
      (unitNow s m) (fetchInstr m s)) (Requester.mason m) (BitVec.toNat ((unitNow s m).top 0)) = true ∧ (txnAt s (BitVec.toNat
      ((unitNow s m).top 0))).phase = TxnPhase.openPhase ∧ BitVec.toNat ((unitNow s m).top 1) < 1048576 ∧ (txnAt s (BitVec.toNat
      ((unitNow s m).top 0))).mortar = [] ∧ poolWords s < 16384)
    ∧ (∃ (m : Fin 5) (s : State) (cond : Byte) (w : Word), Issues s m [16323#14, BitVec.setWidth 14 cond] ∧ HasRoom s m 2 1 ∧
      boundJobs s m = [] ∧ s.cipher.held = [] ∧ (commitTxn (Requester.mason m) (BitVec.toNat ((unitNow s m).top 0))
      (BitVec.toNat ((unitNow s m).top 1) % 65536) (BitVec.toNat cond) (setMason m ((unitNow s m).pop 2) (setMason m (unitNow s
      m) (fetchInstr m s)))).snd = some w)
    ∧ (∃ (m : Fin 5) (s : State), Issues s m [16324#14, 0#14] ∧ HasRoom s m 1 0 ∧ (txnAt s (BitVec.toNat ((unitNow s m).top
      0))).requester = Requester.mason m ∧ BitVec.toNat ((unitNow s m).top 0) < 8 ∧ s.txn.ids.length = 8 ∧ (txnAt s
      (BitVec.toNat ((unitNow s m).top 0))).phase = TxnPhase.openPhase) := by
  refine ⟨⟨4, at4 [0x3FC0, 0] [], 0, ?_, ?_, ?_, ?_⟩,
    ⟨4, masonTxn [0x3FC1, 0] [1, 271, 7], ?_, ?_, ?_, ?_, ?_, ?_, ?_, ?_, ?_, ?_⟩,
    ⟨4, masonTxn [0x3FC2, 0] [5, 0xFFFFF, 7], ?_, ?_, ?_, ?_, ?_, ?_, ?_, ?_⟩,
    ⟨4, masonTxn [0x3FC3, 0] [0, 7], 0, 33554432, ?_, ?_, ?_, ?_, ?_⟩,
    ⟨4, masonTxn [0x3FC4, 0] [7], ?_, ?_, ?_, ?_, ?_, ?_⟩⟩ <;>
    first | decide +kernel | (unfold HasRoom; decide +kernel) | (constructor <;> decide +kernel)

theorem witness_ExternalOperations :
    (∃ (f : Fin 32) (s : State), Issues s 4 [opWord 16352 ↑f, 0#14] ∧ HasRoom s 4 (regBits s (Reg.mptCopShape + ↑f) 6 4)
      (regBits s (Reg.mptCopShape + ↑f) 2 0) ∧ boundJobs s 4 = [])
    ∧ (∃ (f : Fin 32) (s : State), Issues s 4 [opWord 16352 ↑f, 0#14] ∧ HasRoom s 4 (regBits s (Reg.mptCopShape + ↑f) 6 4)
      (regBits s (Reg.mptCopShape + ↑f) 2 0) ∧ boundJobs s 4 = [])
    ∧ (∃ (s : State) (fn : Fin 32) (os : List Word) (n : Nat) (results : List Word), (masonAt s 4).stall = some
      (MasonStall.frame fn os n true) ∧ domainOn s 9 = true ∧ results.length = n)
    ∧ (∃ (s : State) (fn : Fin 32) (os : List Word) (n : Nat) (results : List Word), (masonAt s 4).stall = some
      (MasonStall.frame fn os n true) ∧ domainOn s 9 = true ∧ passedUs s s.port.copNow (regBits s Reg.mptCopTimeout 9 0) = true
      ∧ results.length ≤ n) := by
  refine ⟨⟨31, copState [opWord 0x3FE0 31, 0] [1,2,3] 0x80000021, ?_, ?_, ?_⟩,
    ⟨31, copState [opWord 0x3FE0 31, 0] [1,2,3] 0x21, ?_, ?_, ?_⟩,
    ⟨copWaiting, 31, [1,2], 2, [7,8], ?_, ?_, ?_⟩,
    ⟨copWaiting, 31, [1,2], 2, [7], ?_, ?_, ?_, ?_⟩⟩ <;>
    first | decide +kernel | (unfold HasRoom; decide +kernel) | (constructor <;> decide +kernel)

theorem witness_MemoryPortAndFlash :
    (∃ (s : State) (n : Nat) (demand : Bool) (data : List Byte), s.port.fill = some (n, demand) ∧ s.port.fillOn = true ∧ live s
      = true ∧ data.length = 64)
    ∧ (∃ (s : State) (j : FlashJob), s.port.flash = some j ∧ j.poll = true ∧ j.onPort = false ∧ j.due = false ∧ passedUs s
      j.lastEnd (leField j.desc 10 2) = true ∧ portBusy s = false)
    ∧ (∃ (s : State) (j : FlashJob), s.port.flash = some j ∧ j.poll = true ∧ passedMs s j.since (leField j.desc 12 2) = true ∧
      (runningCmd s j.id).isSome = true)
    ∧ (∃ (s : State) (req : Requester) (tag : Byte) (arg : BitVec 16), s.mem.symErr = [] ∧ descOff s (16 * arg.toNat) 16 = false
      ∧ s.port.flash = none ∧ portBusy s = false ∧ DoorOpen s req 4 (doorWord tag 16 arg) ∧ flashFrameBad s (mortarBytes s (16 *
      arg.toNat) 16) = false)
    ∧ (∃ (s : State) (req : Requester) (tag : Byte) (arg : BitVec 16), s.mem.symErr = [] ∧ descOff s (16 * arg.toNat) 16 = false
      ∧ s.port.flash = none ∧ portBusy s = false ∧ DoorOpen s req 4 (doorWord tag 17 arg) ∧ flashPollBad (mortarBytes s (16 *
      arg.toNat) 16) = false)
    ∧ (∃ (s : State) (j : FlashJob), s.port.flash = some j ∧ j.onPort = true ∧ j.poll = false ∧ leField j.desc 1 1 / 8 % 2 = 1)
    ∧ (∃ (s : State) (j : FlashJob), s.port.flash = some j ∧ j.onPort = true ∧ j.poll = false ∧ leField j.desc 1 1 / 8 % 2 = 0 ∧
      leField j.desc 1 1 % 2 = 1 ∧ rangeBusy s (leField j.desc 8 4) (leField j.desc 12 2) = false ∧ s.mem.symErr = [])
    ∧ (∃ (s : State) (j : FlashJob) (data : List Byte), s.port.flash = some j ∧ j.onPort = true ∧ j.poll = false ∧ leField
      j.desc 1 1 / 8 % 2 = 0 ∧ leField j.desc 1 1 % 2 = 0 ∧ data.length = leField j.desc 12 2)
    ∧ (∃ (s : State) (j : FlashJob) (b : Byte), s.port.flash = some j ∧ j.onPort = true ∧ j.poll = true ∧ j.due = false ∧
      pollHit j.desc b = false) := by
  refine ⟨⟨setPort { PortUnit.reset with fill := some (7, true), fillOn := true } run, 7, true, List.replicate 64 5, ?_, ?_, ?_, ?_⟩,
    ⟨setPort { PortUnit.reset with flash := some flashJob } run, flashJob, ?_, ?_, ?_, ?_, ?_, ?_⟩,
    ⟨pollRunning, { flashJob with id := 3 }, ?_, ?_, ?_, ?_⟩,
    ⟨descAt16 frameDesc, .host, 0xFF, 1, ?_, ?_, ?_, ?_, ?_, ?_⟩,
    ⟨descAt16 pollDesc, .host, 0xFF, 1, ?_, ?_, ?_, ?_, ?_, ?_⟩,
    ⟨flashOnPort flashDummies, flashDummies, ?_, ?_, ?_, ?_⟩,
    ⟨flashOnPort flashWrite, flashWrite, ?_, ?_, ?_, ?_, ?_, ?_, ?_⟩,
    ⟨flashOnPort flashRead, flashRead, [1,2,3,4], ?_, ?_, ?_, ?_, ?_, ?_⟩,
    ⟨flashOnPort flashPoll, flashPoll, 7, ?_, ?_, ?_, ?_, ?_⟩⟩ <;>
    first | decide +kernel | (constructor <;> decide +kernel)

theorem witness_HostReads :
    (∃ (s : State) (addr : RegIndex), s.phase = Phase.run ∧ s.host.held = none ∧ (∃ r, pageRow (BitVec.toNat addr / 256) = some
      r ∧ BitVec.toNat addr % 256 ≤ r.last) ∧ (itemCause (frameBegin s) (HostItem.reg (BitVec.toNat addr) false) = none ∧
      itemHeld (frameBegin s) (HostItem.reg (BitVec.toNat addr) false) = none))
    ∧ (∃ (s : State) (addr : RegIndex), s.phase = Phase.run ∧ s.host.held = none ∧ (∃ r, pageRow (BitVec.toNat addr / 256) =
      some r ∧ BitVec.toNat addr % 256 ≤ r.last) ∧ BitVec.toNat addr / 256 ≠ 63 ∧ (∀ (x : HostItem), x ∈ groupItems false
      (mwinBase s) (BitVec.toNat addr) 0 1 → itemCause (frameBegin s) x = none ∧ itemHeld (frameBegin s) x = none))
    ∧ (∃ (s : State), s.phase = Phase.run ∧ s.host.held = none)
    ∧ (∃ (s : State) (addr : RegIndex), s.phase = Phase.run ∧ s.host.held = none ∧ mwinBase s + 4 * BitVec.toNat addr < 1048576
      ∧ (∀ (x : HostItem), x ∈ groupItems true (mwinBase s) (BitVec.toNat addr) 0 1 → itemHeld (frameBegin s) x = none) ∧ keyGet
      s.mem.symErr ((mwinBase s + 4 * BitVec.toNat addr) / 8) 0 = 0 ∧ isPoison s ((mwinBase s + 4 * BitVec.toNat addr) / 8) =
      false) := by
  refine ⟨⟨run, 0x0010, ?_, ?_, ?_, ?_⟩,
    ⟨run, 0x0010, ?_, ?_, ?_, ?_, ?_⟩,
    ⟨run, ?_, ?_⟩,
    ⟨run, 0xFFF, ?_, ?_, ?_, ?_, ?_, ?_⟩⟩ <;>
    decide +kernel

theorem witness_HostWrites :
    (∃ (s : State) (addr : RegIndex), s.phase = Phase.run ∧ s.host.held = none ∧ postedWords s < 16 ∧ inDirectory (BitVec.toNat
      addr / 256) = true ∧ BitVec.toNat addr / 256 ≠ 63)
    ∧ (∃ (s : State) (addr : RegIndex) (w : Word), s.phase = Phase.run ∧ s.host.held = none ∧ postedWords s < 16 ∧ inDirectory
      (BitVec.toNat addr / 256) = true ∧ BitVec.toNat addr / 256 ≠ 63 ∧ (BitVec.toNat addr / 256 = 0 ∨ BitVec.toNat addr / 256 =
      2 ∨ BitVec.toNat addr / 256 = 6 ∨ BitVec.toNat addr / 256 = 13) ∧ 16 ≤ BitVec.toNat addr % 256 ∧ WriteOpen (chkWords 0 1
      [w] (frameBegin s)) Requester.host (BitVec.toNat addr) w ∧ (rowNow (chkWords 0 1 [w] (frameBegin s)) (BitVec.toNat
      addr)).isSome = true)
    ∧ (∃ (s : State), s.phase = Phase.run ∧ s.host.held = none ∧ 16 ≤ postedWords s)
    ∧ (∃ (s : State), s.phase = Phase.run ∧ s.host.held = none ∧ postedWords s < 16)
    ∧ (∃ (s : State) (a : Nat) (b : Nat) (i : Nat), a < 2097152 ∧ bankOff s a = false ∧ bankBusy s a = false ∧ writeWaits s
      Requester.host a = none ∧ keyGet s.mem.symErr (a / 8) 0 = 0 ∧ isPoison s (a / 8) = false ∧ i < 4 ∧ b = a / 4 * 4 + i)
    ∧ (∃ (s : State) (a : Nat) (b : Nat), a < 2097152 ∧ bankOff s a = false ∧ bankBusy s a = false ∧ writeWaits s Requester.host
      a = none ∧ keyGet s.mem.symErr (a / 8) 0 = 0 ∧ isPoison s (a / 8) = false ∧ (b < a / 4 * 4 ∨ a / 4 * 4 + 4 ≤ b))
    ∧ (∃ (s : State) (a : Nat), a < 2097152 ∧ bankOff s a = false ∧ bankBusy s a = false ∧ writeWaits s Requester.host a = none
      ∧ keyGet s.mem.symErr (a / 8) 0 = 0 ∧ isPoison s (a / 8) = false) := by
  refine ⟨⟨run, 0x2211, ?_, ?_, ?_, ?_, ?_⟩,
    ⟨run, 0x0013, 0, ?_, ?_, ?_, ?_, ?_, ?_, ?_, ?_, ?_⟩,
    ⟨posted16, ?_, ?_, ?_⟩,
    ⟨run, ?_, ?_, ?_⟩,
    ⟨run, 0x1FFFFF, 0x1FFFFD, 1, ?_, ?_, ?_, ?_, ?_, ?_, ?_, ?_⟩,
    ⟨run, 0x1FFFFF, 0x1FFFFB, ?_, ?_, ?_, ?_, ?_, ?_, ?_⟩,
    ⟨run, 0x1FFFFF, ?_, ?_, ?_, ?_, ?_, ?_⟩⟩ <;>
    first | decide +kernel | (constructor <;> decide +kernel)

theorem witness_HostTransactions :
    (∃ (s : State) (k : Nat), s.phase = Phase.run ∧ s.host.held = none ∧ s.txn.ids.length = 8 ∧ activeSecondary s = false ∧
      lowestFree s.txn.ids 0 = some k)
    ∧ (∃ (s : State) (k : Fin 8) (addr : RegIndex) (w : Word), s.phase = Phase.run ∧ s.host.held = none ∧ s.txn.ids.length = 8 ∧
      (txnAt s ↑k).phase = TxnPhase.openPhase ∧ (txnAt s ↑k).requester = Requester.host ∧ postedWords s < 16 ∧ BitVec.toNat addr
      < 512 ∧ pageUp s (BitVec.toNat addr / 256) = true ∧ stageRefusal Requester.host (chkWords 0 1 [w] (frameBegin s))
      (BitVec.toNat addr) w = none ∧ (txnAt s ↑k).regs = [] ∧ entryFits (chkWords 0 1 [w] (frameBegin s)) (txnAt s ↑k) false =
      true)
    ∧ (∃ (s : State) (addr : Word) (w : Word), s.phase = Phase.run ∧ s.host.held = none ∧ s.txn.ids.length = 8 ∧ bitsOf addr 31
      24 < 8 ∧ (hostCommit addr (frameBegin s)).snd = some w)
    ∧ (∃ (s : State) (k : Fin 8), s.phase = Phase.run ∧ s.host.held = none ∧ s.txn.ids.length = 8 ∧ (txnAt s ↑k).phase =
      TxnPhase.openPhase ∧ (txnAt s ↑k).requester = Requester.host) := by
  refine ⟨⟨run, 0, ?_, ?_, ?_, ?_, ?_⟩,
    ⟨hostTxn 7, 7, 284, 0, ?_, ?_, ?_, ?_, ?_, ?_, ?_, ?_, ?_, ?_, ?_⟩,
    ⟨hostTxn 7, 0x07001234, 51052562#32, ?_, ?_, ?_, ?_, ?_⟩,
    ⟨hostTxn 7, 7, ?_, ?_, ?_, ?_, ?_⟩⟩ <;>
    decide +kernel

theorem witness_HostQueuesAndHeldFrames :
    (∃ (s : State) (addr : RegIndex) (e : QEntry) (rest : List QEntry), s.phase = Phase.run ∧ s.host.held = none ∧ queueCap
      (BitVec.toNat addr) ≠ 0 ∧ pageUp s (BitVec.toNat addr / 256) = true ∧ crossingWaits s Requester.host (BitVec.toNat addr) =
      false ∧ (queueAt s (BitVec.toNat addr)).entries = e :: rest)
    ∧ (∃ (s : State) (r : Reply) (a : Word) (w : Word) (why : HoldReason), s.phase = Phase.run ∧ s.host.reply = some r ∧
      s.host.held = some (HeldFrame.commit a (some w), why))
    ∧ (∃ (s : State) (r : Reply) (addr : Nat) (why : HoldReason), s.phase = Phase.run ∧ s.host.reply = some r ∧ addr < 65536 ∧
      busyExpired s = true ∧ (s.host.held = some (HeldFrame.one addr, why) ∨ addr / 256 ≠ 63 ∧ s.host.held = some
      (HeldFrame.read false 0 addr 1, why)))
    ∧ (∃ (s : State), s.phase = Phase.run ∧ s.host.held = none ∧ s.mem.symErr = []) := by
  refine ⟨⟨setQueue 0x1411 { RQueue.empty with entries := [queueEntry] } run, 0x1411, queueEntry, [], ?_, ?_, ?_, ?_, ?_, ?_⟩,
    ⟨replied (heldBy (.commit 0 (some 5)) .crossing), { statuses := [], words := [] }, 0, 5, .crossing, ?_, ?_, ?_⟩,
    ⟨replied lateHeld, { statuses := [], words := [] }, 0x2211, .bank, ?_, ?_, ?_, ?_, ?_⟩,
    ⟨run, ?_, ?_, ?_⟩⟩ <;>
    decide +kernel

theorem witness_OnlyHostFramesInResetStop :
    (∃ (s : State), s.phase = Phase.inReset) := by
  refine ⟨State.reset, ?_⟩ <;>
    decide +kernel

theorem witness_HeaderCommands :
    (∃ (s : State) (req : Requester) (page : Byte), WriteOpen s req (pageReg (BitVec.toNat page) 2) (pageCtrlWord s
      (BitVec.toNat page) 31))
    ∧ (∃ (s : State) (req : Requester) (page : Byte), WriteOpen s req (pageReg (BitVec.toNat page) 2) (pageCtrlWord s
      (BitVec.toNat page) 1) ∧ softResets (BitVec.toNat page) = true)
    ∧ (∃ (s : State) (req : Requester) (page : Byte) (g : Byte), WriteOpen s req (pageReg (BitVec.toNat page) 11) (oneBit 31 |||
      BitVec.setWidth 32 g))
    ∧ (∃ (s : State) (req : Requester) (page : Byte) (word : Word) (h : Nat) (n : Nat) (rel : Nat) (r : ResultEntry) (rest :
      List ResultEntry), resultBlock (BitVec.toNat page) = some (h, n, rel) ∧ WriteOpen s req rel word ∧ resultsOf s
      (BitVec.toNat page) = r :: rest ∧ BitVec.toNat word = r.ticket)
    ∧ (∃ (s : State) (page : Byte) (word : Word) (h : Nat) (n : Nat) (rel : Nat) (r : ResultEntry) (rest : List ResultEntry),
      resultBlock (BitVec.toNat page) = some (h, n, rel) ∧ resultsOf s (BitVec.toNat page) = r :: rest ∧ BitVec.toNat word ≠
      r.ticket) := by
  refine ⟨⟨run, .host, 0x22, ?_⟩,
    ⟨withRegs [(0x2204, 5), (0x2208, 5), (0x220A, 6)], .host, 0x22, ?_, ?_⟩,
    ⟨run, .host, 0x14, 0x01, ?_⟩,
    ⟨heldResult, .host, 0x10, 7, 4160, 14, 4175, { page := 0x10, ticket := 7, poison := false, words := [] }, [], ?_, ?_, ?_,
      ?_⟩,
    ⟨heldResult, 0x10, 8, 4160, 14, 4175, { page := 0x10, ticket := 7, poison := false, words := [] }, [], ?_, ?_, ?_⟩⟩ <;>
    first | decide +kernel | (constructor <;> decide +kernel)

theorem witness_RegisterWrites :
    (∃ (s : State) (req : Requester) (i : RegIndex) (w : Word), (BitVec.toNat i / 256 = 0 ∨ BitVec.toNat i / 256 = 2 ∨
      BitVec.toNat i / 256 = 6 ∨ BitVec.toNat i / 256 = 13) ∧ 16 ≤ BitVec.toNat i % 256 ∧ WriteOpen s req (BitVec.toNat i) w ∧
      (rowNow s (BitVec.toNat i)).isSome = true)
    ∧ (∃ (s : State) (req : Requester) (i : RegIndex) (w : Word) (reason : Nat), (BitVec.toNat i / 256 = 0 ∨ BitVec.toNat i /
      256 = 2 ∨ BitVec.toNat i / 256 = 6 ∨ BitVec.toNat i / 256 = 13) ∧ 16 ≤ BitVec.toNat i % 256 ∧ pageUp s (BitVec.toNat i /
      256) = true ∧ heldByApply s (BitVec.toNat i) = false ∧ crossingWaits s req (BitVec.toNat i) = false ∧ (∀ (m : Fin 5), req
      = Requester.mason m → isBound s m = false) ∧ writeRefusal req s (BitVec.toNat i) w = some reason ∧ (req = Requester.host →
      reason ≠ 4) ∧ twinRole s ≠ 1)
    ∧ (∃ (s : State) (req : Requester) (w : Word), WriteOpen s req 4113 w)
    ∧ (∃ (s : State) (req : Requester) (w : Word), WriteOpen s req 4112 w)
    ∧ (∃ (s : State), domainOn s 3 = true)
    ∧ (∃ (s : State) (req : Requester) (w : Word) (p : Fin 4), WriteOpen s req (bpReg (↑p) 16) w)
    ∧ (∃ (s : State) (req : Requester) (w : Word) (p : Fin 4), WriteOpen s req (bpReg (↑p) 17) w)
    ∧ (∃ (s : State) (req : Requester) (w : Word) (k : Fin 8), WriteOpen s req (7448 + ↑k) w)
    ∧ (∃ (s : State) (req : Requester) (w : Word), WriteOpen s req 8210 w)
    ∧ (∃ (s : State) (req : Requester) (w : Word), WriteOpen s req 8726 w)
    ∧ (∃ (s : State) (req : Requester) (w : Word), WriteOpen s req 8720 w)
    ∧ (∃ (s : State) (req : Requester) (w : Word), WriteOpen s req 8720 w)
    ∧ (∃ (s : State) (req : Requester) (w : Word), WriteOpen s req 1297 w ∧ s.clocks.plumb ≠ PlumbState.off)
    ∧ (∃ (s : State) (req : Requester) (w : Word) (ball : Fin 12), WriteOpen s req (12304 + ↑ball) w) := by
  refine ⟨⟨run, .host, 0x0013, 0, ?_, ?_, ?_, ?_⟩,
    ⟨run, .mason 4, 0x0010, 0, 1, ?_, ?_, ?_, ?_, ?_, ?_, ?_, ?_, ?_⟩,
    ⟨run, .host, 5, ?_⟩,
    ⟨run, .host, 0x80000000, ?_⟩,
    ⟨run, ?_⟩,
    ⟨run, .host, 0, 0, ?_⟩,
    ⟨run, .host, 0, 3, ?_⟩,
    ⟨run, .host, 0x50000000, 7, ?_⟩,
    ⟨run, .host, 0, ?_⟩,
    ⟨run, .host, 0, ?_⟩,
    ⟨run, .host, 0x80000001, ?_⟩,
    ⟨withRegs [(0x2210,0x80000000)], .host, 0x0, ?_⟩,
    ⟨setClocks { run.clocks with plumb := .locked } run, .host, 0, ?_, ?_⟩,
    ⟨run, .host, 0x0, 11, ?_⟩⟩ <;>
    first | decide +kernel | (constructor <;> decide +kernel)

theorem witness_Timers :
    (∃ (s : State) (req : Requester) (n : Fin 16) (w : Word), WriteOpen s req (timerReg (↑n) 0) w ∧ timerReserved s (↑n) 0 =
      false)
    ∧ (∃ (s : State) (req : Requester) (n : Fin 16) (w : Word), WriteOpen s req (timerReg (↑n) 0) w ∧ timerReserved s (↑n) 0 =
      false ∧ s.timers.edges.length = 16 ∧ bitAt (mergedWord s (timerReg (↑n) 0) w) 31 = true ∧ timerEn s ↑n = false)
    ∧ (∃ (s : State) (req : Requester) (n : Fin 16) (w : Word), WriteOpen s req (timerReg (↑n) 1) w)
    ∧ (∃ (s : State) (req : Requester) (n : Fin 16) (w : Word), WriteOpen s req (timerReg (↑n) 2) w)
    ∧ (∃ (s : State) (req : Requester) (n : Fin 16) (w : Word), WriteOpen s req (timerReg (↑n) 3) w ∧ timerLinked s ↑n = false ∧
      (rowNow s (timerReg (↑n) 3)).isSome = true)
    ∧ (∃ (s : State) (req : Requester) (n : Fin 16) (join : Bool), (WriteOpen s req (timerReg (↑n) 0) (if join = true then
      getReg s (timerReg (↑n) 0) &&& ~~~oneBit 29 ||| oneBit 29 else getReg s (timerReg (↑n) 0) &&& ~~~oneBit 29)) ∧ ↑n % 2 = 0)
    ∧ (∃ (s : State) (req : Requester) (n : Fin 16) (join : Bool), (WriteOpen s req (timerReg (↑n) 0) (if join = true then
      getReg s (timerReg (↑n) 0) &&& ~~~oneBit 29 ||| oneBit 29 else getReg s (timerReg (↑n) 0) &&& ~~~oneBit 29)) ∧ ↑n % 2 = 0)
    ∧ (∃ (s : State) (req : Requester) (mask : BitVec 16), WriteOpen s req 1808 (BitVec.setWidth 32 mask))
    ∧ (∃ (s : State) (req : Requester) (mask : BitVec 16), WriteOpen s req 1809 (BitVec.setWidth 32 mask))
    ∧ (∃ (s : State) (req : Requester) (n : Fin 16), pageUp s (timerReg (↑n) 1 / 256) = true ∧ crossingWaits s req (timerReg
      (↑n) 1) = false ∧ timerLinked s ↑n = true)
    ∧ (∃ (s : State) (n : Fin 16), timerRuns s ↑n = true ∧ tickDue s ↑n = true ∧ timerCount s ↑n < timerTop s ↑n)
    ∧ (∃ (s : State) (n : Fin 16), timerRuns s ↑n = true ∧ tickDue s ↑n = true ∧ timerTop s ↑n ≤ timerCount s ↑n)
    ∧ (∃ (s : State) (n : Fin 16), timerRuns s ↑n = true ∧ tickDue s ↑n = true ∧ timerCount s ↑n < timerTop s ↑n ∧ timerCmp s ↑n
      = timerCount s ↑n + 1)
    ∧ (∃ (s : State) (n : Fin 16) (level : Bool), timerRuns s ↑n = true ∧ regBit s (timerReg (↑n) 0) 28 = true ∧
      s.timers.edges.length = 16 ∧ s.timers.accepted.getD (↑n) none = some !level ∧ captureKind s (↑n) level = true ∧ regBits s
      (timerReg (↑n) 5) 19 16 ≤ s.timers.differing.getD (↑n) 0 + 1 ∧ s.timers.edges.getD (↑n) 0 + 1 ≤ regBits s (timerReg (↑n)
      5) 7 0)
    ∧ (∃ (s : State) (n : Fin 16) (level : Bool), timerRuns s ↑n = true ∧ regBit s (timerReg (↑n) 0) 28 = true ∧
      s.timers.edges.length = 16 ∧ s.timers.accepted.getD (↑n) none = some !level ∧ captureKind s (↑n) level = true ∧ regBits s
      (timerReg (↑n) 5) 19 16 ≤ s.timers.differing.getD (↑n) 0 + 1 ∧ regBits s (timerReg (↑n) 5) 7 0 < s.timers.edges.getD (↑n)
      0 + 1)
    ∧ (∃ (s : State) (n : Fin 16), timerEn s ↑n = false)
    ∧ (∃ (s : State) (n : Fin 16) (req : Requester) (w : Word), timerEn s ↑n = false ∧ WriteOpen s req (timerReg (↑n) 3) w ∧
      timerLinked s ↑n = false) := by
  refine ⟨⟨run, .host, 15, 0x80000000, ?_, ?_⟩,
    ⟨run, .host, 15, 0x80000000, ?_, ?_, ?_, ?_, ?_⟩,
    ⟨run, .host, 15, 5, ?_⟩,
    ⟨run, .host, 15, 5, ?_⟩,
    ⟨run, .host, 15, 5, ?_, ?_, ?_⟩,
    ⟨run, .host, 14, true, ?_, ?_⟩,
    ⟨run, .host, 14, false, ?_, ?_⟩,
    ⟨run, .host, 0xFFFF, ?_⟩,
    ⟨run, .host, 0x8001, ?_⟩,
    ⟨withRegs [(timerReg 14 0, 0x20000000), (timerReg 15 1, 77)], .host, 14, ?_, ?_, ?_⟩,
    ⟨timerState [(timerReg 15 0, 0x80000000)], 15, ?_, ?_, ?_⟩,
    ⟨timerState [(timerReg 15 0, 0x80000000), (timerReg 15 1, 0xFFFF)], 15, ?_, ?_, ?_⟩,
    ⟨timerState [(timerReg 15 0, 0x80000000), (timerReg 15 3, 1)], 15, ?_, ?_, ?_, ?_⟩,
    ⟨timerState [(timerReg 15 0, 0x90000000), (timerReg 15 5, 1)] (some false), 15, true, ?_, ?_, ?_, ?_, ?_, ?_, ?_⟩,
    ⟨timerState [(timerReg 15 0, 0x90000000), (timerReg 15 5, 0x40000000)] (some true), 15, false, ?_, ?_, ?_, ?_, ?_, ?_, ?_⟩,
    ⟨run, 15, ?_⟩,
    ⟨run, 15, .host, 7, ?_, ?_, ?_⟩⟩ <;>
    first | decide +kernel | (constructor <;> decide +kernel)

theorem witness_CheckAndMasonRegisters :
    (∃ (s : State) (req : Requester) (w : Word) (u : Fin 4), WriteOpen s req (chkReg (↑u) 0) w)
    ∧ (∃ (s : State) (req : Requester) (w : Word) (u : Fin 4), WriteOpen s req (chkReg (↑u) 0) w ∧ bitAt (mergedWord s (chkReg
      (↑u) 0) w) 30 = true ∧ regBit s (chkReg (↑u) 0) 30 = false)
    ∧ (∃ (s : State) (req : Requester) (w : Word) (u : Fin 4), WriteOpen s req (chkReg (↑u) 5) w)
    ∧ (∃ (s : State) (req : Requester) (w : Word) (u : Fin 4), WriteOpen s req (chkReg (↑u) 7) w)
    ∧ (∃ (s : State) (req : Requester) (w : Word), WriteOpen s req 11280 w ∧ s.masons.length = 5 ∧ BitVec.getLsbD w 0 = true ∧
      (masonAt s 4).resetHeld = false ∧ (masonAt s 4).state ≠ MasonState.loading)
    ∧ (∃ (s : State) (req : Requester) (w : Word), WriteOpen s req 11285 w ∧ s.masons.length = 5)
    ∧ (∃ (s : State) (req : Requester) (w : Word), WriteOpen s req 11287 w ∧ s.masons.length = 5)
    ∧ (∃ (s : State) (req : Requester), pageUp s 44 = true ∧ debugLocked s = false ∧ crossingWaits s req 11285 = false) := by
  refine ⟨⟨inStartUp, .host, 0xC0000001, 2, ?_⟩,
    ⟨inStartUp, .host, 0xC0000001, 2, ?_, ?_, ?_⟩,
    ⟨run, .host, 0x80000000, 2, ?_⟩,
    ⟨run, .host, 0x80000000, 2, ?_⟩,
    ⟨at4 [] [], .host, 0x1, ?_, ?_, ?_, ?_, ?_⟩,
    ⟨haltedWithIndices, .host, 0x1, ?_, ?_⟩,
    ⟨haltedWithIndices, .host, 0x1, ?_, ?_⟩,
    ⟨haltedWithIndices, .host, ?_, ?_, ?_⟩⟩ <;>
    first | decide +kernel | (constructor <;> decide +kernel)

theorem witness_TransactionEndsAndStrobe :
    (∃ (s : State) (k : Fin 8), live s = true ∧ s.txn.ids.length = 8 ∧ (txnAt s ↑k).phase = TxnPhase.waiting ∧ condMet s (txnAt
      s ↑k) = true ∧ repairYields s (↑k) (txnAt s ↑k) = false)
    ∧ (∃ (s : State) (k : Fin 8), live s = true ∧ s.txn.ids.length = 8 ∧ (txnAt s ↑k).phase = TxnPhase.applying ∧ (txnAt s
      ↑k).mortar = [] ∧ mirrors s = false ∧ s.txn.held = [])
    ∧ (∃ (s : State) (k : Fin 8), live s = true ∧ s.txn.ids.length = 8 ∧ (txnAt s ↑k).phase = TxnPhase.openPhase ∧ (txnAt s
      ↑k).openedAt + (txnAt s ↑k).limitMs * 13560 ≤ s.now)
    ∧ (∃ (s : State) (k : Fin 8) (req : Requester) (tag : Byte), live s = true ∧ s.txn.ids.length = 8 ∧ DoorOpen s req 2
      (doorWord tag 1 (BitVec.ofNat 16 ↑k)) ∧ (txnAt s ↑k).phase = TxnPhase.openPhase ∧ (req = Requester.host ∨ (txnAt s
      ↑k).requester = req))
    ∧ (∃ (s : State) (k : Fin 8) (off : Nat) (w : Word), s.txn.ids.length = 8 ∧ 16 ≤ off ∧ off < 256 ∧ (txnAt s ↑k).regs =
      [(off, w)] ∧ (txnAt s ↑k).guards = [] ∧ (txnAt s ↑k).doors = [] ∧ (txnAt s ↑k).mortar = [] ∧ (txnAt s ↑k).cond ≠ 32 ∧ (∀
      (j : Nat), j < 8 → j ≠ ↑k → (txnAt s j).touches off = false) ∧ (rowNow s off).isSome = true ∧ (∀ (m : Fin 5) (i : Fin 8)
      (tag : BitVec 16), (masonAt s m).stall ≠ some (MasonStall.commit i tag)) ∧ s.bcast.swap = none ∧ (txnAt s ↑k).requester =
      Requester.host) := by
  refine ⟨⟨setReg (timerReg 0 0) 0x80000000 (txnSeven { Txn.free with phase := .waiting, cond := 0x10, met := true }), 7, ?_, ?_, ?_,
      ?_, ?_⟩,
    ⟨txnSeven { Txn.free with phase := .applying, tag := 5 }, 7, ?_, ?_, ?_, ?_, ?_, ?_⟩,
    ⟨({ txnSeven { Txn.free with phase := .openPhase, tag := 5 } with now := 1356000 }), 7, ?_, ?_, ?_, ?_⟩,
    ⟨txnSeven { Txn.free with phase := .openPhase, tag := 5 }, 7, .host, 9, ?_, ?_, ?_, ?_, ?_⟩,
    ⟨txnSeven { Txn.free with phase := .waiting, regs := [(0x13, 5)] }, 7, 0x13, 5, ?_, ?_, ?_, ?_, ?_, ?_, ?_, ?_, ?_, ?_, (fun
      m _ _ h => by rw [(by decide +kernel : ∀ m : Fin 5, (masonAt (txnSeven
      { Txn.free with phase := .waiting, regs := [(0x13, 5)] }) m).stall = none) m] at h; cases h), ?_, ?_⟩⟩ <;>
    first | decide +kernel | (constructor <;> decide +kernel)

theorem witness_SelfTests :
    (∃ (s : State) (req : Requester) (tag : Byte) (arg : BitVec 16) (page : Byte), s.doors.tests = [] ∧ testIdle s (BitVec.toNat
      page) = true ∧ offersTest (BitVec.toNat page) 240 = true ∧ DoorOpen s req (BitVec.toNat page) (doorWord tag 240 arg))
    ∧ (∃ (s : State) (req : Requester) (tag : Byte) (arg : BitVec 16) (page : Byte), s.doors.tests = [] ∧ testIdle s
      (BitVec.toNat page) = true ∧ offersTest (BitVec.toNat page) 240 = true ∧ DoorOpen s req (BitVec.toNat page) (doorWord tag
      240 arg))
    ∧ (∃ (s : State) (req : Requester) (tag : Byte) (arg : BitVec 16) (page : Byte), s.doors.tests = [] ∧ testIdle s
      (BitVec.toNat page) = true ∧ offersTest (BitVec.toNat page) 240 = true ∧ DoorOpen s req (BitVec.toNat page) (doorWord tag
      240 arg))
    ∧ (∃ (s : State) (req : Requester) (tag : Byte) (arg : BitVec 16) (page : Byte), s.doors.tests = [] ∧ testIdle s
      (BitVec.toNat page) = true ∧ offersTest (BitVec.toNat page) 241 = true ∧ DoorOpen s req (BitVec.toNat page) (doorWord tag
      241 arg))
    ∧ (∃ (s : State) (page : Byte) (c : TestCmd), nextTest s (BitVec.toNat page) = some c ∧ pageUp s (BitVec.toNat page) = true
      ∧ s.now < c.deadline ∧ testIdle s (BitVec.toNat page) = true)
    ∧ (∃ (s : State) (page : Byte) (c : TestCmd), nextTest s (BitVec.toNat page) = some c ∧ pageUp s (BitVec.toNat page) = true
      ∧ s.now < c.deadline ∧ c.urgent = true ∧ testBoundary s (BitVec.toNat page) = true ∧ (pagePath (BitVec.toNat page) = none
      ∧ BitVec.toNat page ≠ 16 ∧ BitVec.toNat page ≠ 18 ∧ BitVec.toNat page ≠ 20 ∨ ∃ b, pagePath (BitVec.toNat page) = some b ∧
      (Machine.pathAt s ↑b).jobs = []))
    ∧ (∃ (s : State) (page : Byte) (c : TestCmd), (List.find? (fun c ↦ !c.started && decide (c.deadline ≤ s.now)) (testsOf s
      (BitVec.toNat page)) = some c))
    ∧ (∃ (s : State) (page : Byte) (c : TestCmd) (pass : Bool), (List.find? (fun x ↦ x.started) (testsOf s (BitVec.toNat page))
      = some c) ∧ pageUp s (BitVec.toNat page) = true ∧ (pagePath (BitVec.toNat page) = none ∧ BitVec.toNat page ≠ 32 ∧
      BitVec.toNat page ≠ 33 ∧ (BitVec.toNat page = 16 → pass = true ∧ s.fld.surveyFull = false) ∨ ∃ b, pagePath (BitVec.toNat
      page) = some b ∧ (Machine.pathAt s ↑b).jobs = [])) := by
  refine ⟨⟨run, .host, 0xFF, 0, 0x0D, ?_, ?_, ?_, ?_⟩,
    ⟨run, .host, 0xFF, 0, 0x0B, ?_, ?_, ?_, ?_⟩,
    ⟨run, .host, 0xFF, 0, 0x1B, ?_, ?_, ?_, ?_⟩,
    ⟨run, .host, 0xFF, 0, 0x10, ?_, ?_, ?_, ?_⟩,
    ⟨queuedTest 0x13 false false 5, 0x13,
      { id := 3, page := 0x13, code := 0xF0, urgent := false, deadline := 5, started := false }, ?_, ?_, ?_, ?_⟩,
    ⟨queuedTest 0x13 true false 5, 0x13,
      { id := 3, page := 0x13, code := 0xF0, urgent := true, deadline := 5, started := false }, ?_, ?_, ?_, ?_, ?_, ?_⟩,
    ⟨later 5 (queuedTest 0x13 true false 5), 0x13,
      { id := 3, page := 0x13, code := 0xF0, urgent := true, deadline := 5, started := false }, ?_⟩,
    ⟨queuedTest 0x13 true true 5, 0x13, { id := 3, page := 0x13, code := 0xF0, urgent := true, deadline := 5, started := true },
      false, ?_, ?_, ?_⟩⟩ <;>
    first | decide +kernel | (constructor <;> decide +kernel)

theorem witness_FieldAndLimiter :
    (∃ (s : State), domainOn s 3 = true ∧ s.fld.changeDue = true ∧ s.clocks.bypass = false ∧ (selection s).fst < 16 ∧
      changeRefused s = false ∧ readerFrameOn s = false ∧ s.frx.windowOpen = false)
    ∧ (∃ (s : State) (p : Fin 8) (k : Fin 4), domainOn s 3 = true ∧ k ≠ 0 ∧ portInUse s ↑p = true)
    ∧ (∃ (s : State), domainOn s 3 = true ∧ Machine.fieldState s = Fs.rampUp ∧ s.fld.since + regBits s Reg.fldRamp 5 0 + 1 ≤
      s.now)
    ∧ (∃ (s : State), domainOn s 3 = true ∧ Machine.fieldState s = Fs.rampDown ∧ s.fld.since + regBits s Reg.fldRamp 13 8 + 1 ≤
      s.now)
    ∧ (∃ (s : State), domainOn s 3 = true ∧ fieldRequested s = false ∧ Machine.fieldState s = Fs.off ∧ passedUs s s.fld.since
      (100 * regBits s Reg.fldRamp 23 16) = true)
    ∧ (∃ (s : State) (average : Nat), domainOn s 3 = true ∧ Machine.fieldState s ≠ Fs.thermalOff ∧ average ≤ 4095 ∧
      s.fld.limitAt + 256 ≤ s.now ∧ readerFrameOn s = true)
    ∧ (∃ (s : State) (average : Nat) (hottest : Int) (a : Nat), domainOn s 3 = true ∧ Machine.fieldState s ≠ Fs.thermalOff ∧
      average ≤ 4095 ∧ s.fld.limitAt + 256 ≤ s.now ∧ readerFrameOn s = false ∧ limiterNext s average hottest = some a ∧ a < 512)
    ∧ (∃ (s : State) (average : Nat) (hottest : Int), domainOn s 3 = true ∧ Machine.fieldState s ≠ Fs.thermalOff ∧ average ≤
      4095 ∧ s.fld.limitAt + 256 ≤ s.now ∧ readerFrameOn s = false ∧ limiterNext s average hottest = none ∧ s.nfc.run = none)
    ∧ (∃ (s : State) (hottest : Int), domainOn s 3 = true ∧ Machine.fieldState s = Fs.thermalOff ∧ hottest ≤ ↑(regBits s
      Reg.fldLimit 7 0) - 15 ∧ fieldRequested s = false)
    ∧ (∃ (s : State) (average : Nat) (hottest : Int), (regBits s Reg.fldLimit 27 16 < average ∨ ↑(regBits s Reg.fldLimit 7 0) ≤
      hottest) ∧ atten s < 500)
    ∧ (∃ (s : State) (average : Nat) (hottest : Int), (regBits s Reg.fldLimit 27 16 < average ∨ ↑(regBits s Reg.fldLimit 7 0) ≤
      hottest) ∧ 500 ≤ atten s)
    ∧ (∃ (s : State) (average : Nat) (hottest : Int), average ≤ regBits s Reg.fldLimit 27 16 ∧ average * 100 ≤ regBits s
      Reg.fldLimit 27 16 * 95 ∧ hottest ≤ ↑(regBits s Reg.fldLimit 7 0) - 5)
    ∧ (∃ (s : State) (average : Nat) (hottest : Int), average ≤ regBits s Reg.fldLimit 27 16 ∧ hottest < ↑(regBits s
      Reg.fldLimit 7 0) ∧ (regBits s Reg.fldLimit 27 16 * 95 < average * 100 ∨ ↑(regBits s Reg.fldLimit 7 0) - 5 < hottest)) := by
  refine ⟨⟨setFld { run.fld with changeDue := true } run, ?_, ?_, ?_, ?_, ?_, ?_, ?_⟩,
    ⟨portSeven (fieldState Fs.on), 7, 3, ?_, ?_, ?_⟩,
    ⟨later 100000 (fieldState Fs.rampUp), ?_, ?_, ?_⟩,
    ⟨later 100000 (fieldState Fs.rampDown), ?_, ?_, ?_⟩,
    ⟨later 1000000 (fieldState Fs.off), ?_, ?_, ?_, ?_⟩,
    ⟨later 256 (runningJob { nfcRun exchangeJob with inFrame := true, framed := true, frameEnd := 300 }), 4095, ?_, ?_, ?_, ?_,
      ?_⟩,
    ⟨later 256 (fieldState Fs.on), 4095, 20, 1, ?_, ?_, ?_, ?_, ?_, ?_, ?_⟩,
    ⟨later 256 (setRegBits Reg.fldLimitStatus 20 12 500 (fieldState Fs.on)), 4095, 20, ?_, ?_, ?_, ?_, ?_, ?_, ?_⟩,
    ⟨fieldState Fs.thermalOff, 20, ?_, ?_, ?_, ?_⟩,
    ⟨fieldState Fs.on, 4095, 20, ?_, ?_⟩,
    ⟨setRegBits Reg.fldLimitStatus 20 12 500 (fieldState Fs.on), 4095, 20, ?_, ?_⟩,
    ⟨setRegBits Reg.fldLimitStatus 20 12 500 (fieldState Fs.on), 0, 20, ?_, ?_, ?_⟩,
    ⟨setRegBits Reg.fldLimitStatus 20 12 500 (fieldState Fs.on), regBits run Reg.fldLimit 27 16, 20, ?_, ?_, ?_⟩⟩ <;>
    decide +kernel

theorem witness_SurveySolveSwitch :
    (∃ (s : State) (r : SurveyReport), domainOn s 3 = true ∧ domainOn s 4 = true ∧ surveyMayRun s = true ∧ nextSurveyPort s =
      some ↑r.port ∧ surveyAllowed s ↑r.port = true ∧ r.selfOk = true ∧ ((nextSurveyPort (setFld
      { s.fld with survey := s.fld.survey ++ [(↑r.port, List.map (fun j ↦ couplingWord (freeWordOf s) (r.responses.getD ↑r.port (0, 0)) (r.responses.getD j (0, 0))) (List.range 8))] }
      s)).isSome = true))
    ∧ (∃ (s : State) (req : Requester) (tag : Byte), DoorOpen s req 16 (doorWord tag 16 0) ∧ s.fld.surveyValid = true ∧
      resultFull s 16 [16] = false)
    ∧ (∃ (s : State) (j : SolveJob) (rest : List SolveJob), s.fld.solves = j :: rest)
    ∧ (∃ (s : State) (req : Requester) (tag : Byte) (arg : BitVec 16), DoorOpen s req 16 (doorWord tag 32 arg) ∧ arrayMode s = 1
      ∧ arg.getLsbD (activeAshlar s) = false ∧ s.fld.load = none ∧ arg ≠ 0 ∧ membersPresent s ≠ [])
    ∧ (∃ (s : State) (req : Requester) (tag : Byte) (arg : BitVec 16), arg.toNat < 16 ∧ DoorOpen s req 16 (doorWord tag 33 arg)
      ∧ arrayMode s = 1 ∧ s.clocks.bypass = false ∧ regBit s Reg.fldCascStatus 31 = false)
    ∧ (∃ (s : State), domainOn s 3 = true ∧ regBit s Reg.fldCascStatus 31 = true ∧ arrayMode s = 1 ∧ s.clocks.bypass = false ∧
      cycleReached s (getReg s Reg.fldCascAt) = true ∧ s.fld.stepDue = none ∧ fieldAllowed s (regBits s Reg.fldCascStatus 27 24)
      (ashlarWords s (regBits s Reg.fldCascStatus 27 24)) = true) := by
  refine ⟨⟨surveyState, { port := 1, responses := [(1,0),(2,5)], selfOk := true, hottest := 20 }, ?_, ?_, ?_, ?_, ?_, ?_, ?_⟩,
    ⟨setFld { run.fld with surveyValid := true } run, .host, 7, ?_, ?_, ?_⟩,
    ⟨solveState, { id := 3, ticket := 5, inputs := [], used := [1], survey := [] }, [], ?_⟩,
    ⟨headState, .host, 7, 0x8002, ?_, ?_, ?_, ?_, ?_, ?_⟩,
    ⟨headState, .host, 7, 15, ?_, ?_, ?_, ?_, ?_⟩,
    ⟨switchAsked, ?_, ?_, ?_, ?_, ?_, ?_, ?_⟩⟩ <;>
    first | decide +kernel | (constructor <;> decide +kernel)

theorem witness_ReceiveChains :
    (∃ (s : State), domainOn s 4 = true ∧ s.frx.windowOpen = true ∧ s.frx.reply = none)
    ∧ (∃ (s : State) (r : ReplyRun), domainOn s 4 = true ∧ s.frx.reply = some r ∧ r.formed = false ∧ r.window = none ∧
      forwarding s = 0#3)
    ∧ (∃ (s : State) (r : ReplyRun), domainOn s 4 = true ∧ s.frx.reply = some r ∧ r.formed = false ∧ r.window = none ∧
      lateMembers s r.number r.len (forwarding s) ≠ [])
    ∧ (∃ (s : State), domainOn s 4 = true)
    ∧ (∃ (s : State), domainOn s 4 = true)
    ∧ (∃ (s : State), domainOn s 4 = true)
    ∧ (∃ (s : State) (c : Fin 8), domainOn s 4 = true ∧ domainOn s 3 = true ∧ s.frx.windowOpen = false ∧ chainUsed s ↑c = true ∧
      regBit s Reg.frxCtrl 31 = true)
    ∧ (∃ (s : State) (r : ReplyRun) (own : List (List (Int × Int))) (vectors : List (List (Int × Int))) (since : Nat), domainOn
      s 4 = true ∧ s.frx.reply = some r ∧ r.window = some (own, vectors, since) ∧ passedUs s since (bitsOf r.wait 8 0) = true ∧
      lateMembers s r.number r.len (forwarding s) ≠ [])
    ∧ (∃ (s : State) (req : Requester) (tag : Byte) (arg : Byte) (c : Fin 8), domainOn s 4 = true ∧ DoorOpen s req 18 (doorWord
      tag 16 (BitVec.setWidth 16 arg)) ∧ s.frx.capture = none ∧ BitVec.getLsbD arg ↑c = true ∧ regBit s (Reg.frxChainCfg + ↑c)
      31 = true ∧ regBits s Reg.frxCapCtrl 12 0 ≤ 64 ∧ regBits s Reg.frxCapBase 20 0 ≤ 1036288)
    ∧ (∃ (s : State) (j : CaptureJob), domainOn s 4 = true ∧ s.frx.capture = some j ∧ j.waiting = false ∧ j.since + j.pairs *
      j.cycles ≤ s.now)
    ∧ (∃ (s : State) (j : CaptureJob), domainOn s 4 = true ∧ s.frx.capture = some j ∧ j.waiting = true ∧ passedMs s j.since 1000
      = true) := by
  refine ⟨⟨withFrx (fun f => { f with windowOpen := true }), ?_, ?_, ?_⟩,
    ⟨withFrx (fun f => { f with windowOpen := true, reply := some replyRun }), replyRun, ?_, ?_, ?_, ?_, ?_⟩,
    ⟨lockedTwo (fun f => { f with windowOpen := true, reply := some lateRun }), lateRun, ?_, ?_, ?_, ?_, ?_⟩,
    ⟨withFrx (fun f => { f with windowOpen := true, reply := some replyRun }), ?_⟩,
    ⟨withFrx (fun f => { f with windowOpen := true, reply := some {replyRun with formed := true} }), ?_⟩,
    ⟨run, ?_⟩,
    ⟨setRegBits Reg.frxCtrl 31 31 1 chainOn, 7, ?_, ?_, ?_, ?_, ?_⟩,
    ⟨later 100000 (lockedTwo (fun f =>
      { f with windowOpen := true, reply := some { lateRun with window := some (oneRow, [], 0) } })),
      { lateRun with window := some (oneRow, [], 0) }, oneRow, [], 0, ?_, ?_, ?_, ?_, ?_⟩,
    ⟨setReg Reg.frxCapCtrl 0x80000040 chainOn, .host, 8, 0x80, 7, ?_, ?_, ?_, ?_, ?_, ?_, ?_⟩,
    ⟨later 16 (withFrx (fun f => { f with capture := some captureJob }) (runningDoor 0x12)), captureJob, ?_, ?_, ?_, ?_⟩,
    ⟨later 13560001 (withFrx (fun f => { f with capture := some {captureJob with waiting := true} }) (runningDoor 0x12)),
      {captureJob with waiting := true}, ?_, ?_, ?_, ?_⟩⟩ <;>
    first | decide +kernel | (constructor <;> decide +kernel)

theorem witness_ContactlessJobs :
    (∃ (s : State) (req : Requester) (tag : Byte) (arg : BitVec 16), domainOn s 3 = true ∧ arrayMode s ≠ 2 ∧ s.mem.symErr = [] ∧
      0 < nfcFree s ∧ DoorOpen s req 20 (doorWord tag 16 arg) ∧ exchangeBad (mortarBytes s (16 * arg.toNat) 16) (1048576 - (16 *
      arg.toNat + 16)) = false)
    ∧ (∃ (s : State) (req : Requester) (tag : Byte) (arg : BitVec 16), domainOn s 3 = true ∧ arrayMode s ≠ 2 ∧ s.mem.symErr = []
      ∧ 0 < nfcFree s ∧ DoorOpen s req 21 (doorWord tag 16 arg) ∧ 16 * arg.toNat + 32 ≤ 1048576 ∧ inventoryBad s (mortarBytes s
      (16 * arg.toNat) 32) = false)
    ∧ (∃ (s : State) (req : Requester) (tag : Byte) (arg : BitVec 16) (j : NfcJob), DoorOpen s req 21 (doorWord tag 17 arg) ∧
      s.nfc.run = none ∧ j ∈ s.nfc.table ∧ (List.find? (fun j ↦ j.ticket == arg.toNat) s.nfc.table = some j) ∧ j.id ≠
      s.doors.nextId)
    ∧ (∃ (s : State) (j : NfcJob) (rest : List NfcJob), s.nfc.table = j :: rest ∧ s.nfc.run = none ∧ domainOn s 3 = true ∧
      domainOn s 4 = true ∧ jobsHeld s = false ∧ fieldTested s = false ∧ draining s 3 = false ∧ headHeld s = false ∧ jobSpace s
      j ≤ queueFree s j.pop ∧ Machine.fieldState s = Fs.on ∧ j.layer ≠ 1 ∧ j.layer ≠ 3 ∧ (j.inventory = true → descByte j.desc 2
      / 64 % 2 = 0)) := by
  refine ⟨⟨withMortar 0xFFF00 exchangeDesc, .host, 7, 0xFFF0, ?_, ?_, ?_, ?_, ?_, ?_⟩,
    ⟨withMortar 0xFFF00 inventoryDesc, .host, 7, 0xFFF0, ?_, ?_, ?_, ?_, ?_, ?_, ?_⟩,
    ⟨withNfc (fun n => { n with table := [inventoryJob] })
      { (runningDoor 0x15) with doors := { (runningDoor 0x15).doors with nextId := 7 } }, .host, 7, 9, inventoryJob, ?_, ?_, ?_,
      ?_, ?_⟩,
    ⟨setRegBits Reg.fldPatStatus 31 28 Fs.on (withNfc (fun n => { n with table := [inventoryJob] })), inventoryJob, [], ?_, ?_,
      ?_, ?_, ?_, ?_, ?_, ?_, ?_, ?_, ?_, ?_, ?_⟩⟩ <;>
    first | decide +kernel | (constructor <;> decide +kernel)

theorem witness_ContactlessFrames :
    (∃ (s : State) (r : NfcRun), s.nfc.run = some r ∧ Machine.fieldState s = Fs.on ∧ domainOn s 3 = true ∧ s.fld.surveyFull =
      false ∧ s.fld.since + r.guardOn ≤ s.now ∧ (r.job.inventory = true → r.job.flag 0 = true → s.fld.surveyAt + r.guardOn ≤
      s.now))
    ∧ (∃ (s : State) (r : NfcRun), s.nfc.run = some r ∧ frameAllowed s r = true ∧ r.job.inventory = false ∧ (r.job.layer = 0 →
      descByte r.job.desc 3 / 16 % 2 = 0))
    ∧ (∃ (s : State) (r : NfcRun), s.nfc.run = some r ∧ domainOn s 4 = true ∧ r.inFrame = true ∧ s.frx.windowOpen = false ∧
      r.frameEnd + (replyStart s r).fst ≤ s.now + r.early)
    ∧ (∃ (s : State) (r : NfcRun), s.nfc.run = some r ∧ r.job.inventory = false ∧ r.job.layer = 0 ∧ r.endWith = none ∧ domainOn
      s 4 = true ∧ s.frx.gainDue = [] ∧ s.frx.windowOpen = true ∧ s.frx.reply = none ∧ r.frameEnd + (replyStart s r).snd +
      r.lateBy ≤ s.now)
    ∧ (∃ (s : State) (r : NfcRun) (q : ReplyRun), s.nfc.run = some r ∧ r.job.inventory = false ∧ r.job.layer = 0 ∧ r.endWith =
      none ∧ domainOn s 4 = true ∧ s.frx.gainDue = [] ∧ s.frx.reply = some q ∧ q.formed = true ∧ q.members = 0#3)
    ∧ (∃ (s : State) (r : NfcRun), s.nfc.run = some r ∧ r.job.inventory = true ∧ passedMs s r.startNow (descField r.job.desc 16
      2) = true ∧ r.inFrame = true)
    ∧ (∃ (s : State) (r : NfcRun), s.nfc.run = some r ∧ r.job.inventory = true ∧ passedMs s r.startNow (descField r.job.desc 16
      2) = true ∧ r.inFrame = false)
    ∧ (∃ (s : State), s.nfc.keep = true ∧ s.nfc.run = none ∧ domainOn s 3 = true ∧ passedMs s s.nfc.keepAt (regBits s
      Reg.proCtrl 21 12) = true) := by
  refine ⟨⟨later 1000000 (runningJob { nfcRun exchangeJob with guardDue := true }), { nfcRun exchangeJob with guardDue := true }, ?_,
      ?_, ?_, ?_, ?_, ?_⟩,
    ⟨runningJob (nfcRun exchangeJob), nfcRun exchangeJob, ?_, ?_, ?_, ?_⟩,
    ⟨later 1000000 (runningJob { nfcRun exchangeJob with inFrame := true }), { nfcRun exchangeJob with inFrame := true }, ?_,
      ?_, ?_, ?_, ?_⟩,
    ⟨later 1000000 (replyWindow { nfcRun exchangeJob with inFrame := true } none), { nfcRun exchangeJob with inFrame := true },
      ?_, ?_, ?_, ?_, ?_, ?_, ?_, ?_, ?_⟩,
    ⟨replyWindow { nfcRun exchangeJob with inFrame := true } (some { replyRun with formed := true, k := 1 }),
      { nfcRun exchangeJob with inFrame := true }, { replyRun with formed := true, k := 1 }, ?_, ?_, ?_, ?_, ?_, ?_, ?_, ?_, ?_⟩,
    ⟨later 10000000 (runningJob { nfcRun inventoryJob with inFrame := true }), { nfcRun inventoryJob with inFrame := true }, ?_,
      ?_, ?_, ?_⟩,
    ⟨later 10000000 (runningJob { nfcRun inventoryJob with inFrame := false }), { nfcRun inventoryJob with inFrame := false },
      ?_, ?_, ?_, ?_⟩,
    ⟨later 1000000000 (withNfc (fun n => { n with keep := true })), ?_, ?_, ?_, ?_⟩⟩ <;>
    decide +kernel

theorem witness_CardDetection :
    (∃ (s : State), scanMayRun s = true ∧ scanDue s s.card.scanAt (regBits s Reg.lpdRunCtrl 25 16) = true ∧ (scanPorts s).all
      (surveyAllowed s) = true ∧ 0 < s.card.learn)
    ∧ (∃ (s : State) (responses : List (Int × Int)), scanMayRun s = true ∧ scanDue s s.card.scanAt (regBits s Reg.lpdRunCtrl 25
      16) = true ∧ (scanPorts s).all (surveyAllowed s) = true ∧ s.card.learn = 0 ∧ s.card.hold = false ∧ (((scanPorts s).all fun
      p ↦ !beyond (regBits s Reg.lpdRunCtrl 7 0) (responses.getD p (0, 0)) (s.card.base.getD p (0, 0))) = true) ∧ 0 < regBits s
      Reg.lpdRunCtrl 9 8)
    ∧ (∃ (s : State) (responses : List (Int × Int)), scanMayRun s = true ∧ scanDue s s.card.scanAt (regBits s Reg.lpdRunCtrl 25
      16) = true ∧ (scanPorts s).all (surveyAllowed s) = true ∧ s.card.learn = 0 ∧ s.card.hold = false ∧ (((scanPorts s).any fun
      p ↦ beyond (regBits s Reg.lpdRunCtrl 7 0) (responses.getD p (0, 0)) (s.card.base.getD p (0, 0))) = true) ∧ regBits s
      Reg.lpdRunCtrl 9 8 ≤ s.card.overs + 1)
    ∧ (∃ (s : State), s.phase = Phase.stopped ∧ regBit s Reg.lpdStopCtrl 31 = true ∧ s.rtc.lfOk = true ∧ scanDue s
      s.card.probeAt (1000 / 2 ^ regBits s Reg.lpdStopCtrl 25 24) = true ∧ 0 < s.card.probeLearn)
    ∧ (∃ (s : State) (req : Requester) (tag : Byte), DoorOpen s req 22 (doorWord tag 16 0))
    ∧ (∃ (s : State) (id : Nat) (since : Nat) (rest : List (Nat × Nat)), s.card.relearn = (id, since) :: rest ∧ s.card.learn = 4
      ∧ passedMs s since 1000 = true) := by
  refine ⟨⟨detectOn, ?_, ?_, ?_, ?_⟩,
    ⟨withCard (fun c => { c with learn := 0, base := baseline }) detectOn, baseline, ?_, ?_, ?_, ?_, ?_, ?_, ?_⟩,
    ⟨withCard (fun c => { c with learn := 0, overs := 5 , base := baseline}) detectOn, List.replicate 8 (30000, 30000), ?_, ?_,
      ?_, ?_, ?_, ?_, ?_⟩,
    ⟨{ setRegBits Reg.lpdStopCtrl 31 31 1 run with phase := .stopped }, ?_, ?_, ?_, ?_, ?_⟩,
    ⟨run, .host, 7, ?_⟩,
    ⟨later 13560001 (withCard (fun c => { c with learn := 4, relearn := [(3, 0)] }) (runningDoor 0x16)), 3, 0, [], ?_, ?_, ?_⟩⟩ <;>
    first | decide +kernel | (constructor <;> decide +kernel)

theorem witness_BroadcastPaths :
    (∃ (s : State) (path : Fin 4), domainOn s 6 = true ∧ s.bcast.paths.length = 4 ∧ bpState s ↑path = Bs.settling)
    ∧ (∃ (s : State) (path : Fin 4) (report : PathReport), domainOn s 6 = true ∧ s.bcast.paths.length = 4 ∧ (bpState s ↑path =
      Bs.searching ∨ bpState s ↑path = Bs.lost) ∧ offsetHeld s (↑path) report = true)
    ∧ (∃ (s : State) (path : Fin 4) (report : PathReport), domainOn s 6 = true ∧ s.bcast.paths.length = 4 ∧ (bpState s ↑path =
      Bs.searching ∨ bpState s ↑path = Bs.lost) ∧ offsetHeld s (↑path) report = true)
    ∧ (∃ (s : State) (path : Fin 4), domainOn s 6 = true ∧ s.bcast.paths.length = 4 ∧ bpState s ↑path = Bs.locked ∧ bpSync s
      ↑path = false)
    ∧ (∃ (s : State) (path : Fin 4), domainOn s 6 = true ∧ s.bcast.paths.length = 4 ∧ bpState s ↑path = Bs.locked ∧ bpMode s
      ↑path = 2)
    ∧ (∃ (s : State) (path : Fin 4), domainOn s 6 = true ∧ s.bcast.paths.length = 4 ∧ bpState s ↑path = Bs.locked ∧ lossDue s
      ↑path = true ∧ s.bcast.swap = none)
    ∧ (∃ (s : State) (path : Fin 4), domainOn s 6 = true ∧ s.bcast.paths.length = 4 ∧ bpSync s ↑path = true ∧ (bpMode s ↑path =
      1 → passedMs s (Machine.pathAt s ↑path).markNow 100 = true))
    ∧ (∃ (s : State) (path : Fin 4), domainOn s 6 = true ∧ s.bcast.paths.length = 4 ∧ Bs.settling ≤ bpState s ↑path)
    ∧ (∃ (s : State) (path : Fin 4), domainOn s 6 = true ∧ s.bcast.paths.length = 4 ∧ Bs.settling ≤ bpState s ↑path) := by
  refine ⟨⟨pathAt 3 1 1 Bs.settling false, 3, ?_, ?_, ?_⟩,
    ⟨pathAt 3 1 1 Bs.searching false, 3, pathReport, ?_, ?_, ?_, ?_⟩,
    ⟨pathAt 3 1 2 Bs.lost false, 3, pathReport, ?_, ?_, ?_, ?_⟩,
    ⟨pathAt 3 1 2 Bs.locked false, 3, ?_, ?_, ?_, ?_⟩,
    ⟨pathAt 3 1 2 Bs.locked true, 3, ?_, ?_, ?_, ?_⟩,
    ⟨later 4000000 (pathAt 3 1 3 Bs.locked true), 3, ?_, ?_, ?_, ?_, ?_⟩,
    ⟨long (setRegBits (bpReg 3 Reg.bpStatus) 15 0 0xFFFF (pathAt 3 1 2 Bs.locked true)), 3, ?_, ?_, ?_, ?_⟩,
    ⟨setRegBits (bpReg 3 Reg.bpAgc) 31 31 1 (pathAt 3 1 2 Bs.locked true), 3, ?_, ?_, ?_⟩,
    ⟨pathAt 3 1 2 Bs.locked true, 3, ?_, ?_, ?_⟩⟩ <;>
    decide +kernel

theorem witness_FollowingAndScans :
    (∃ (s : State) (p : Nat) (c : Nat), domainOn s 6 = true ∧ domainOn s 5 = true ∧ scanPath s = some p ∧ nextVisit s = some c ∧
      (Machine.pathAt s p).jobs = [] ∧ testRuns s (24 + p) = false ∧ s.bcast.verifying = none ∧ s.bcast.swap = none ∧ passedMs s
      s.bcast.checkNow (measureMs (bpMode s (c / 16))) = true)
    ∧ (∃ (s : State) (l : Nat) (i : Nat) (p : Nat), domainOn s 6 = true ∧ s.bcast.verifying = some (l, i) ∧ scanPath s = some p
      ∧ s.bcast.swap = none ∧ passedMs s s.bcast.verifyNow 2000 = true)
    ∧ (∃ (s : State) (l : Nat) (i : Nat) (p : Nat) (k : Nat) (lead : Int), domainOn s 6 = true ∧ s.bcast.verifying = some (l, i)
      ∧ scanPath s = some p ∧ s.bcast.swap = none ∧ verifyIdent s p l = true ∧ verifyFits s l lead = true ∧ follows s l = true ∧
      keyGet s.bcast.noSwap (bpSlot s l) 0 ≤ s.now ∧ lowestFree s.txn.ids 0 = some k)
    ∧ (∃ (s : State) (path : Fin 4) (i : Fin 16) (at_ : Nat), domainOn s 6 = true ∧ keyFind s.bcast.barred (16 * ↑path + ↑i) =
      some at_ ∧ passedMs s at_ 60000 = true)
    ∧ (∃ (s : State), domainOn s 6 = true ∧ s.bcast.fadeUntil ≤ s.now)
    ∧ (∃ (s : State), domainOn s 6 = true ∧ s.bcast.audio ≠ audFormat (getReg s Reg.audCtrl) ∧ s.bcast.fadeUntil ≤ s.now)
    ∧ (∃ (s : State) (path : Fin 4) (req : Requester) (tag : Byte) (arg : BitVec 16), domainOn s 6 = true ∧ s.bcast.paths.length
      = 4 ∧ bpRole s ↑path ≠ 1 ∧ domainOn s 5 = true ∧ 0 < bcastFree s ∧ DoorOpen s req (24 + ↑path) (doorWord tag 16 arg) ∧
      scanArgBad arg.toNat = false)
    ∧ (∃ (s : State) (path : Fin 4) (req : Requester) (tag : Byte), domainOn s 6 = true ∧ s.bcast.paths.length = 4 ∧ bpRole s
      ↑path ≠ 1 ∧ domainOn s 5 = true ∧ 0 < bcastFree s ∧ DoorOpen s req (24 + ↑path) (doorWord tag 17 0) ∧ resultFull s (24 +
      ↑path) [17] = false)
    ∧ (∃ (s : State) (path : Fin 4) (j : BpJob) (rest : List BpJob) (report : PathReport) (freq : Nat), domainOn s 6 = true ∧
      s.bcast.paths.length = 4 ∧ domainOn s 5 = true ∧ (Machine.pathAt s ↑path).jobs = j :: rest ∧ j.scan = true ∧ j.started =
      true ∧ scanFreq j.arg j.point = some freq ∧ j.arg / 16 % 16 * 6 ≤ scoreOf ([1, 1, 2, 3].getD (j.arg % 16) 0) report ∧
      j.stations < 119 ∧ (scanFreq j.arg (j.point + 1)).isSome = true ∧ queueCount s (bpReg (↑path) Reg.bpQPop) < 128)
    ∧ (∃ (s : State) (path : Fin 4) (j : BpJob) (rest : List BpJob) (report : PathReport) (freq : Nat), domainOn s 6 = true ∧
      s.bcast.paths.length = 4 ∧ domainOn s 5 = true ∧ (Machine.pathAt s ↑path).jobs = j :: rest ∧ j.scan = true ∧ j.started =
      true ∧ scanFreq j.arg j.point = some freq ∧ scoreOf ([1, 1, 2, 3].getD (j.arg % 16) 0) report < j.arg / 16 % 16 * 6 ∧
      j.stations < 120 ∧ (scanFreq j.arg (j.point + 1)).isSome = true)
    ∧ (∃ (s : State) (path : Fin 4) (j : BpJob) (rest : List BpJob) (freq : Nat), domainOn s 6 = true ∧ s.bcast.paths.length = 4
      ∧ domainOn s 5 = true ∧ (Machine.pathAt s ↑path).jobs = j :: rest ∧ j.scan = true ∧ j.started = true ∧ scanFreq j.arg
      j.point = some freq ∧ scanFreq j.arg (j.point + 1) = none)
    ∧ (∃ (s : State) (path : Fin 4) (j : BpJob) (rest : List BpJob), domainOn s 6 = true ∧ s.bcast.paths.length = 4 ∧ domainOn s
      5 = true ∧ (Machine.pathAt s ↑path).jobs = j :: rest ∧ j.scan = false ∧ j.started = true ∧ passedMs s j.startNow
      (measureMs (bitsOf j.tune 31 28)) = true) := by
  refine ⟨⟨later 1000000 (following twoPaths), 3, 15, ?_, ?_, ?_, ?_, ?_, ?_, ?_, ?_, ?_⟩,
    ⟨later 30000000 (verifying twoPaths), 0, 15, 3, ?_, ?_, ?_, ?_, ?_⟩,
    ⟨setPath 3 { BcastPath.reset with idents := [7, 7] } (verifying (following twoPaths)), 0, 15, 3, 0, 0, ?_, ?_, ?_, ?_, ?_,
      ?_, ?_, ?_, ?_⟩,
    ⟨later 900000000 (withBcast (fun b => { b with barred := [(15, 0)] })), 0, 15, 0, ?_, ?_, ?_⟩,
    ⟨following twoPaths, ?_, ?_⟩,
    ⟨setReg Reg.audCtrl 0x01000000 run, ?_, ?_, ?_⟩,
    ⟨twoPaths, 3, .host, 7, 0x0100, ?_, ?_, ?_, ?_, ?_, ?_, ?_⟩,
    ⟨twoPaths, 3, .host, 7, ?_, ?_, ?_, ?_, ?_, ?_, ?_⟩,
    ⟨pathJob (scanJob true), 3, scanJob true, [], pathReport, 400, ?_, ?_, ?_, ?_, ?_, ?_, ?_, ?_, ?_, ?_, ?_⟩,
    ⟨pathJob (scanJob true), 3, scanJob true, [], { pathReport with snr := 1 }, 400, ?_, ?_, ?_, ?_, ?_, ?_, ?_, ?_, ?_, ?_⟩,
    ⟨pathJob scanEnd, 3, scanEnd, [], 2880, ?_, ?_, ?_, ?_, ?_, ?_, ?_, ?_⟩,
    ⟨later 1000000 (pathJob (scanJob false)), 3, scanJob false, [], ?_, ?_, ?_, ?_, ?_, ?_, ?_⟩⟩ <;>
    first | decide +kernel | (constructor <;> decide +kernel)

theorem witness_BroadcastItems :
    (∃ (s : State) (path : Fin 4) (a : BitVec 26) (b : BitVec 26) (c : BitVec 26) (d : BitVec 26), delivers s (↑path) 2 = true ∧
      bpSync s ↑path = true ∧ rdsGroupOf a b c d = none ∧ bpRole s ↑path = 1)
    ∧ (∃ (s : State) (path : Fin 4) (k : Nat) (a : BitVec 26) (b : BitVec 26) (c : BitVec 26) (d : BitVec 26) (g : RdsGroup),
      delivers s (↑path) 2 = true ∧ bpSync s ↑path = true ∧ rdsGroupOf a b c d = some g ∧ listenSlot s ↑path = some k ∧
      messageSlot s ↑path = none ∧ rdsTime g = none ∧ regBit s (Reg.bdaGroupMask + k) (groupType g) = true ∧ queueFree s
      Reg.bdaQPop ≠ 0)
    ∧ (∃ (s : State) (path : Fin 4) (bytes : List Byte), delivers s (↑path) 3 = true ∧ bytes.length = 32 ∧ crcEnds bytes =
      false)
    ∧ (∃ (s : State) (path : Fin 4) (k : Nat) (bytes : List Byte), delivers s (↑path) 3 = true ∧ bytes.length = 32 ∧ crcEnds
      bytes = true ∧ ficTime (List.take 30 bytes) = none ∧ listenSlot s ↑path = some k ∧ regBit s (Reg.bdaSlotCfg + k) 31 = true
      ∧ queueFree s Reg.bdaQPop ≠ 0)
    ∧ (∃ (s : State) (req : Requester) (tag : Byte) (slot : Fin 3) (j : Fin 4), DoorOpen s req 28 (doorWord tag 16 (BitVec.ofNat
      16 (4 * ↑j + ↑slot))) ∧ regBit s Reg.bdaSelArg 31 = false)
    ∧ (∃ (s : State) (req : Requester) (tag : Byte) (slot : Fin 3) (j : Fin 4), DoorOpen s req 28 (doorWord tag 16 (BitVec.ofNat
      16 (4 * ↑j + ↑slot))) ∧ regBit s Reg.bdaSelArg 31 = true ∧ slotPath s ↑slot = none ∧ (selState s ↑slot ↑j ≠ 0 ∨ 0 <
      bcastFree s))
    ∧ (∃ (s : State) (path : Fin 4) (k : Nat) (j : Fin 4) (bytes : List Byte), listenSlot s ↑path = some k ∧ delivers s (↑path)
      3 = true ∧ selState s k ↑j = 2 ∧ regBit s (selReg k ↑j) 29 = false ∧ bytes.length = 24 * regBits s (selReg k ↑j) 21 14 ∧
      queueFree s Reg.bdaSubQPop ≠ 0)
    ∧ (∃ (s : State) (path : Fin 4) (k : Nat) (j : Fin 4) (packets : List (List Byte)), listenSlot s ↑path = some k ∧ delivers s
      (↑path) 3 = true ∧ selState s k ↑j = 2 ∧ regBit s (selReg k ↑j) 29 = true ∧ s.bcast.aux.getD (4 * k + ↑j) 0 =
      packetAddress (packets.getD 0 []) ∧ packetAddress (packets.getD 0 []) ≠ 0 ∧ dataField packets = none)
    ∧ (∃ (s : State) (path : Fin 4) (k : Nat) (j : Fin 4) (packets : List (List Byte)) (bytes : List Byte), listenSlot s ↑path =
      some k ∧ delivers s (↑path) 3 = true ∧ selState s k ↑j = 2 ∧ regBit s (selReg k ↑j) 29 = true ∧ s.bcast.aux.getD (4 * k +
      ↑j) 0 = packetAddress (packets.getD 0 []) ∧ packetAddress (packets.getD 0 []) ≠ 0 ∧ dataField packets = some bytes ∧
      messageSlot s ↑path = none ∧ regBit s (selReg k ↑j) 28 = false)
    ∧ (∃ (s : State) (path : Fin 4) (r : MinuteReport), delivers s (↑path) 4 = true ∧ bpSync s ↑path = true ∧ r.seconds.length =
      60 ∧ tcBad (regBits s (bpReg (↑path) Reg.bpTcCfg) 2 0) (List.map (tcSymbol (regBits s (bpReg (↑path) Reg.bpTcCfg) 2 0))
      r.seconds) ≠ 0)
    ∧ (∃ (s : State) (path : Fin 4) (r : MinuteReport), delivers s (↑path) 4 = true ∧ bpSync s ↑path = true ∧ r.seconds.length =
      60 ∧ tcBad (regBits s (bpReg (↑path) Reg.bpTcCfg) 2 0) (List.map (tcSymbol (regBits s (bpReg (↑path) Reg.bpTcCfg) 2 0))
      r.seconds) = 0 ∧ listenSlot s ↑path = none)
    ∧ (∃ (s : State) (path : Fin 4) (k : Nat) (raw : List Bool), delivers s (↑path) 1 = true ∧ regBit s (bpReg (↑path)
      Reg.bpPskCfg) 31 = true ∧ (pskBits (regBit s (bpReg (↑path) Reg.bpPskCfg) 27) raw).length = 16 + regBits s (bpReg (↑path)
      Reg.bpPskCfg) 9 0 ∧ syncErrors (regBits s (bpReg (↑path) Reg.bpPskSync) 15 0) (pskBits (regBit s (bpReg (↑path)
      Reg.bpPskCfg) 27) raw) ≤ regBits s (bpReg (↑path) Reg.bpPskCfg) 15 12 ∧ listenSlot s ↑path = some k ∧ regBit s
      (Reg.bdaSlotCfg + k) 29 = true ∧ messageSlot s ↑path = none ∧ queueFree s Reg.bdaQPop ≠ 0) := by
  refine ⟨⟨pathAt 3 1 2 Bs.locked true, 3, 0, 0, 0, 0, ?_, ?_, ?_, ?_⟩,
    ⟨setReg Reg.bdaGroupMask 0x80000000 (pathAt 3 1 2 Bs.locked true), 3, 0, rdsCode 0x0FC 1, groupB, rdsCode 0x350 3, rdsCode
      0x1B4 4, goodGroup, ?_, ?_, ?_, ?_, ?_, ?_, ?_, ?_⟩,
    ⟨pathAt 3 1 3 Bs.locked true, 3, List.replicate 32 0, ?_, ?_, ?_⟩,
    ⟨setReg Reg.bdaSlotCfg 0x80000000 (pathAt 3 1 3 Bs.locked true), 3, 0, fibBytes, ?_, ?_, ?_, ?_, ?_, ?_, ?_⟩,
    ⟨run, .host, 7, 2, 3, ?_, ?_⟩,
    ⟨setReg Reg.bdaSelArg 0x80FFFFFF (pathAt 2 0 0 0 false), .host, 7, 2, 3, ?_, ?_, ?_, ?_⟩,
    ⟨selectorOn 0x80004000, 3, 0, 3, List.replicate 24 1, ?_, ?_, ?_, ?_, ?_, ?_⟩,
    ⟨selectorOn 0xA0000000 (withBcast (fun b => { b with aux := List.replicate 12 9 }) (pathAt 3 1 3 Bs.locked true)), 3, 0, 3,
      [[0, 9]], ?_, ?_, ?_, ?_, ?_, ?_, ?_⟩,
    ⟨selectorOn 0xA0000000 (withBcast (fun b => { b with aux := List.replicate 12 9 }) (pathAt 3 1 3 Bs.locked true)), 3, 0, 3,
      [onePacket], List.replicate 17 0, ?_, ?_, ?_, ?_, ?_, ?_, ?_, ?_, ?_⟩,
    ⟨pathAt 3 1 4 Bs.locked true, 3, minuteReport, ?_, ?_, ?_, ?_⟩,
    ⟨setReg (bpReg 3 Reg.bpTcCfg) 2 (pathAt 3 2 4 Bs.locked true), 3, wwvb, ?_, ?_, ?_, ?_, ?_⟩,
    ⟨setReg Reg.bdaSlotCfg 0x20000000 (setReg (bpReg 3 Reg.bpPskCfg) 0x80000004 (setReg (bpReg 3 Reg.bpPskSync) 0 (pathAt 3 1 1
      Bs.locked true))), 3, 0, List.replicate 21 false, ?_, ?_, ?_, ?_, ?_, ?_, ?_, ?_⟩⟩ <;>
    first | decide +kernel | (constructor <;> decide +kernel)

theorem witness_VotesAndDecoder :
    (∃ (s : State) (c : CopyRec), domainOn s 6 = true ∧ s.bcast.ready = [c] ∧ c.entry < 8 ∧ c.bytes.length < bitsOf (getReg s
      (Reg.ccdStream + mapStream s c.entry)) 21 16 + (bitsOf (getReg s (Reg.ccdStream + mapStream s c.entry)) 13 12 + 1))
    ∧ (∃ (s : State) (c : CopyRec), domainOn s 6 = true ∧ s.bcast.ready = [c] ∧ c.entry < 8 ∧ bitsOf (getReg s (Reg.ccdStream +
      mapStream s c.entry)) 21 16 + (bitsOf (getReg s (Reg.ccdStream + mapStream s c.entry)) 13 12 + 1) ≤ c.bytes.length ∧
      s.bcast.votes.length < 32 ∧ (List.find? (fun v ↦ v.stream == mapStream s c.entry && v.seq == beNat (List.take (bitsOf
      (getReg s (Reg.ccdStream + mapStream s c.entry)) 13 12 + 1) (List.drop (bitsOf (getReg s (Reg.ccdStream + mapStream s
      c.entry)) 21 16) c.bytes))) s.bcast.votes = none) ∧ (List.find? (fun m ↦ m.stream == mapStream s c.entry && m.seq == beNat
      (List.take (bitsOf (getReg s (Reg.ccdStream + mapStream s c.entry)) 13 12 + 1) (List.drop (bitsOf (getReg s (Reg.ccdStream
      + mapStream s c.entry)) 21 16) c.bytes))) s.bcast.closed = none))
    ∧ (∃ (s : State) (c : CopyRec) (v : VoteEntry), domainOn s 6 = true ∧ s.bcast.ready = [c] ∧ c.entry < 8 ∧ bitsOf (getReg s
      (Reg.ccdStream + mapStream s c.entry)) 21 16 + (bitsOf (getReg s (Reg.ccdStream + mapStream s c.entry)) 13 12 + 1) ≤
      c.bytes.length ∧ (List.find? (fun v ↦ v.stream == mapStream s c.entry && v.seq == beNat (List.take (bitsOf (getReg s
      (Reg.ccdStream + mapStream s c.entry)) 13 12 + 1) (List.drop (bitsOf (getReg s (Reg.ccdStream + mapStream s c.entry)) 21
      16) c.bytes))) s.bcast.votes = some v) ∧ v.disputed = false ∧ v.confirmed = false ∧ c.bytes = v.first ∧ v.agree.contains
      c.entry = false ∧ activeSecondary s = false)
    ∧ (∃ (s : State) (stream : Fin 8) (seq : Word) (v : VoteEntry), domainOn s 6 = true ∧ s.bcast.ready = [] ∧ (List.find? (fun
      v ↦ v.stream == ↑stream && v.seq == BitVec.toNat seq) s.bcast.votes = some v) ∧ voteWindowOver s v = true)
    ∧ (∃ (s : State) (stream : Fin 8) (seq : Word) (v : VoteEntry), domainOn s 6 = true ∧ s.bcast.ready = [] ∧ (List.find? (fun
      v ↦ v.stream == ↑stream && v.seq == BitVec.toNat seq) s.bcast.votes = some v) ∧ voteWindowOver s v = true)
    ∧ (∃ (s : State) (r : TimeRec) (rest : List TimeRec), domainOn s 6 = true ∧ s.bcast.reports = r :: rest ∧ passedMs s
      s.bcast.reportsNow (1000 * regBits s Reg.ccdTimeCfg 3 0) = true)
    ∧ (∃ (s : State) (bits : Nat), domainOn s 8 = true ∧ 0 < bits)
    ∧ (∃ (s : State) (bits : Nat), domainOn s 8 = true ∧ 0 < bits ∧ urgentShare s + unitCost bits ≤ 20000)
    ∧ (∃ (s : State) (bits : Nat), domainOn s 8 = true ∧ 0 < bits ∧ 20000 < urgentShare s + unitCost bits)
    ∧ (∃ (s : State) (r : DecodeReq) (rest : List DecodeReq), s.decoder.running = some false ∧ s.decoder.normal = r :: rest ∧
      4096 < r.left)
    ∧ (∃ (s : State) (r : DecodeReq) (rest : List DecodeReq), s.decoder.running = some false ∧ s.decoder.normal = r :: rest ∧
      r.left ≤ 4096 ∧ r.frame = none ∧ r.urgent = false)
    ∧ (∃ (s : State) (r : DecodeReq) (rest : List DecodeReq), s.decoder.running = some false ∧ s.decoder.normal = r :: rest ∧
      r.left ≤ 4096 ∧ r.frame = none ∧ r.urgent = false) := by
  refine ⟨⟨withBcast (fun b => { b with ready := [copyRec 0] }), copyRec 0, ?_, ?_, ?_, ?_⟩,
    ⟨withBcast (fun b => { b with ready := [copyRec 9] }), copyRec 9, ?_, ?_, ?_, ?_, ?_, ?_, ?_⟩,
    ⟨withBcast (fun b => { b with ready := [copyRec 9], votes := [voteEntry] }), copyRec 9, voteEntry, ?_, ?_, ?_, ?_, ?_, ?_,
      ?_, ?_, ?_, ?_⟩,
    ⟨later 1000000000 (withBcast (fun b => { b with votes := [voteEntry] })), 0, 6, voteEntry, ?_, ?_, ?_, ?_⟩,
    ⟨later 1000000000 (withBcast (fun b => { b with votes := [{voteEntry with disputed := true}] })), 0, 6,
      {voteEntry with disputed := true}, ?_, ?_, ?_, ?_⟩,
    ⟨later 1000000000 (withBcast (fun b => { b with reports := [{ slot := 0, cls := 0, offset := 5, half := 9 }] })),
      { slot := 0, cls := 0, offset := 5, half := 9 }, [], ?_, ?_, ?_⟩,
    ⟨run, 500, ?_, ?_⟩,
    ⟨run, 500, ?_, ?_, ?_⟩,
    ⟨run, 50000, ?_, ?_, ?_⟩,
    ⟨decoding 5000, decodeReq 5000, [], ?_, ?_, ?_⟩,
    ⟨decoding 4096, decodeReq 4096, [], ?_, ?_, ?_, ?_, ?_⟩,
    ⟨({ decoding 4096 with now := 100000000 }), decodeReq 4096, [], ?_, ?_, ?_, ?_, ?_⟩⟩ <;>
    decide +kernel

theorem witness_CipherJobs :
    (∃ (s : State) (req : Requester) (tag : Byte) (arg : BitVec 16), DoorOpen s req 10 (doorWord tag 16 arg) ∧ s.mem.symErr = []
      ∧ descOff s (16 * arg.toNat) 48 = false ∧ cipherBad s
      { id := s.doors.nextId, ticket := nextTicket s 10, requester := req, kind := CipherKind.cipher, slot := leField (mortarBytes s (16 * arg.toNat) 48) 2 1, desc := mortarBytes s (16 * arg.toNat) 48, phase := CipherPhase.waiting, counter := 0, provReads := 0, good := false, left := 0, startNow := 0 }
      = false ∧ (∀ (k : CipherJob), k ∈ s.cipher.jobs → rangesMeet k.dst k.destLen
      ({ id := s.doors.nextId, ticket := nextTicket s 10, requester := req, kind := CipherKind.cipher, slot := leField (mortarBytes s (16 * arg.toNat) 48) 2 1, desc := mortarBytes s (16 * arg.toNat) 48, phase := CipherPhase.waiting, counter := 0, provReads := 0, good := false, left := 0, startNow := 0 }
      : CipherJob).dst
      ({ id := s.doors.nextId, ticket := nextTicket s 10, requester := req, kind := CipherKind.cipher, slot := leField (mortarBytes s (16 * arg.toNat) 48) 2 1, desc := mortarBytes s (16 * arg.toNat) 48, phase := CipherPhase.waiting, counter := 0, provReads := 0, good := false, left := 0, startNow := 0 }
      : CipherJob).destLen = false) ∧ 0 < cipherFree s)
    ∧ (∃ (s : State) (host : Bool) (j : CipherJob), startable s host = some j ∧ (host = true → startable s false = none) ∧
      domainOn s 2 = true ∧ testRuns s 10 = false ∧ startChecks s j = Cs.ok ∧ j.mode = 6 ∧ j.slot < 28)
    ∧ (∃ (s : State) (host : Bool) (j : CipherJob), startable s host = some j ∧ (host = true → startable s false = none) ∧
      domainOn s 2 = true ∧ testRuns s 10 = false ∧ startChecks s j ≠ Cs.ok)
    ∧ (∃ (s : State) (host : Bool) (j : CipherJob), Machine.runningJob s host = some j ∧ domainOn s 2 = true ∧ testRuns s 10 =
      false ∧ finishesNext s host j = true ∧ jobTimed s j = true ∧ jobHeld s j = false ∧ s.mem.symErr = [] ∧ s.mem.poison = [] ∧
      j.decrypt = false ∧ j.mode < 4 ∧ 0 < j.dataBlocks ∧ (∀ (k : CipherJob), k ∈ s.cipher.jobs → k.kind = CipherKind.cipher))
    ∧ (∃ (s : State) (host : Bool) (j : CipherJob), Machine.runningJob s host = some j ∧ domainOn s 2 = true ∧ testRuns s 10 =
      false ∧ finishesNext s host j = true ∧ jobTimed s j = true ∧ jobHeld s j = false ∧ s.mem.symErr = [] ∧ s.mem.poison = [] ∧
      j.decrypt = true ∧ 4 ≤ j.mode)
    ∧ (∃ (s : State) (host : Bool) (j : CipherJob), (List.find? (fun j ↦ j.kind == CipherKind.cipher && j.phase ==
      CipherPhase.verdict && isMason j.requester != host) s.cipher.jobs = some j)) := by
  refine ⟨⟨withMortar 0xFFFF0 (cipherDesc 2 0 5 0), .host, 7, 0xFFFF, ?_, ?_, ?_, ?_, ?_, ?_⟩,
    ⟨cipherState (cipherJob (cipherDesc 6 0 19 16 0) .waiting) (some (keySlot 63)), true, cipherJob (cipherDesc 6 0 19 16 0)
      .waiting, ?_, ?_, ?_, ?_, ?_, ?_, ?_⟩,
    ⟨cipherState (cipherJob (cipherDesc 6 0 19 16 0) .waiting) none, true, cipherJob (cipherDesc 6 0 19 16 0) .waiting, ?_, ?_,
      ?_, ?_, ?_⟩,
    ⟨later 1000000 (cipherState (cipherJob (cipherDesc 2 0 19 0) .running) (some (keySlot 63))), true, cipherJob (cipherDesc 2 0
      19 0) .running, ?_, ?_, ?_, ?_, ?_, ?_, ?_, ?_, ?_, ?_, ?_, ?_⟩,
    ⟨later 1000000 (cipherState (cipherJob (cipherDesc 5 1 19 16) .running) (some (keySlot 63))), true, cipherJob (cipherDesc 5
      1 19 16) .running, ?_, ?_, ?_, ?_, ?_, ?_, ?_, ?_, ?_, ?_⟩,
    ⟨cipherState (cipherJob (cipherDesc 5 1 19 16) .verdict) (some (keySlot 63)), true, cipherJob (cipherDesc 5 1 19 16)
      .verdict, ?_⟩⟩ <;>
    first | decide +kernel | (constructor <;> decide +kernel)

theorem witness_KeyCommands :
    (∃ (s : State) (req : Requester) (tag : Byte) (arg : BitVec 16), s.mem.symErr = [] ∧ s.cipher.slots.length = 32 ∧ DoorOpen s
      req 10 (doorWord tag 17 arg) ∧ descOff s (16 * arg.toNat) 48 = false ∧ keyLoadBad (mortarBytes s (16 * arg.toNat) 48) =
      false ∧ 28 ≤ leField (mortarBytes s (16 * arg.toNat) 48) 0 1 ∧ slotReserved s req (leField (mortarBytes s (16 * arg.toNat)
      48) 0 1) = false ∧ limitedLoader s req = true ∧ s.cipher.jobs = [] ∧ 0 < cipherFree s)
    ∧ (∃ (s : State) (req : Requester) (tag : Byte) (arg : BitVec 16), s.mem.symErr = [] ∧ s.cipher.slots.length = 32 ∧ DoorOpen
      s req 10 (doorWord tag 17 arg) ∧ descOff s (16 * arg.toNat) 48 = false ∧ keyLoadBad (mortarBytes s (16 * arg.toNat) 48) =
      false ∧ leField (mortarBytes s (16 * arg.toNat) 48) 0 1 < 28 ∧ slotReserved s req (leField (mortarBytes s (16 * arg.toNat)
      48) 0 1) = false ∧ s.cipher.jobs = [] ∧ 0 < cipherFree s)
    ∧ (∃ (s : State) (req : Requester) (tag : Byte) (arg : BitVec 16), s.mem.symErr = [] ∧ s.cipher.slots.length = 32 ∧ DoorOpen
      s req 10 (doorWord tag 18 arg) ∧ arg.toNat < 32 ∧ slotReserved s req arg.toNat = false ∧ s.cipher.jobs = [] ∧ 0 <
      cipherFree s)
    ∧ (∃ (s : State) (req : Requester) (tag : Byte) (arg : BitVec 16), s.mem.symErr = [] ∧ s.cipher.slots.length = 32 ∧ DoorOpen
      s req 10 (doorWord tag 32 arg) ∧ descOff s (16 * arg.toNat) 48 = false ∧ leField (mortarBytes s (16 * arg.toNat) 48) 0 2 <
      512 ∧ leField (mortarBytes s (16 * arg.toNat) 48) 2 2 ≠ 0 ∧ leField (mortarBytes s (16 * arg.toNat) 48) 2 2 ≠ 65535 ∧
      (leField (mortarBytes s (16 * arg.toNat) 48) 4 1 = 0 ∨ leField (mortarBytes s (16 * arg.toNat) 48) 4 1 = 2) ∧ zeroField
      (mortarBytes s (16 * arg.toNat) 48) 5 3 = true ∧ nodeRefused s req (leField (mortarBytes s (16 * arg.toNat) 48) 0 2) =
      false)
    ∧ (∃ (s : State) (req : Requester) (tag : Byte) (arg : BitVec 16), s.mem.symErr = [] ∧ s.cipher.slots.length = 32 ∧ DoorOpen
      s req 10 (doorWord tag 33 arg) ∧ arg.toNat < 512 ∧ nodeRefused s req arg.toNat = false) := by
  refine ⟨⟨withMortar 0xFFFF0 (keyDesc 31), .mason 3, 7, 0xFFFF, ?_, ?_, ?_, ?_, ?_, ?_, ?_, ?_, ?_, ?_⟩,
    ⟨withMortar 0xFFFF0 (keyDesc 5), .mason 3, 7, 0xFFFF, ?_, ?_, ?_, ?_, ?_, ?_, ?_, ?_, ?_⟩,
    ⟨run, .mason 3, 7, 31, ?_, ?_, ?_, ?_, ?_, ?_, ?_⟩,
    ⟨withMortar 0xFFFF0 nodeDesc, .mason 3, 7, 0xFFFF, ?_, ?_, ?_, ?_, ?_, ?_, ?_, ?_, ?_, ?_⟩,
    ⟨run, .mason 3, 7, 511, ?_, ?_, ?_, ?_, ?_⟩⟩ <;>
    first | decide +kernel | (constructor <;> decide +kernel)

theorem witness_RandomAndPublicKey :
    (∃ (s : State) (req : Requester) (tag : Byte) (arg : BitVec 16), s.mem.symErr = [] ∧ DoorOpen s req 11 (doorWord tag 19 arg)
      ∧ descOff s (16 * arg.toNat) 8 = false ∧ 16 ≤ leField (mortarBytes s (16 * arg.toNat) 8) 4 4 ∧ leField (mortarBytes s (16
      * arg.toNat) 8) 4 4 ≤ 4096 ∧ leField (mortarBytes s (16 * arg.toNat) 8) 4 4 % 16 = 0 ∧ destBad s (leField (mortarBytes s
      (16 * arg.toNat) 8) 0 4) (leField (mortarBytes s (16 * arg.toNat) 8) 4 4) = false)
    ∧ (∃ (s : State) (req : Requester) (tag : Byte) (arg : BitVec 16), s.mem.symErr = [] ∧ DoorOpen s req 11 (doorWord tag 19
      arg) ∧ descOff s (16 * arg.toNat) 8 = false ∧ 16 ≤ leField (mortarBytes s (16 * arg.toNat) 8) 4 4 ∧ leField (mortarBytes s
      (16 * arg.toNat) 8) 4 4 ≤ 4096 ∧ leField (mortarBytes s (16 * arg.toNat) 8) 4 4 % 16 = 0 ∧ destBad s (leField (mortarBytes
      s (16 * arg.toNat) 8) 0 4) (leField (mortarBytes s (16 * arg.toNat) 8) 4 4) = false)
    ∧ (∃ (s : State) (req : Requester) (tag : Byte) (arg : BitVec 16), s.mem.symErr = [] ∧ s.ident.state = 3 ∧ resultFull s 11
      [16, 17, 18] = false ∧ DoorOpen s req 11 (doorWord tag 16 arg) ∧ descOff s (16 * arg.toNat) 32 = false)
    ∧ (∃ (s : State) (req : Requester) (tag : Byte) (arg : BitVec 16), s.mem.symErr = [] ∧ s.ident.state = 3 ∧ resultFull s 11
      [16, 17, 18] = false ∧ DoorOpen s req 11 (doorWord tag 17 arg) ∧ descOff s (16 * arg.toNat) 160 = false)
    ∧ (∃ (s : State) (req : Requester) (tag : Byte) (arg : BitVec 16), s.mem.symErr = [] ∧ s.ident.state = 3 ∧ resultFull s 11
      [16, 17, 18] = false ∧ DoorOpen s req 11 (doorWord tag 18 arg) ∧ descOff s (16 * arg.toNat) 104 = false ∧ ecdhBad
      (mortarBytes s (16 * arg.toNat) 104) = false)
    ∧ (∃ (s : State) (req : Requester) (tag : Byte) (arg : BitVec 16), s.mem.symErr = [] ∧ s.ident.state = 3 ∧ DoorOpen s req 11
      (doorWord tag 20 arg) ∧ descOff s (16 * arg.toNat) 4 = false ∧ destBad s (leField (mortarBytes s (16 * arg.toNat) 4) 0 4)
      (certBytes s).length = false)
    ∧ (∃ (s : State) (j : PkJob) (rest : List PkJob), s.ident.jobs = j :: rest ∧ domainOn s 2 = true ∧ testRuns s 11 = false ∧
      j.code = 20)
    ∧ (∃ (s : State) (j : PkJob) (rest : List PkJob), s.ident.jobs = j :: rest ∧ domainOn s 2 = true ∧ testRuns s 11 = false ∧
      j.code = 16 ∧ s.ident.rngOk = true)
    ∧ (∃ (s : State) (j : PkJob) (rest : List PkJob), s.ident.jobs = j :: rest ∧ domainOn s 2 = true ∧ testRuns s 11 = false ∧
      j.code = 17 ∧ onCurve (bigField j.desc 32) (bigField j.desc 64) = false)
    ∧ (∃ (s : State) (repetition : Bool) (adaptive : Bool), domainOn s 2 = true ∧ (repetition || adaptive) = true) := by
  refine ⟨⟨{ withMortar 0xFFFF0 randomDesc with ident := { run.ident with rngOk := true } }, .mason 3, 7, 0xFFFF, ?_, ?_, ?_, ?_, ?_,
      ?_, ?_⟩,
    ⟨withMortar 0xFFFF0 randomDesc, .mason 3, 7, 0xFFFF, ?_, ?_, ?_, ?_, ?_, ?_, ?_⟩,
    ⟨run, .mason 3, 7, 0xFFFF, ?_, ?_, ?_, ?_, ?_⟩,
    ⟨run, .mason 3, 7, 0xFFFF, ?_, ?_, ?_, ?_, ?_⟩,
    ⟨withMortar 0xFFFF0 ecdhDesc, .mason 3, 7, 0xFFFF, ?_, ?_, ?_, ?_, ?_, ?_⟩,
    ⟨run, .mason 3, 7, 0xFFFF, ?_, ?_, ?_, ?_, ?_⟩,
    ⟨pkState 0x14 true, pkJob 0x14, [], ?_, ?_, ?_, ?_⟩,
    ⟨pkState 0x10 true, pkJob 0x10, [], ?_, ?_, ?_, ?_, ?_⟩,
    ⟨pkState 0x11 true, pkJob 0x11, [], ?_, ?_, ?_, ?_, ?_⟩,
    ⟨run, true, false, ?_, ?_⟩⟩ <;>
    first | decide +kernel | (constructor <;> decide +kernel)

theorem witness_ResetsAndStartDone :
    (∃ (s : State), s.phase ≠ Phase.stopped)
    ∧ (∃ (s : State) (req : Requester) (tag : Byte), DoorOpen s req 0 (doorWord tag 17 0))
    ∧ (∃ (s : State) (req : Requester) (tag : Byte), DoorOpen s req 0 (doorWord tag 16 0) ∧ s.boot = BootState.startUp ∧
      s.bootUnit.idGen = false)
    ∧ (∃ (s : State) (req : Requester) (tag : Byte), DoorOpen s req 0 (doorWord tag 16 0) ∧ s.boot = BootState.startUp ∧
      s.bootUnit.idGen = true) := by
  refine ⟨⟨run, ?_⟩,
    ⟨run, .host, 7, ?_⟩,
    ⟨{ run with boot := .startUp }, .mason 0, 7, ?_, ?_, ?_⟩,
    ⟨{ run with boot := .startUp, bootUnit := { run.bootUnit with idGen := true } }, .mason 0, 7, ?_, ?_, ?_⟩⟩ <;>
    first | decide +kernel | (constructor <;> decide +kernel)

theorem witness_CopiesAndFuses :
    (∃ (s : State) (req : Requester) (tag : Byte), copyBad s = false ∧ DoorOpen s req 12 (doorWord tag 16 0))
    ∧ (∃ (s : State) (req : Requester) (tag : Byte), copyBad s = false ∧ DoorOpen s req 12 (doorWord tag 17 0))
    ∧ (∃ (s : State) (c : NvlCopy) (rest : List NvlCopy), s.nvl.copies = c :: rest ∧ live s = true)
    ∧ (∃ (s : State) (c : NvlCopy) (rest : List NvlCopy), s.nvl.copies = c :: rest ∧ live s = true)
    ∧ (∃ (s : State) (req : Requester) (tag : Byte) (lock : Byte), DoorOpen s req 12 (doorWord tag 48 (BitVec.setWidth 16 lock))
      ∧ s.boot = BootState.startUp ∧ (lock = 1 ∨ lock = 3) ∧ getReg s Reg.nvlBlowArm = BitVec.ofNat 32 (2970484736 +
      BitVec.toNat lock))
    ∧ (∃ (s : State) (id : Nat) (lock : Nat) (rest : List (Nat × Nat)), s.nvl.blows = (id, lock) :: rest ∧ live s = true) := by
  refine ⟨⟨copySetup, .host, 7, ?_, ?_⟩,
    ⟨copySetup, .host, 7, ?_, ?_⟩,
    ⟨{ runningDoor 0x0C with nvl := { run.nvl with copies := [copyJob true] } }, copyJob true, [], ?_, ?_⟩,
    ⟨{ runningDoor 0x0C with nvl := { run.nvl with copies := [copyJob false] } }, copyJob false, [], ?_, ?_⟩,
    ⟨setReg Reg.nvlBlowArm 0xB10E0003 { run with boot := .startUp }, .mason 0, 7, 3, ?_, ?_, ?_, ?_⟩,
    ⟨blowing, 3, 1, [], ?_, ?_⟩⟩ <;>
    first | decide +kernel | (constructor <;> decide +kernel)

theorem witness_RadioReception :
    (∃ (s : State) (symbolsA : Nat), domainOn s 7 = true ∧ radioState s = Ra.listen ∧ synthState s = Sy.locked ∧ regBit s
      Reg.vlrState 27 = false ∧ radioTested s = false ∧ regBits s Reg.vlmDetect 4 0 ≤ symbolsA)
    ∧ (∃ (s : State) (rx : Reception) (bits : Word) (word1 : Bool) (errors : Nat) (foffset : Int), domainOn s 7 = true ∧
      s.radio.rx = some rx ∧ radioState s = Ra.detected ∧ rx.meter = false ∧ syncFoundIn s.radio.cfg bits = some (word1, errors)
      ∧ foffset.natAbs ≤ captureRange s.radio.cfg ∧ vlrUs s ≤ rx.atUs + syncWaitUs s.radio.cfg)
    ∧ (∃ (s : State) (rx : Reception), domainOn s 7 = true ∧ s.radio.rx = some rx ∧ radioState s = Ra.detected ∧ s.radio.waiting
      = [] ∧ rx.atUs + syncWaitUs s.radio.cfg ≤ vlrUs s)
    ∧ (∃ (s : State) (rx : Reception) (raw : Byte), domainOn s 7 = true ∧ s.radio.rx = some rx ∧ radioState s = Ra.capture ∧
      BitVec.toNat (lengthOf s.radio.cfg raw) ≠ 0 ∧ BitVec.toNat (lengthOf s.radio.cfg raw) ≤ bitsOf s.radio.cfg.detect 31 24)
    ∧ (∃ (s : State) (rx : Reception) (raw : Byte), domainOn s 7 = true ∧ s.radio.rx = some rx ∧ radioState s = Ra.capture ∧
      (BitVec.toNat (lengthOf s.radio.cfg raw) = 0 ∨ bitsOf s.radio.cfg.detect 31 24 < BitVec.toNat (lengthOf s.radio.cfg raw))
      ∧ s.radio.waiting = [])
    ∧ (∃ (s : State) (rx : Reception) (raw : Byte), domainOn s 7 = true ∧ s.radio.rx = some rx ∧ radioState s = Ra.capture ∧
      (BitVec.toNat (lengthOf s.radio.cfg raw) = 0 ∨ bitsOf s.radio.cfg.detect 31 24 < BitVec.toNat (lengthOf s.radio.cfg raw))
      ∧ s.radio.waiting = [])
    ∧ (∃ (s : State) (rx : Reception) (n : Nat) (soft : List (Fin 8)) (decoded : List Byte), domainOn s 7 = true ∧ s.radio.rx =
      some rx ∧ rx.length = some n ∧ radioState s = Ra.capture ∧ domainOn s 8 = true ∧ s.radio.waiting = [] ∧ soft.length =
      frameCoded s.radio.cfg (n + 1) ∧ soft.length * 1000000 ≤ (vlrUs s + 1 - rx.syncUs) * bitRate (bitsOf
      s.radio.cfg.modulation 7 4) ∧ (BitVec.getLsbD ((capturedFrame s.radio.cfg rx n (List.map (fun d ↦ decide (4 ≤ ↑d)) soft)
      decoded (vlrUs s)).bytes.getD 1 0#8) 7 = false)) := by
  refine ⟨⟨radioAt Ra.listen Sy.locked, 200, ?_, ?_, ?_, ?_, ?_, ?_⟩,
    ⟨radioAt Ra.detected Sy.locked (fun r => { r with rx := some reception }), reception, 0xD3915A6C, false, 0, 5, ?_, ?_, ?_,
      ?_, ?_, ?_, ?_⟩,
    ⟨long (radioAt Ra.detected Sy.locked (fun r => { r with rx := some reception })), reception, ?_, ?_, ?_, ?_, ?_⟩,
    ⟨radioAt Ra.capture Sy.locked (fun r => { r with rx := some reception }), reception, 95, ?_, ?_, ?_, ?_, ?_⟩,
    ⟨radioAt Ra.capture Sy.locked (fun r => { r with rx := some reception }), reception, 94, ?_, ?_, ?_, ?_, ?_⟩,
    ⟨radioAt Ra.capture Sy.locked (fun r => { r with rx := some reception }), reception, 255, ?_, ?_, ?_, ?_, ?_⟩,
    ⟨long (radioAt Ra.capture Sy.locked (fun r => { r with rx := some { reception with length := some 20 } })),
      { reception with length := some 20 }, 20, List.replicate 348 7, [1, 0x80], ?_, ?_, ?_, ?_, ?_, ?_, ?_, ?_, ?_⟩⟩ <;>
    decide +kernel

theorem witness_RadioTransmission :
    (∃ (s : State) (x : Transmission) (vpa : Byte), domainOn s 7 = true ∧ s.radio.tx = some x ∧ radioState s = Ra.turnTx ∧
      x.reqUs + 96 ≤ vlrUs s ∧ 27 ≤ BitVec.toNat vpa ∧ rampReady s = true)
    ∧ (∃ (s : State) (x : Transmission) (vpa : Byte), domainOn s 7 = true ∧ s.radio.tx = some x ∧ radioState s = Ra.turnTx ∧
      x.reqUs + 96 ≤ vlrUs s ∧ 27 ≤ BitVec.toNat vpa ∧ synthState s ≠ Sy.locked)
    ∧ (∃ (s : State) (x : Transmission), domainOn s 7 = true ∧ s.radio.tx = some x ∧ radioState s = Ra.rampUp ∧ x.startUs +
      (bitsOf s.radio.cfg.pa 21 16 + 1) ≤ vlrUs s)
    ∧ (∃ (s : State) (x : Transmission), domainOn s 7 = true ∧ s.radio.tx = some x ∧ radioState s = Ra.tx ∧ x.startUs +
      x.airtime ≤ vlrUs s + (bitsOf s.radio.cfg.pa 29 24 + 1))
    ∧ (∃ (s : State) (x : Transmission), domainOn s 7 = true ∧ s.radio.tx = some x ∧ radioState s = Ra.rampDown ∧ x.downUs +
      (bitsOf s.radio.cfg.pa 29 24 + 1) ≤ vlrUs s ∧ x.kind = TxKind.ack none ∧ x.code = 0 ∧ s.radio.waiting = [] ∧ synthState s
      ≠ Sy.calibrating)
    ∧ (∃ (s : State) (x : Transmission), domainOn s 7 = true ∧ s.radio.tx = some x ∧ radioState s = Ra.turnRx ∧ s.radio.turnUs +
      64 ≤ vlrUs s ∧ radioMode s ≠ 0 ∧ synthState s ≠ Sy.failed ∧ synthState s ≠ Sy.calibrating ∧ s.radio.calibrated = true ∧
      configOk (liveConfig s) (regBits s Reg.vlrChannel 9 0) = true)
    ∧ (∃ (s : State) (x : Transmission), domainOn s 7 = true ∧ s.radio.tx = some x ∧ radioState s = Ra.held ∧ synthState s =
      Sy.settling ∧ granted s = true ∧ radioTested s = false)
    ∧ (∃ (s : State) (x : Transmission), domainOn s 7 = true ∧ s.radio.tx = some x ∧ radioState s = Ra.held ∧ synthState s =
      Sy.settling ∧ x.step3Us + bitsOf s.radio.cfg.holdLimit 9 0 ≤ vlrUs s ∧ x.kind = TxKind.ack none ∧ s.radio.waiting = [])
    ∧ (∃ (s : State) (x : Transmission), domainOn s 7 = true ∧ s.radio.tx = some x ∧ Ra.rampUp ≤ radioState s ∧ radioState s ≤
      Ra.rampDown)
    ∧ (∃ (s : State) (x : Transmission), domainOn s 7 = true ∧ s.radio.tx = some x ∧ Ra.rampUp ≤ radioState s ∧ radioState s ≤
      Ra.rampDown) := by
  refine ⟨⟨long (sending Ra.turnTx Sy.locked (.ack none)), transmission (.ack none), 40, ?_, ?_, ?_, ?_, ?_, ?_⟩,
    ⟨long (sending Ra.turnTx Sy.settling (.ack none)), transmission (.ack none), 40, ?_, ?_, ?_, ?_, ?_, ?_⟩,
    ⟨long (sending Ra.rampUp Sy.locked (.ack none)), transmission (.ack none), ?_, ?_, ?_, ?_⟩,
    ⟨long (sending Ra.tx Sy.locked (.ack none)), transmission (.ack none), ?_, ?_, ?_, ?_⟩,
    ⟨long (sending Ra.rampDown Sy.locked (.ack none)), transmission (.ack none), ?_, ?_, ?_, ?_, ?_, ?_, ?_, ?_⟩,
    ⟨long (sending Ra.turnRx Sy.settling (.ack none) (fun r => { r with calibrated := true })), transmission (.ack none), ?_,
      ?_, ?_, ?_, ?_, ?_, ?_, ?_, ?_⟩,
    ⟨sending Ra.held Sy.settling (.ack none) (fun r => { r with calibrated := true }), transmission (.ack none), ?_, ?_, ?_, ?_,
      ?_, ?_⟩,
    ⟨long (sending Ra.held Sy.settling (.ack none) (fun r => { r with calibrated := true })), transmission (.ack none), ?_, ?_,
      ?_, ?_, ?_, ?_, ?_⟩,
    ⟨sending Ra.rampUp Sy.locked (.ack none), transmission (.ack none), ?_, ?_, ?_, ?_⟩,
    ⟨sending Ra.rampDown Sy.locked (.slot 3), transmission (.slot 3), ?_, ?_, ?_, ?_⟩⟩ <;>
    decide +kernel

theorem witness_RadioCalibrationAndCoexistence :
    (∃ (s : State), domainOn s 7 = true)
    ∧ (∃ (s : State), domainOn s 7 = true ∧ calGap s = true ∧ regBit s Reg.vlrSynth 27 = true)
    ∧ (∃ (s : State), domainOn s 7 = true ∧ synthState s = Sy.calibrating ∧ s.radio.retryDue = false ∧ passedUs s s.radio.calNow
      180 = true)
    ∧ (∃ (s : State), domainOn s 7 = true ∧ synthState s = Sy.calibrating ∧ s.radio.retryDue = false ∧ passedUs s s.radio.calNow
      180 = true ∧ s.radio.calFails < 2)
    ∧ (∃ (s : State), domainOn s 7 = true ∧ synthState s = Sy.calibrating ∧ s.radio.retryDue = false ∧ passedUs s s.radio.calNow
      180 = true ∧ 2 ≤ s.radio.calFails)
    ∧ (∃ (s : State), domainOn s 7 = true ∧ s.radio.retryDue = true ∧ passedMs s s.radio.calNow 10 = true)
    ∧ (∃ (s : State), domainOn s 7 = true ∧ synthState s = Sy.settling ∧ s.radio.tx = none)
    ∧ (∃ (s : State) (rx : Reception) (report : MeterReport), domainOn s 7 = true ∧ s.radio.rx = some rx ∧ rx.meter = true ∧
      radioState s = Ra.detected ∧ s.radio.waiting = [] ∧ (regBit s Reg.vlrMeter (if report.modeC1 = true then 30 else 31) =
      true) ∧ ((if (meterBytes report s).snd = true then meterFrameData (report.formatB && report.modeC1) (meterBytes report
      s).fst else none).isSome = true) ∧ queueFree s Reg.vlqQPop ≠ 0)
    ∧ (∃ (s : State) (rx : Reception) (report : MeterReport), domainOn s 7 = true ∧ s.radio.rx = some rx ∧ rx.meter = true ∧
      radioState s = Ra.detected ∧ s.radio.waiting = [] ∧ (regBit s Reg.vlrMeter (if report.modeC1 = true then 30 else 31) =
      true) ∧ ((if (meterBytes report s).snd = true then meterFrameData (report.formatB && report.modeC1) (meterBytes report
      s).fst else none) = none) ∧ regBit s Reg.vlrMeter 29 = false)
    ∧ (∃ (s : State) (req : Requester) (tag : Byte) (arg : BitVec 16), domainOn s 7 = true ∧ DoorOpen s req 32 (doorWord tag 16
      arg) ∧ (radioMode s = 1 ∨ radioMode s = 3) ∧ 0 < arg.toNat % 32768 ∧ arg.toNat % 32768 ≤ 10000 ∧ linkSilent s = true)
    ∧ (∃ (s : State) (req : Requester) (tag : Byte) (arg : BitVec 16), domainOn s 7 = true ∧ DoorOpen s req 32 (doorWord tag 16
      arg) ∧ (radioMode s = 1 ∨ radioMode s = 3) ∧ 0 < arg.toNat % 32768 ∧ arg.toNat % 32768 ≤ 10000 ∧ linkSilent s = false ∧
      radioState s = Ra.capture)
    ∧ (∃ (s : State) (x : Transmission), domainOn s 7 = true ∧ s.radio.tx = some x ∧ (radioState s = Ra.turnTx ∨ radioState s =
      Ra.held) ∧ regBit s Reg.coxCtrl 31 = true ∧ x.reqUs + 96 ≤ vlrUs s + regBits s Reg.coxCtrl 25 16)
    ∧ (∃ (s : State) (active : Bool), domainOn s 7 = true ∧ s.radio.coxGnt ≠ active ∧ regBit s Reg.coxCtrl 31 = false)
    ∧ (∃ (s : State) (active : Bool), domainOn s 7 = true ∧ s.radio.coxGnt ≠ active ∧ regBit s Reg.coxCtrl 31 = true ∧ active =
      true ∧ radioState s ≠ Ra.held)
    ∧ (∃ (s : State) (active : Bool) (x : Transmission), domainOn s 7 = true ∧ s.radio.coxGnt ≠ active ∧ regBit s Reg.coxCtrl 31
      = true ∧ active = false ∧ s.radio.tx = some x ∧ radioState s = Ra.tx)
    ∧ (∃ (s : State) (x : Transmission), domainOn s 7 = true ∧ radioState s = Ra.held ∧ granted s = false ∧ s.radio.tx = some x
      ∧ x.kind = TxKind.ack none ∧ s.radio.waiting = [] ∧ x.step3Us + regBits s Reg.coxCtrl 11 0 ≤ vlrUs s ∧ synthState s ≠
      Sy.calibrating) := by
  refine ⟨⟨setRegBits Reg.vlrCtrl 28 28 1 (radioAt Ra.listen Sy.locked (fun r => { r with calibrated := true })), ?_⟩,
    ⟨setRegBits Reg.vlrSynth 27 27 1 (radioAt Ra.listen Sy.locked), ?_, ?_, ?_⟩,
    ⟨long (radioAt Ra.cal Sy.calibrating), ?_, ?_, ?_, ?_⟩,
    ⟨long (radioAt Ra.cal Sy.calibrating), ?_, ?_, ?_, ?_, ?_⟩,
    ⟨long (radioAt Ra.cal Sy.calibrating (fun r => { r with calFails := 2 })), ?_, ?_, ?_, ?_, ?_⟩,
    ⟨long (radioAt Ra.cal Sy.calibrating (fun r => { r with retryDue := true })), ?_, ?_, ?_⟩,
    ⟨radioAt Ra.listen Sy.settling, ?_, ?_, ?_⟩,
    ⟨long (setRegBits Reg.vlrState 27 27 1 (setRegBits Reg.vlrMeter 31 30 3 (radioAt Ra.detected Sy.locked (fun r =>
      { r with rx := some meterRx })))), meterRx, meterReport true true, ?_, ?_, ?_, ?_, ?_, ?_, ?_, ?_⟩,
    ⟨long (setRegBits Reg.vlrState 27 27 1 (setRegBits Reg.vlrMeter 31 30 3 (radioAt Ra.detected Sy.locked (fun r =>
      { r with rx := some meterRx })))), meterRx, meterReport false true, ?_, ?_, ?_, ?_, ?_, ?_, ?_, ?_⟩,
    ⟨setTwin { run.twin with steppedDown := true } (radioAt Ra.capture Sy.locked), .host, 9, 10000, ?_, ?_, ?_, ?_, ?_, ?_⟩,
    ⟨radioAt Ra.capture Sy.locked, .host, 9, 10000, ?_, ?_, ?_, ?_, ?_, ?_, ?_⟩,
    ⟨long (setRegBits Reg.coxCtrl 31 31 1 (sending Ra.turnTx Sy.locked (.ack none))), transmission (.ack none), ?_, ?_, ?_, ?_,
      ?_⟩,
    ⟨setRegBits Reg.coxCtrl 31 31 0 (radioAt Ra.listen Sy.locked), true, ?_, ?_, ?_⟩,
    ⟨setRegBits Reg.coxCtrl 31 31 1 (radioAt Ra.listen Sy.locked), true, ?_, ?_, ?_, ?_, ?_⟩,
    ⟨setRegBits Reg.coxCtrl 31 31 1 (sending Ra.tx Sy.locked (.slot 3) (fun r => { r with coxGnt := true })), false,
      transmission (.slot 3), ?_, ?_, ?_, ?_, ?_, ?_⟩,
    ⟨long (setRegBits Reg.coxCtrl 31 31 1 (sending Ra.held Sy.locked (.ack none))), transmission (.ack none), ?_, ?_, ?_, ?_,
      ?_, ?_, ?_, ?_⟩⟩ <;>
    first | decide +kernel | (constructor <;> decide +kernel)

theorem witness_ValveLink :
    (∃ (s : State) (req : Requester) (tag : Byte) (arg : BitVec 16) (k : Nat), s.link.slots.length = 32 ∧ DoorOpen s req 34
      (doorWord tag 16 arg) ∧ s.mem.symErr = [] ∧ regBit s Reg.vlqCtrl 31 = true ∧ activeSecondary s = false ∧ sendBad
      (mortarBytes s (16 * arg.toNat) 16) (1048576 - (16 * arg.toNat + 16)) = false ∧ 0 < freeSlots s ∧ lowestSlot s = some k)
    ∧ (∃ (s : State) (req : Requester) (tag : Byte) (arg : BitVec 16) (k : Nat), s.link.slots.length = 32 ∧ DoorOpen s req 34
      (doorWord tag 17 arg) ∧ slotOfTicket s arg.toNat = some k ∧ (outAt s k).state ≠ Sl.active ∧ (outAt s k).id ≠
      s.doors.nextId)
    ∧ (∃ (s : State), s.link.slots.length = 32 ∧ linkActive s = true ∧ radioMode s = 1 ∧ s.link.boundaryNow + ↑(slotPeriod s) ≤
      ↑s.now ∧ attemptAllowed s = false)
    ∧ (∃ (s : State) (k : Nat) (bytes : List Byte), s.link.slots.length = 32 ∧ linkActive s = true ∧ radioMode s = 1 ∧
      s.link.boundaryNow + ↑(slotPeriod s) ≤ ↑s.now ∧ ((oldestSlot s fun o ↦ o.state == Sl.queued) = some k) ∧ attemptAllowed s
      = true ∧ s.link.markWait = none ∧ (outAt s k).sealed = some bytes ∧ synthState s ≠ Sy.failed ∧ configOk (liveConfig s)
      (outAt s k).channel = true ∧ (regulatory (latchConfig s) (newTx (TxKind.slot k) (outAt s k).channel bytes (packetAirtime
      (liveConfig s) bytes.length) (outAt s k).pri)).fst = 0)
    ∧ (∃ (s : State) (w : AckAwait), s.link.slots.length = 32 ∧ domainOn s 7 = true ∧ s.link.await = some w ∧ passedMs s w.since
      (regBits s Reg.vlqTiming 23 16) = true)
    ∧ (∃ (s : State) (k : Fin 32), s.link.slots.length = 32 ∧ domainOn s 7 = true ∧ (outAt s ↑k).state = Sl.backoff ∧ passedMs s
      (outAt s ↑k).failedNow ((outAt s ↑k).attempts * leField (outAt s ↑k).desc 8 2) = true)
    ∧ (∃ (s : State) (k : Fin 32), s.link.slots.length = 32 ∧ domainOn s 7 = true ∧ (outAt s ↑k).hold = true ∧ (outAt s ↑k).live
      = true ∧ s.link.await = none ∧ passedMs s (outAt s ↑k).acceptedNow (1000 * leField (outAt s ↑k).desc 10 2) = true)
    ∧ (∃ (s : State) (f : CapturedFrame) (rest : List CapturedFrame), domainOn s 7 = true ∧ s.link.inbox = f :: rest ∧
      valveFrameGood f.bytes = false)
    ∧ (∃ (s : State) (f : CapturedFrame) (rest : List CapturedFrame), domainOn s 7 = true ∧ s.link.inbox = f :: rest ∧
      valveFrameGood f.bytes = true ∧ beNat (List.take 2 (List.drop 2 f.bytes)) ≠ hubAddr s)
    ∧ (∃ (s : State) (a : AckDue) (rest : List AckDue), domainOn s 7 = true ∧ s.link.acks = a :: rest ∧ a.dueUs + 2000 < vlrUs
      s)
    ∧ (∃ (s : State) (band : Fin 8), live s = true ∧ (mono s + 2 ^ 32 - mramWord s (bucketStartAddr ↑band)) % 2 ^ 32 < 60)
    ∧ (∃ (s : State) (band : Fin 8), live s = true ∧ 60 ≤ (mono s + 2 ^ 32 - mramWord s (bucketStartAddr ↑band)) % 2 ^ 32) := by
  refine ⟨⟨linkOn (withMortar 0xFFF00 sendDesc), .host, 9, 0xFFF0, 0, ?_, ?_, ?_, ?_, ?_, ?_, ?_, ?_⟩,
    ⟨withSlot 31 (outSlot Sl.queued) (runningDoor 0x22), .host, 9, 5, 31, ?_, ?_, ?_, ?_, ?_⟩,
    ⟨long (linkOn (radioAt Ra.capture Sy.locked)), ?_, ?_, ?_, ?_, ?_⟩,
    ⟨long (withSlot 31 (outSlot Sl.queued) (linkOn (radioAt Ra.listen Sy.locked))), 31, [1,2,3], ?_, ?_, ?_, ?_, ?_, ?_, ?_, ?_,
      ?_, ?_, ?_⟩,
    ⟨long (setLink { run.link with await := some { slot := 31, node := 511, seq := 3, since := 0 } } run),
      { slot := 31, node := 511, seq := 3, since := 0 }, ?_, ?_, ?_, ?_⟩,
    ⟨long (withSlot 31 (outSlot Sl.backoff)), 31, ?_, ?_, ?_, ?_⟩,
    ⟨long (withSlot 31 ({ outSlot Sl.waitNode with desc := sendDesc.set 4 2 }) (runningDoor 0x22)), 31, ?_, ?_, ?_, ?_, ?_, ?_⟩,
    ⟨setLink { run.link with inbox := [captured [1,2]] } run, captured [1,2], [], ?_, ?_, ?_⟩,
    ⟨setLink { run.link with inbox := [captured goodFrame] } run, captured goodFrame, [], ?_, ?_, ?_, ?_⟩,
    ⟨setLink { run.link with acks := [lateAck] } { run with now := 13560000 }, lateAck, [], ?_, ?_, ?_⟩,
    ⟨run, 7, ?_, ?_⟩,
    ⟨({ run with now := 13560000 * 60 }), 7, ?_, ?_⟩⟩ <;>
    first | decide +kernel | (constructor <;> decide +kernel)

theorem witness_MasonDoorCommands :
    (∃ (s : State) (req : Requester) (tag : Byte), s.masons.length = 5 ∧ DoorOpen s req 44 (doorWord tag 16 0) ∧ (masonAt s
      4).state = MasonState.halted)
    ∧ (∃ (s : State) (req : Requester) (tag : Byte), s.masons.length = 5 ∧ DoorOpen s req 44 (doorWord tag 16 0) ∧ ((masonAt s
      4).state = MasonState.loading ∨ (masonAt s 4).state = MasonState.reset))
    ∧ (∃ (s : State) (req : Requester) (tag : Byte), s.masons.length = 5 ∧ DoorOpen s req 44 (doorWord tag 16 0) ∧ ((masonAt s
      4).state = MasonState.loading ∨ (masonAt s 4).state = MasonState.reset))
    ∧ (∃ (s : State) (req : Requester) (tag : Byte), s.masons.length = 5 ∧ (masonAt s 4).state = MasonState.halted ∧ (masonAt s
      4).repHeld = false ∧ DoorOpen s req 44 (doorWord tag 17 0))
    ∧ (∃ (s : State) (req : Requester) (tag : Byte) (n : BitVec 16), s.masons.length = 5 ∧ (masonAt s 4).state =
      MasonState.halted ∧ (masonAt s 4).repHeld = false ∧ n ≠ 0#16 ∧ DoorOpen s req 44 (doorWord tag 18 n))
    ∧ (∃ (s : State) (req : Requester) (tag : Byte), s.masons.length = 5 ∧ DoorOpen s req 44 (doorWord tag 19 0))
    ∧ (∃ (s : State) (req : Requester) (tag : Byte), s.masons.length = 5 ∧ DoorOpen s req 44 (doorWord tag 19 0))
    ∧ (∃ (s : State) (m : Fin 5), s.masons.length = 5 ∧ m ≠ 4 ∧ (masonAt s m).state = MasonState.loading ∧ domainOn s
      (masonDomain m) = true ∧ (masonAt s m).haltIds = [])
    ∧ (∃ (s : State) (m : Fin 5) (w : Nat), s.masons.length = 5 ∧ m ≠ 4 ∧ (masonAt s m).state = MasonState.loading ∧ domainOn s
      (masonDomain m) = true ∧ firmwareBad s = some w) := by
  refine ⟨⟨mason4In .halted, .host, 7, ?_, ?_, ?_⟩,
    ⟨mason4In .loading, .host, 7, ?_, ?_, ?_⟩,
    ⟨mason4In .reset, .host, 7, ?_, ?_, ?_⟩,
    ⟨mason4In .halted, .host, 7, ?_, ?_, ?_, ?_⟩,
    ⟨mason4In .halted, .host, 7, 0xFFFF, ?_, ?_, ?_, ?_, ?_⟩,
    ⟨mason4In .halted, .host, 7, ?_, ?_⟩,
    ⟨mason4In .running, .host, 7, ?_, ?_⟩,
    ⟨mason3Loading, 3, ?_, ?_, ?_, ?_, ?_⟩,
    ⟨setMem { mason3Loading.mem with mramPoison := [0] } mason3Loading, 3, 0, ?_, ?_, ?_, ?_, ?_⟩⟩ <;>
    first | decide +kernel | (constructor <;> decide +kernel)

theorem witness_ClocksAndBalls :
    (∃ (s : State) (island : Fin 8) (locked : Bool), live s = true ∧ islandPowered s ↑island = true ∧ s.clocks.islands.getLsbD
      ↑island = !locked ∧ (locked = true → s.txn.held = []))
    ∧ (∃ (s : State) (island : Fin 8) (locked : Bool), live s = true ∧ islandPowered s ↑island = true ∧ s.clocks.islands.getLsbD
      ↑island = !locked ∧ (locked = true → s.txn.held = []))
    ∧ (∃ (s : State) (failed : Bool), live s = true ∧ s.rtc.lfOk = failed)
    ∧ (∃ (s : State) (failed : Bool), live s = true ∧ s.rtc.lfOk = failed)
    ∧ (∃ (s : State), live s = true ∧ s.clocks.plumb = PlumbState.acquiring ∧ plumbPeriods s 64 = true)
    ∧ (∃ (s : State), live s = true ∧ s.clocks.plumb = PlumbState.locked ∧ plumbPeriods s 8 = true)
    ∧ (∃ (s : State), live s = true ∧ plumbDouble s = true ∧ (s.clocks.plumb = PlumbState.acquiring ∨ s.clocks.plumb =
      PlumbState.locked))
    ∧ (∃ (s : State), live s = true ∧ s.clocks.plumb = PlumbState.noRef ∧ plumbPeriods s 16 = true)
    ∧ (∃ (s : State), live s = true ∧ s.rtc.lfOk = true ∧ passedMs s s.rtc.trimAt 16000 = true)
    ∧ (∃ (s : State) (req : Requester) (tag : Byte), live s = true ∧ DoorOpen s req 5 (doorWord tag 16 0))
    ∧ (∃ (s : State), live s = true ∧ regBit s Reg.clkRtcCtrl 31 = true ∧ s.rtc.alarmFired = false ∧ alarmPassed s = true)
    ∧ (∃ (s : State), live s = true ∧ regBit s Reg.clkRtcCtrl 31 = true ∧ s.rtc.alarmFired = false ∧ alarmPassed s = false)
    ∧ (∃ (s : State) (ball : Fin 12) (level : Bool), domainOn s 9 = true ∧ regBit s Reg.gioIn ↑ball = !level ∧ gioDriven s ↑ball
      ≠ some !level)
    ∧ (∃ (s : State) (ball : Fin 12) (level : Bool), domainOn s 9 = true ∧ regBit s Reg.gioIn ↑ball = !level ∧ gioDriven s ↑ball
      ≠ some !level)
    ∧ (∃ (s : State) (ball : Fin 12) (level : Bool), domainOn s 9 = true ∧ gioDriven s ↑ball = some !level)
    ∧ (∃ (s : State) (ball : Fin 12) (level : Bool), domainOn s 9 = true ∧ regBit s Reg.gioIn ↑ball = !level ∧ gioDriven s ↑ball
      ≠ some !level)
    ∧ (∃ (s : State), live s = true ∧ s.rtc.alarmFired = true) := by
  refine ⟨⟨run, 1, false, ?_, ?_, ?_, ?_⟩,
    ⟨setClocks { run.clocks with islands := 0x7F#8 } run, 7, true, ?_, ?_, ?_, ?_⟩,
    ⟨run, true, ?_, ?_⟩,
    ⟨{ run with rtc := { run.rtc with lfOk := false } }, false, ?_, ?_⟩,
    ⟨long (withClocks (fun c => { c with plumb := .acquiring })), ?_, ?_, ?_⟩,
    ⟨long (withClocks (fun c => { c with plumb := .locked })), ?_, ?_, ?_⟩,
    ⟨setReg Reg.clkPlumb 2 (withClocks (fun c => { c with plumb := .locked })), ?_, ?_, ?_⟩,
    ⟨long (withClocks (fun c => { c with plumb := .noRef })), ?_, ?_, ?_⟩,
    ⟨long run, ?_, ?_, ?_⟩,
    ⟨setReg Reg.clkRtcSetSec 0xFFFFFFFF (setReg Reg.clkRtcSetSub 32767 run), .host, 8, ?_, ?_⟩,
    ⟨setRegBits Reg.clkRtcCtrl 31 31 1 run, ?_, ?_, ?_, ?_⟩,
    ⟨setReg Reg.clkAlarmSec 8 (setRegBits Reg.clkRtcCtrl 31 31 1 run), ?_, ?_, ?_, ?_⟩,
    ⟨setReg 0x301B 0x04000000 run, 11, true, ?_, ?_, ?_⟩,
    ⟨run, 11, true, ?_, ?_, ?_⟩,
    ⟨setReg 0x301B 1 run, 11, true, ?_, ?_⟩,
    ⟨setReg 0x301B 0x100 run, 11, true, ?_, ?_, ?_⟩,
    ⟨{ run with rtc := { run.rtc with alarmFired := true } }, ?_, ?_⟩⟩ <;>
    first | decide +kernel | (constructor <;> decide +kernel)

theorem witness_PowerCommands :
    (∃ (s : State) (req : Requester) (tag : Byte) (arg : BitVec 16) (d : Nat), inRecovery s = false ∧ domainArgBad arg.toNat =
      false ∧ s.power.jobs = [] ∧ s.power.starting = 0#10 ∧ s.power.draining = 0#10 ∧ DoorOpen s req 6 (doorWord tag 16 arg) ∧
      nextOn s (BitVec.ofNat 10 arg.toNat) = some d)
    ∧ (∃ (s : State) (req : Requester) (tag : Byte) (arg : BitVec 16), inRecovery s = false ∧ domainArgBad arg.toNat = false ∧
      s.power.jobs = [] ∧ s.power.starting = 0#10 ∧ s.power.draining = 0#10 ∧ DoorOpen s req 6 (doorWord tag 16 arg) ∧ nextOn s
      (BitVec.ofNat 10 arg.toNat) = none)
    ∧ (∃ (s : State) (req : Requester) (tag : Byte) (arg : BitVec 16), inRecovery s = false ∧ domainArgBad arg.toNat = false ∧
      s.power.jobs = [] ∧ s.power.starting = 0#10 ∧ s.power.draining = 0#10 ∧ DoorOpen s req 6 (doorWord tag 17 arg) ∧
      BitVec.ofNat 10 arg.toNat &&& s.power.on = 0#10)
    ∧ (∃ (s : State) (req : Requester) (tag : Byte) (arg : BitVec 16), inRecovery s = false ∧ domainArgBad arg.toNat = false ∧
      s.power.jobs = [] ∧ s.power.starting = 0#10 ∧ s.power.draining = 0#10 ∧ DoorOpen s req 6 (doorWord tag 17 arg) ∧ arg =
      256#16 ∧ s.power.on.getLsbD 8 = true ∧ dependentOn s 256#10 = false)
    ∧ (∃ (s : State) (d : Fin 10), live s = true ∧ s.power.starting.getLsbD ↑d = true ∧ masonLoaded (↑d) s = true ∧ (d = 8 →
      s.mem.bank1Busy = false) ∧ (d = 3 → plumbSettled s = true) ∧ s.power.jobs = [] ∧ s.bootUnit.image = 2 ∧ s.txn.held = [] ∧
      s.power.startedAt + readyTicks ↑d ≤ s.now)
    ∧ (∃ (s : State) (d : Fin 10), live s = true ∧ s.power.starting.getLsbD ↑d = true ∧ masonLoaded (↑d) s = true ∧ (d = 8 →
      s.mem.bank1Busy = false) ∧ (d = 3 → plumbSettled s = true) ∧ s.power.jobs = [] ∧ s.bootUnit.image = 2 ∧ s.txn.held = [] ∧
      s.power.startedAt + readyTicks ↑d ≤ s.now)
    ∧ (∃ (s : State) (d : Nat), live s = true ∧ drainingDomain s = some d ∧ inFlight d s = false ∧ s.power.jobs = [])
    ∧ (∃ (s : State) (d : Nat), live s = true ∧ drainingDomain s = some d ∧ d = 3 ∧ Machine.fieldState s = Fs.rampDown ∧
      passedUs s s.power.drainAt (regBits s Reg.pwrDrainLimit 9 0) = true)
    ∧ (∃ (s : State), live s = true ∧ s.txn.held = [] ∧ s.mem.waits = [])
    ∧ (∃ (s : State) (e : BankWait), live s = true ∧ s.txn.held = [] ∧ s.mem.waits = [e] ∧ e.who = none ∧ inBank1 e.addr =
      false)
    ∧ (∃ (s : State), live s = true ∧ s.txn.held = [] ∧ s.mem.waits = [] ∧ (s.power.on.getLsbD 8 = true ∨
      s.power.starting.getLsbD 8 = true)) := by
  refine ⟨⟨lowPower, .host, 7, 0x100, 8, ?_, ?_, ?_, ?_, ?_, ?_, ?_⟩,
    ⟨run, .host, 7, 0x100, ?_, ?_, ?_, ?_, ?_, ?_, ?_⟩,
    ⟨lowPower, .host, 7, 0x100, ?_, ?_, ?_, ?_, ?_, ?_, ?_⟩,
    ⟨withPower (fun p => { p with on := 0x103#10, req := 0x103#10 }), .host, 7, 0x100, ?_, ?_, ?_, ?_, ?_, ?_, ?_, ?_, ?_⟩,
    ⟨long (setBoot { run.bootUnit with image := 2 } (withPower (fun p => { p with on := 3#10, starting := 0x100#10 }))), 8, ?_,
      ?_, ?_, ?_, ?_, ?_, ?_, ?_, ?_⟩,
    ⟨long (setBoot { run.bootUnit with image := 2 } (withPower (fun p => { p with on := 3#10, starting := 0x200#10 }))), 9, ?_,
      ?_, ?_, ?_, ?_, ?_, ?_, ?_, ?_⟩,
    ⟨withPower (fun p => { p with draining := 0x100#10 }), 8, ?_, ?_, ?_, ?_⟩,
    ⟨long (setRegBits Reg.fldPatStatus 31 28 Fs.rampDown (withPower (fun p => { p with draining := 0x8#10 }))), 3, ?_, ?_, ?_,
      ?_, ?_⟩,
    ⟨run, ?_, ?_, ?_⟩,
    ⟨setMem { run.mem with waits := [waitingWrite] } run, waitingWrite, ?_, ?_, ?_, ?_, ?_⟩,
    ⟨run, ?_, ?_, ?_, ?_⟩⟩ <;>
    first | decide +kernel | (constructor <;> decide +kernel)

theorem witness_StopAndWake :
    (∃ (s : State) (req : Requester) (tag : Byte), DoorOpen s req 6 (doorWord tag 32 0) ∧ regBits s Reg.pwrWakeEn 3 0 ≠ 0 ∧
      s.rtc.lfOk = true ∧ inRecovery s = false ∧ s.power.stopIds = [])
    ∧ (∃ (s : State) (req : Requester) (tag : Byte), DoorOpen s req 6 (doorWord tag 32 0) ∧ regBits s Reg.pwrWakeEn 3 0 ≠ 0 ∧
      s.rtc.lfOk = true ∧ inRecovery s = false ∧ s.power.stopIds ≠ [])
    ∧ (∃ (s : State), s.phase = Phase.stopEntry 3 ∧ wakeSources false false s = 0#4)
    ∧ (∃ (s : State) (n : Nat) (samples : BitVec 2) (hsel : Bool), s.phase = Phase.stopEntry n ∧ wakeSources (wakeBall samples
      s) (hsel && n == 3) s ≠ 0#4 ∧ (List.filter (fun j ↦ j.mask != 0#10) s.power.jobs = []))
    ∧ (∃ (s : State) (samples : BitVec 2) (hsel : Bool), s.phase = Phase.stopped ∧ wakeSources (wakeBall samples s) hsel s ≠
      0#4) := by
  refine ⟨⟨setReg Reg.pwrWakeEn 0xF run, .host, 7, ?_, ?_, ?_, ?_, ?_⟩,
    ⟨withPower (fun p => { p with stopIds := [3] }) (setReg Reg.pwrWakeEn 0xF { run with phase := .stopEntry 1 }), .host, 7, ?_,
      ?_, ?_, ?_, ?_⟩,
    ⟨({ lowPower with phase := .stopEntry 3 }), ?_, ?_⟩,
    ⟨setReg Reg.pwrWakeEn 0xF { lowPower with phase := .stopEntry 3 }, 3, 3, true, ?_, ?_, ?_⟩,
    ⟨setReg Reg.pwrWakeEn 0xF { lowPower with phase := .stopped }, 2, true, ?_, ?_⟩⟩ <;>
    first | decide +kernel | (constructor <;> decide +kernel)

theorem witness_BootAndIdentity :
    (∃ (s : State) (boot0 : Bool) (flash : List Byte), s.phase = Phase.inReset ∧ mramRangePoison s 897024 4 = false ∧ (boot0 =
      true ∧ s.bootUnit.cause ≤ 3 ∨ mramWord s 897024 % 4 = 3) ∧ packageGood flash = false)
    ∧ (∃ (s : State) (boot0 : Bool) (flash : List Byte), s.phase = Phase.inReset ∧ mramRangePoison s 897024 4 = false ∧ (boot0 =
      true ∧ s.bootUnit.cause ≤ 3 ∨ mramWord s 897024 % 4 = 3) ∧ packageGood flash = true ∧ s.masons.length = 5)
    ∧ (∃ (s : State), s.phase = Phase.inReset ∧ mramRangePoison s 897024 4 = false ∧ mramWord s 897024 % 4 < 3)
    ∧ (∃ (s : State), s.phase = Phase.inReset ∧ mramRangePoison s 897024 4 = false ∧ mramWord s 897024 % 4 < 3 ∧ bootImagePoison
      s = false ∧ leNat (mramBytes s bootImageAt 4) = 0)
    ∧ (∃ (s : State), s.phase = Phase.inReset ∧ mramRangePoison s 897024 4 = false ∧ mramWord s 897024 % 4 < 3)
    ∧ (∃ (s : State) (boot0 : Bool) (flash : List Byte), s.phase = Phase.inReset ∧ mramRangePoison s 897024 4 = false ∧ (boot0 =
      true ∧ s.bootUnit.cause ≤ 3 ∨ mramWord s 897024 % 4 = 3) ∧ packageGood flash = false)
    ∧ (∃ (s : State), live s = true ∧ s.boot = BootState.recovery ∧ s.bootUnit.recovery = 0)
    ∧ (∃ (s : State), s.bootUnit.idGen = true ∧ domainOn s 2 = true ∧ s.bootUnit.startDoneIds = [] ∧ s.power.req.getLsbD 2 =
      true ∧ s.power.jobs = [] ∧ s.ident.rngOk = true)
    ∧ (∃ (s : State), s.bootUnit.idGen = true ∧ domainOn s 2 = true ∧ s.bootUnit.startDoneIds = [] ∧ s.power.req.getLsbD 2 =
      true ∧ s.power.jobs = []) := by
  refine ⟨⟨bootReset, true, [], ?_, ?_, ?_, ?_⟩,
    ⟨bootReset, true, package, ?_, ?_, ?_, ?_, ?_⟩,
    ⟨bootReset, ?_, ?_, ?_⟩,
    ⟨bootReset, ?_, ?_, ?_, ?_, ?_⟩,
    ⟨mramRewrite 0x0DB000 [2] bootReset, ?_, ?_, ?_⟩,
    ⟨mramRewrite 0x0DB000 [3] bootReset, false, [], ?_, ?_, ?_, ?_⟩,
    ⟨{ run with boot := .recovery, bootUnit := { run.bootUnit with recovery := 0 } }, ?_, ?_, ?_⟩,
    ⟨generating true, ?_, ?_, ?_, ?_, ?_, ?_⟩,
    ⟨generating false, ?_, ?_, ?_, ?_, ?_⟩⟩ <;>
    decide +kernel

theorem witness_IntegrityCommands :
    (∃ (s : State), live s = true ∧ mramDue s = true ∧ s.mem.mramPoison.contains s.mem.scrubMram = false ∧ s.mem.scrubMram + 1 <
      bankWords)
    ∧ (∃ (s : State), live s = true)
    ∧ (∃ (s : State) (vsup : Byte), live s = true ∧ BitVec.toNat vsup < 120 ∧ s.power.supplyLow = false)
    ∧ (∃ (s : State), live s = true ∧ regBit s Reg.itgCtrl 31 = true ∧ s.work.telemTick ≠ telemTick s)
    ∧ (∃ (s : State), live s = true ∧ regBit s Reg.itgCtrl 31 = false)
    ∧ (∃ (s : State) (sensors : List Int), live s = true ∧ (overhot (setTemps sensors s)).isSome = true ∧ s.nfc.run = none)
    ∧ (∃ (s : State) (req : Requester) (tag : Byte), openAllowed s = true ∧ targetOff s = false ∧ DoorOpen s req 13 (doorWord
      tag 16 1) ∧ s.mem.symErr = [] ∧ isPoison s (targetWord s) = false)
    ∧ (∃ (s : State) (req : Requester) (tag : Byte), openAllowed s = true ∧ targetOff s = false ∧ DoorOpen s req 13 (doorWord
      tag 17 0))
    ∧ (∃ (s : State) (req : Requester) (tag : Byte), DoorOpen s req 13 (doorWord tag 18 0)) := by
  refine ⟨⟨run, ?_, ?_, ?_, ?_⟩,
    ⟨run, ?_⟩,
    ⟨run, 119, ?_, ?_, ?_⟩,
    ⟨long (setRegBits Reg.itgCtrl 31 31 1 run), ?_, ?_, ?_⟩,
    ⟨setReg Reg.itgCtrl 0 run, ?_, ?_⟩,
    ⟨hotSince, [130, 20, 20, 20, 20, 20], ?_, ?_, ?_⟩,
    ⟨inStartUp, .host, 7, ?_, ?_, ?_, ?_, ?_⟩,
    ⟨inStartUp, .host, 7, ?_, ?_, ?_⟩,
    ⟨inStartUp, .host, 7, ?_⟩⟩ <;>
    first | decide +kernel | (constructor <;> decide +kernel)

theorem witness_TwinPairing :
    (∃ (s : State) (wire : LinkFrame) (peer : PeerHello), lintelHeeds s wire = true ∧ frameWhole wire = true ∧ twinLive s = true
      ∧ twinState s = Tw.detached ∧ helloRefusal s peer = none)
    ∧ (∃ (s : State) (wire : LinkFrame) (peer : PeerHello) (reason : Nat), lintelHeeds s wire = true ∧ frameWhole wire = true ∧
      twinLive s = true ∧ twinState s = Tw.detached ∧ helloRefusal s peer = some reason)
    ∧ (∃ (s : State) (wire : LinkFrame) (peer : PeerIdent), lintelHeeds s wire = true ∧ frameWhole wire = true ∧ twinLive s =
      true ∧ twinState s = Tw.authenticating ∧ s.twin.step = 1 ∧ peer.certGood = false)
    ∧ (∃ (s : State) (wire : LinkFrame) (peer : PeerIdent), lintelHeeds s wire = true ∧ frameWhole wire = true ∧ twinLive s =
      true ∧ twinState s = Tw.authenticating ∧ s.twin.step = 1 ∧ peer.certGood = true ∧ peer.autoPair = false)
    ∧ (∃ (s : State) (wire : LinkFrame) (peer : PeerIdent), lintelHeeds s wire = true ∧ frameWhole wire = true ∧ twinLive s =
      true ∧ twinState s = Tw.authenticating ∧ s.twin.step = 1 ∧ peer.certGood = true ∧ peer.autoPair = false)
    ∧ (∃ (s : State) (wire : LinkFrame), lintelHeeds s wire = true ∧ frameWhole wire = true ∧ twinLive s = true ∧ (s.twin.step =
      2 ∨ s.twin.step = 3) ∧ isPaired s = false)
    ∧ (∃ (s : State), twinState s = Tw.awaitConfirm ∧ domainOn s 9 = true ∧ s.twin.confirmUntil ≤ s.now)
    ∧ (∃ (s : State) (req : Requester) (tag : Byte), twinState s = Tw.awaitConfirm ∧ DoorOpen s req 14 (doorWord tag 16 0))
    ∧ (∃ (s : State) (req : Requester) (tag : Byte), DoorOpen s req 14 (doorWord tag 17 0) ∧ isPaired s = true ∧ twinRole s = 2)
    ∧ (∃ (s : State) (req : Requester) (tag : Byte), DoorOpen s req 14 (doorWord tag 17 0) ∧ isPaired s = false)
    ∧ (∃ (s : State) (req : Requester) (tag : Byte), DoorOpen s req 14 (doorWord tag 18 0) ∧ twinState s = Tw.steppedDown ∧
      s.twin.unsynced = false ∧ twinEn s = true ∧ s.fld.load = none)
    ∧ (∃ (s : State) (req : Requester) (tag : Byte) (arg : BitVec 16), DoorOpen s req 14 (doorWord tag 32 arg) ∧ s.boot =
      BootState.startUp ∧ s.mem.symErr = [] ∧ destBad s (16 * arg.toNat) 64 = false) := by
  refine ⟨⟨twinAt Tw.detached 0, wireOf 0x80, hello (getReg run Reg.devSiliconRev), ?_, ?_, ?_, ?_, ?_⟩,
    ⟨twinAt Tw.detached 0, wireOf 0x80, hello 0xFFFFFFFF, 5, ?_, ?_, ?_, ?_, ?_⟩,
    ⟨twinAt Tw.authenticating 0 (fun t => { t with step := 1, becoming := 1 }), wireOf 0x80, identOf false, ?_, ?_, ?_, ?_, ?_,
      ?_⟩,
    ⟨twinAt Tw.authenticating 0 (fun t => { t with step := 1, becoming := 1 }), wireOf 0x80, identOf true, ?_, ?_, ?_, ?_, ?_,
      ?_, ?_⟩,
    ⟨twinAt Tw.authenticating 0 (fun t => { t with step := 1, becoming := 2 }), wireOf 0x80, identOf true, ?_, ?_, ?_, ?_, ?_,
      ?_, ?_⟩,
    ⟨twinAt Tw.authenticating 0 (fun t => { t with step := 3, becoming := 2 }), wireOf 0x80, ?_, ?_, ?_, ?_, ?_⟩,
    ⟨twinAt Tw.awaitConfirm 1, ?_, ?_, ?_⟩,
    ⟨twinAt Tw.awaitConfirm 1, .host, 8, ?_, ?_⟩,
    ⟨twinAt Tw.paired 2, .host, 8, ?_, ?_, ?_⟩,
    ⟨twinAt Tw.detached 0, .host, 8, ?_, ?_⟩,
    ⟨twinAt Tw.steppedDown 2 (fun t => { t with steppedDown := true }), .host, 8, ?_, ?_, ?_, ?_, ?_⟩,
    ⟨{ twinAt Tw.detached 0 with boot := .startUp }, .host, 8, 0xFFF0, ?_, ?_, ?_, ?_⟩⟩ <;>
    first | decide +kernel | (constructor <;> decide +kernel)

theorem witness_TwinMessages :
    (∃ (s : State) (wire : LinkFrame) (counter : Nat) (good : Bool), twinLive s = true ∧ isPaired s = true ∧ lintelHeeds s wire
      = true ∧ frameWhole wire = true ∧ (good = false ∨ counter < s.twin.inCtr))
    ∧ (∃ (s : State) (wire : LinkFrame) (counter : Nat) (good : Bool), twinLive s = true ∧ isPaired s = true ∧ lintelHeeds s
      wire = true ∧ frameWhole wire = true ∧ (good = false ∨ counter < s.twin.inCtr))
    ∧ (∃ (s : State) (wire : LinkFrame) (counter : Nat), twinLive s = true ∧ isPaired s = true ∧ lintelHeeds s wire = true ∧
      frameWhole wire = true ∧ canOpen s = true ∧ s.twin.inCtr < counter ∧ s.twin.held = [])
    ∧ (∃ (s : State) (wire : LinkFrame) (counter : Nat), twinLive s = true ∧ isPaired s = true ∧ lintelHeeds s wire = true ∧
      frameWhole wire = true ∧ canOpen s = true ∧ counter = s.twin.inCtr ∧ s.twin.held = [] ∧ activeSecondary s = true)
    ∧ (∃ (s : State) (wire : LinkFrame) (counter : Nat), twinLive s = true ∧ isPaired s = true ∧ lintelHeeds s wire = true ∧
      frameWhole wire = true ∧ canOpen s = true ∧ counter = s.twin.inCtr ∧ s.twin.held = [] ∧ activeSecondary s = true ∧ pageUp
      s 34 = true ∧ s.link.slots.length = 32)
    ∧ (∃ (s : State) (wire : LinkFrame) (counter : Nat), twinLive s = true ∧ isPaired s = true ∧ lintelHeeds s wire = true ∧
      frameWhole wire = true ∧ canOpen s = true ∧ counter = s.twin.inCtr ∧ s.twin.held = [] ∧ activeSecondary s = true ∧ pageUp
      s 21 = true ∧ queueFree s Reg.invQPop ≠ 0)
    ∧ (∃ (s : State) (wire : LinkFrame) (counter : Nat), twinLive s = true ∧ isPaired s = true ∧ lintelHeeds s wire = true ∧
      frameWhole wire = true ∧ canOpen s = true ∧ counter = s.twin.inCtr ∧ s.twin.held = [] ∧ activeSecondary s = false)
    ∧ (∃ (s : State) (wire : LinkFrame) (counter : Nat), twinLive s = true ∧ isPaired s = true ∧ lintelHeeds s wire = true ∧
      frameWhole wire = true ∧ canOpen s = true ∧ counter = s.twin.inCtr ∧ s.twin.held = [] ∧ twinRole s = 1 ∧ s.twin.bulkCtr =
      none ∧ s.twin.bulkDue = false ∧ s.link.acks = [] ∧ s.link.markWait = none)
    ∧ (∃ (s : State) (wire : LinkFrame) (counter : Nat), twinLive s = true ∧ isPaired s = true ∧ lintelHeeds s wire = true ∧
      frameWhole wire = true ∧ canOpen s = true ∧ counter = s.twin.inCtr ∧ s.twin.held = [] ∧ twinRole s = 2)
    ∧ (∃ (s : State), twinLive s = true ∧ isPaired s = true ∧ passedMs s s.twin.beatNow 1 = true ∧ regBits s Reg.twnStatus 7 0 <
      19)
    ∧ (∃ (s : State), twinLive s = true ∧ isPaired s = true ∧ passedMs s s.twin.beatNow 1 = true ∧ regBits s Reg.twnStatus 7 0 =
      19 ∧ (twinRole s = 1 ∨ regBit s Reg.twnStatus 25 = false))
    ∧ (∃ (s : State), twinLive s = true ∧ isPaired s = true ∧ passedMs s s.twin.beatNow 1 = true ∧ regBits s Reg.twnStatus 7 0 =
      19 ∧ (twinRole s = 1 ∨ regBit s Reg.twnStatus 25 = false))
    ∧ (∃ (s : State) (counter : Nat) (m : TwinMsg), twinLive s = true ∧ isPaired s = true ∧ (List.find? (fun m ↦ m.counter ==
      counter) s.twin.out = some m) ∧ resendDue s m = true)
    ∧ (∃ (s : State), twinLive s = true ∧ isPaired s = true ∧ regBits s Reg.twnPortCtrl 30 29 ≠ 1 ∧ s.twin.queue = [])
    ∧ (∃ (s : State) (ready : Bool), twinLive s = true ∧ isPaired s = true ∧ (¬regBits s Reg.twnPortCtrl 30 29 ≠ 1) ∧ ready =
      false)
    ∧ (∃ (s : State) (ready : Bool) (m : TwinMsg) (rest : List TwinMsg), twinLive s = true ∧ isPaired s = true ∧ s.twin.queue =
      m :: rest ∧ (regBits s Reg.twnPortCtrl 30 29 ≠ 1 ∨ ready = true))
    ∧ (∃ (s : State) (ready : Bool) (m : TwinMsg) (rest : List TwinMsg), twinLive s = true ∧ isPaired s = true ∧ s.twin.queue =
      m :: rest ∧ (regBits s Reg.twnPortCtrl 30 29 ≠ 1 ∨ ready = true)) := by
  refine ⟨⟨paired 2, wireOf 0x80, 5, false, ?_, ?_, ?_, ?_, ?_⟩,
    ⟨paired 2, wireOf 0x80, 4, true, ?_, ?_, ?_, ?_, ?_⟩,
    ⟨paired 2, wireOf 0x80, 6, ?_, ?_, ?_, ?_, ?_, ?_, ?_⟩,
    ⟨paired 2, wireOf 0x80, 5, ?_, ?_, ?_, ?_, ?_, ?_, ?_, ?_⟩,
    ⟨paired 2, wireOf 0x80, 5, ?_, ?_, ?_, ?_, ?_, ?_, ?_, ?_, ?_, ?_⟩,
    ⟨paired 2, wireOf 0x80, 5, ?_, ?_, ?_, ?_, ?_, ?_, ?_, ?_, ?_, ?_⟩,
    ⟨paired 1, wireOf 0x80, 5, ?_, ?_, ?_, ?_, ?_, ?_, ?_, ?_⟩,
    ⟨twoSent, wireOf 0x80, 5, ?_, ?_, ?_, ?_, ?_, ?_, ?_, ?_, ?_, ?_, ?_, ?_⟩,
    ⟨paired 2, wireOf 0x80, 5, ?_, ?_, ?_, ?_, ?_, ?_, ?_, ?_⟩,
    ⟨long (setRegBits Reg.twnStatus 7 0 18 (paired 2)), ?_, ?_, ?_, ?_⟩,
    ⟨long (setRegBits Reg.twnStatus 7 0 19 (paired 1)), ?_, ?_, ?_, ?_, ?_⟩,
    ⟨long (setRegBits Reg.twnStatus 7 0 19 (paired 2)), ?_, ?_, ?_, ?_, ?_⟩,
    ⟨long (paired 1 (fun t => { t with out := [{ sentMsg 5 with sentAt := some 0 }] })), 5, { sentMsg 5 with sentAt := some 0 },
      ?_, ?_, ?_, ?_⟩,
    ⟨atLintel 2 [], ?_, ?_, ?_, ?_⟩,
    ⟨atLintel 1 [], false, ?_, ?_, ?_, ?_⟩,
    ⟨atLintel 1 [sentMsg 5], true, sentMsg 5, [], ?_, ?_, ?_, ?_⟩,
    ⟨atLintel 2 [sentMsg 5], false, sentMsg 5, [], ?_, ?_, ?_, ?_⟩⟩ <;>
    decide +kernel

theorem witness_Cascade :
    (∃ (s : State) (wire : LinkFrame) (p : Fin 4), isHead s = true ∧ p ≠ 0 ∧ frameWhole wire = true ∧ cascFits true (some ↑p)
      wire = true ∧ wire.ready = true ∧ s.clocks.plumb = PlumbState.locked ∧ regBit s Reg.cscStatus (23 + ↑p) = false ∧ sinceMs
      s (s.cascade.probedAt.getD (↑p) none) 100 = true)
    ∧ (∃ (s : State) (wire : LinkFrame) (p : Fin 4) (l : CascLoad) (a : Fin 16), isHead s = true ∧ p ≠ 0 ∧ frameWhole wire =
      true ∧ cascFits true (some ↑p) wire = true ∧ wire.ready = true ∧ s.fld.load = some l ∧ (↑a, ↑p) ∈ l.left ∧ (List.filter
      (fun x ↦ x != (↑a, ↑p)) l.left ≠ []))
    ∧ (∃ (s : State) (wire : LinkFrame) (p : Fin 4) (l : CascLoad) (a : Fin 16), isHead s = true ∧ p ≠ 0 ∧ frameWhole wire =
      true ∧ cascFits true (some ↑p) wire = true ∧ wire.ready = true ∧ s.fld.load = some l ∧ (↑a, ↑p) ∈ l.left ∧ (List.filter
      (fun x ↦ x != (↑a, ↑p)) l.left = []))
    ∧ (∃ (s : State) (wire : LinkFrame) (p : Fin 4) (silicon : Word), isHead s = true ∧ p ≠ 0 ∧ frameWhole wire = true ∧
      cascFits false (some ↑p) wire = true ∧ ↑p ∈ s.cascade.probed ∧ silicon ≠ getReg s Reg.devSiliconRev)
    ∧ (∃ (s : State) (wire : LinkFrame) (p : Fin 4) (silicon : Word), isHead s = true ∧ p ≠ 0 ∧ frameWhole wire = true ∧
      cascFits false (some ↑p) wire = true ∧ ↑p ∈ s.cascade.probed ∧ silicon = getReg s Reg.devSiliconRev)
    ∧ (∃ (s : State) (wire : LinkFrame) (p : Fin 4) (reply : Byte) (block : Byte) (words : List Word), isHead s = true ∧ p ≠ 0 ∧
      frameWhole wire = true ∧ cascFits false (some ↑p) wire = true ∧ domainOn s 4 = true ∧ regBit s Reg.umxStatus (23 + ↑p) =
      true ∧ blockFrame (↑p) (BitVec.toNat block) (BitVec.toNat reply) words = true ∧ s.frx.reply = none)
    ∧ (∃ (s : State) (wire : LinkFrame) (p : Fin 4), isHead s = true ∧ p ≠ 0 ∧ frameWhole wire = true ∧ cascFits false (some ↑p)
      wire = true ∧ regBit s Reg.cscStatus (23 + ↑p) = true ∧ s.cascade.reports.length = 3)
    ∧ (∃ (s : State), isHead s = true ∧ s.clocks.plumb = PlumbState.locked ∧ sinceMs s s.cascade.alignedAt 1000 = true)
    ∧ (∃ (s : State) (wire : LinkFrame), isHead s = true ∧ frameWhole wire = true ∧ wire.ready = true ∧ cascFits true none wire
      = true ∧ s.cascade.aligning = true ∧ s.clocks.plumb = PlumbState.locked)
    ∧ (∃ (s : State) (wire : LinkFrame), isHead s = true ∧ frameWhole wire = true ∧ wire.ready = true ∧ cascFits true none wire
      = true)
    ∧ (∃ (s : State) (wire : LinkFrame) (cycle : Word), isHead s = true ∧ frameWhole wire = true ∧ wire.ready = true ∧ cascFits
      true none wire = true ∧ domainOn s 3 = true ∧ regBits s Reg.fldCascLead 15 0 ≤ (BitVec.toNat cycle + 2 ^ 32 - fldCycle s)
      % 2 ^ 32 ∧ (BitVec.toNat cycle + 2 ^ 32 - fldCycle s) % 2 ^ 32 < 2 ^ 31)
    ∧ (∃ (s : State) (p : Fin 4), isHead s = true ∧ p ≠ 0 ∧ regBit s Reg.cscStatus (23 + ↑p) = true ∧ s.cascade.missed.length =
      3)
    ∧ (∃ (s : State) (p : Fin 4), isHead s = true ∧ p ≠ 0 ∧ regBit s Reg.cscStatus (23 + ↑p) = true ∧ s.cascade.missed.length =
      3 ∧ 10 ≤ s.cascade.missed.getD (↑p - 1) 0 ∧ s.fld.load = none)
    ∧ (∃ (s : State) (wire : LinkFrame) (p : Fin 4), isMember s = true ∧ wire.header = linkHeader false (cascPosition s) ∧
      frameWhole wire = true ∧ s.clocks.plumb = PlumbState.locked ∧ ↑p = cascPosition s)
    ∧ (∃ (s : State) (wire : LinkFrame), isMember s = true ∧ wire.header = linkHeader false (cascPosition s) ∧ frameWhole wire =
      true ∧ s.clocks.plumb = PlumbState.locked)
    ∧ (∃ (s : State) (wire : LinkFrame) (mine : Word), isMember s = true ∧ wire.header = linkHeader false (cascPosition s) ∧
      frameWhole wire = true ∧ domainOn s 3 = true ∧ s.cascade.latched = some mine)
    ∧ (∃ (s : State) (wire : LinkFrame) (mine : Word), isMember s = true ∧ wire.header = linkHeader false (cascPosition s) ∧
      frameWhole wire = true ∧ domainOn s 3 = true ∧ s.cascade.latched = some mine)
    ∧ (∃ (s : State) (wire : LinkFrame) (p : Fin 4) (words : List Word), isMember s = true ∧ wire.header = linkHeader false
      (cascPosition s) ∧ frameWhole wire = true ∧ domainOn s 3 = true ∧ ↑p = cascPosition s ∧ words.length = 13 ∧ (∀ (x : Txn),
      x ∈ s.txn.ids → ∀ (i : Nat), x.touches i = false))
    ∧ (∃ (s : State) (wire : LinkFrame) (cycle : Word), isMember s = true ∧ wire.header = linkHeader false (cascPosition s) ∧
      frameWhole wire = true ∧ domainOn s 3 = true ∧ arrayMode s = 2 ∧ s.clocks.bypass = false ∧ cycleLate s cycle = false)
    ∧ (∃ (s : State) (wire : LinkFrame) (cycle : Word), isMember s = true ∧ wire.header = linkHeader false (cascPosition s) ∧
      frameWhole wire = true ∧ domainOn s 3 = true ∧ arrayMode s = 2 ∧ s.clocks.bypass = false ∧ cycleLate s cycle = true ∧
      Machine.fieldState s ≠ Fs.thermalOff)
    ∧ (∃ (s : State) (wire : LinkFrame) (cycle : Word), isMember s = true ∧ wire.header = linkHeader false (cascPosition s) ∧
      frameWhole wire = true ∧ domainOn s 3 = true ∧ arrayMode s = 2 ∧ cycleLate s cycle = false)
    ∧ (∃ (s : State) (wire : LinkFrame) (cycle : Word), isMember s = true ∧ wire.header = linkHeader false (cascPosition s) ∧
      frameWhole wire = true ∧ domainOn s 3 = true ∧ arrayMode s = 2 ∧ cycleLate s cycle = true ∧ Machine.fieldState s ≠
      Fs.thermalOff)
    ∧ (∃ (s : State) (wire : LinkFrame), isMember s = true ∧ wire.header = linkHeader false (cascPosition s) ∧ frameWhole wire =
      true ∧ domainOn s 3 = true ∧ arrayMode s = 2 ∧ Machine.fieldState s ≠ Fs.thermalOff)
    ∧ (∃ (s : State), isMember s = true ∧ domainOn s 3 = true ∧ arrayMode s = 2 ∧ Machine.fieldState s ≠ Fs.thermalOff ∧
      cascState s ≠ Cc.orphan ∧ passedMs s s.cascade.heardNow 10 = true) := by
  refine ⟨⟨cascadeAt 0, wireOf 0x30, 3, ?_, ?_, ?_, ?_, ?_, ?_, ?_, ?_⟩,
    ⟨loadingHead [(15,3), (15,2)], wireOf 0x30, 3, loadJob [(15,3), (15,2)], 15, ?_, ?_, ?_, ?_, ?_, ?_, ?_, ?_⟩,
    ⟨loadingHead [(15,3)], wireOf 0x30, 3, loadJob [(15,3)], 15, ?_, ?_, ?_, ?_, ?_, ?_, ?_, ?_⟩,
    ⟨cascadeAt 0 (fun c => { c with probed := [3] }), wireOf 0xB0, 3, 0xFFFFFFFF, ?_, ?_, ?_, ?_, ?_, ?_⟩,
    ⟨cascadeAt 0 (fun c => { c with probed := [3] }), wireOf 0xB0, 3, getReg run Reg.devSiliconRev, ?_, ?_, ?_, ?_, ?_, ?_⟩,
    ⟨setRegBit Reg.umxStatus 26 (cascadeAt 0), wireOf 0xB0, 3, 4, 0, (fieldWord 31 24 0xE5 ||| fieldWord 23 22 3 ||| fieldWord 7
      0 4) :: List.replicate 97 0, ?_, ?_, ?_, ?_, ?_, ?_, ?_, ?_⟩,
    ⟨memberPresent, wireOf 0xB0, 3, ?_, ?_, ?_, ?_, ?_, ?_⟩,
    ⟨cascadeAt 0, ?_, ?_, ?_⟩,
    ⟨cascadeAt 0 (fun c => { c with aligning := true }), wireOf 0x30, ?_, ?_, ?_, ?_, ?_, ?_⟩,
    ⟨cascadeAt 0, wireOf 0x30, ?_, ?_, ?_, ?_⟩,
    ⟨cascadeAt 0, wireOf 0x30, 100000, ?_, ?_, ?_, ?_, ?_, ?_, ?_⟩,
    ⟨memberPresent, 3, ?_, ?_, ?_, ?_⟩,
    ⟨memberPresent, 3, ?_, ?_, ?_, ?_, ?_, ?_⟩,
    ⟨cascadeAt 3, wireOf 0x30, 3, ?_, ?_, ?_, ?_, ?_⟩,
    ⟨cascadeAt 3, wireOf 0x30, ?_, ?_, ?_, ?_⟩,
    ⟨cascadeAt 3 (fun c => { c with latched := some 5, answered := true }), wireOf 0x30, 5, ?_, ?_, ?_, ?_, ?_⟩,
    ⟨cascadeAt 3 (fun c => { c with latched := some 5 }), wireOf 0x30, 5, ?_, ?_, ?_, ?_, ?_⟩,
    ⟨cascadeAt 3, wireOf 0x30, 3, List.replicate 13 0x80000003, ?_, ?_, ?_, ?_, ?_, ?_, (freeTouchesNone)⟩,
    ⟨memberOn, wireOf 0x30, 100, ?_, ?_, ?_, ?_, ?_, ?_, ?_⟩,
    ⟨later 1000 memberOn, wireOf 0x30, 7, ?_, ?_, ?_, ?_, ?_, ?_, ?_, ?_⟩,
    ⟨memberOn, wireOf 0x30, 100, ?_, ?_, ?_, ?_, ?_, ?_⟩,
    ⟨later 1000 memberOn, wireOf 0x30, 7, ?_, ?_, ?_, ?_, ?_, ?_, ?_⟩,
    ⟨later 1000 memberOn, wireOf 0x30, ?_, ?_, ?_, ?_, ?_, ?_⟩,
    ⟨long memberOn, ?_, ?_, ?_, ?_, ?_, ?_⟩⟩ <;>
    decide +kernel

end Sys2Proof.Tests
end

/-!
Sys2Proof/Proofs/ReceiveChains: the receive chains, replies and captures (06), one lemma for what each event does.
-/
namespace Sys2Proof.Machine

/-! ## Reads of registers -/

@[simp] theorem getReg_setFrx (f : ReceiveUnit) (s : State) (i : Nat) : getReg (setFrx f s) i = getReg s i := rfl

theorem getReg_of_regs_eq {s t : State} (h : t.regs = s.regs) (i : Nat) : getReg t i = getReg s i := by
  rw [getReg, getReg, h]

theorem getReg_countReg_self (i n : Nat) (s : State) : getReg (countReg i n s) i = getReg s i + BitVec.ofNat 32 n :=
  getReg_setReg_self _ _ _

/-- A bit follows its register. -/
theorem regBit_congr {s t : State} {i : Nat} (h : getReg t i = getReg s i) (n : Nat) : regBit t i n = regBit s i n := by
  rw [regBit, regBit, h]

/-- A field of one bit written is read back. -/
theorem regBit_setRegBits_bit01 (i n : Nat) (b : Bool) (s : State) (hn : n < 32) :
    regBit (setRegBits i n n (bit01 b) s) i n = b := by
  have h0 : n + 1 - n = 1 := by omega
  rw [regBit, setRegBits, getReg_setReg_self, bitAt, withBits, BitVec.getLsbD_or, BitVec.getLsbD_and, BitVec.getLsbD_not,
    getLsbD_maskOf _ _ _ hn, getLsbD_fieldWord _ _ _ _ hn]
  cases b <;> simp [h0, bit01]

theorem regBit_raiseEvent (p b : Nat) (s : State) (hb : b < 32) : regBit (raiseEvent p b s) (pageReg p 4) b = true :=
  regBit_setRegBit _ _ _ hb

/-- A fault raised is set, whether or not another was set before. -/
theorem regBit_raiseFault (p b detail : Nat) (s : State) (hb : b < 32) :
    regBit (raiseFault p b detail s) (pageReg p 8) b = true := by
  unfold raiseFault
  split
  · have hi : pageReg p 8 ≠ pageReg 0x0D 4 := by simp only [pageReg]; omega
    have h4 : pageReg p 8 ≠ pageReg p 4 := by simp only [pageReg]; omega
    rw [regBit_congr (getReg_raiseEvent_ne _ _ _ _ hi), regBit_congr (getReg_raiseEvent_ne _ _ _ _ h4)]
    exact regBit_setRegBit _ _ _ hb
  · exact regBit_setRegBit _ _ _ hb

/-- A bit that is clear stays clear when any bit of its register is cleared. -/
theorem regBit_clearRegBit_of_clear (i k n : Nat) {s : State} (h : regBit s i n = false) :
    regBit (clearRegBit i k s) i n = false := by
  rw [regBit, bitAt] at h
  rw [regBit, clearRegBit, getReg_setReg_self, bitAt, BitVec.getLsbD_and, h, Bool.false_and]

/-- What each step of a fold keeps, the fold keeps. -/
theorem foldl_keeps {α β : Type} (g : State → β) (f : State → α → State) (hf : ∀ t a, g (f t a) = g t) (l : List α)
    (s : State) : g (l.foldl f s) = g s := by
  induction l generalizing s with
  | nil => rfl
  | cons a l ih => rw [List.foldl_cons, ih, hf]

/-! ## Overloads in a reply (06 R249, R264) -/

/-- The reply with the first overload of chain `p` in it noted. -/
def ReplyRun.clip (p : Nat) (r : ReplyRun) : ReplyRun :=
  { r with
    clippedAny := p :: r.clippedAny
    clipped := if r.window.isSome || r.formed then r.clipped else p :: r.clipped }

theorem clipInReply_no_reply (p : Nat) {s : State} (h : s.frx.reply = none) : clipInReply p s = s := by
  simp [clipInReply, h]

theorem clipInReply_again {p : Nat} {s : State} {r : ReplyRun} (h : s.frx.reply = some r)
    (hp : r.clippedAny.contains p = true) : clipInReply p s = raiseEvent 0x12 0 s := by
  simp only [clipInReply, h, hp, if_true]

theorem clipInReply_first {p : Nat} {s : State} {r : ReplyRun} (h : s.frx.reply = some r)
    (hp : r.clippedAny.contains p = false) :
    clipInReply p s = raiseEvent 0x12 0
      (countReg (Reg.frxClipCnt + p) 1 (setFrx { s.frx with reply := some (r.clip p) } s)) := by
  simp only [clipInReply, h, hp, Bool.false_eq_true, if_false, ReplyRun.clip]

theorem clipInReply_mem (p : Nat) (s : State) : (clipInReply p s).mem = s.mem := by
  cases h : s.frx.reply with
  | none => rw [clipInReply_no_reply p h]
  | some r =>
    cases hp : r.clippedAny.contains p with
    | true => rw [clipInReply_again h hp, raiseEvent_mem]
    | false => rw [clipInReply_first h hp, raiseEvent_mem, countReg_mem, setFrx_mem]

/-- An overload in a reply touches FRX.EVENT and the chain's CLIP_CNT only. -/
theorem getReg_clipInReply_ne (p i : Nat) (s : State) (he : i ≠ pageReg 0x12 4) (hc : i ≠ Reg.frxClipCnt + p) :
    getReg (clipInReply p s) i = getReg s i := by
  cases h : s.frx.reply with
  | none => rw [clipInReply_no_reply p h]
  | some r =>
    cases hp : r.clippedAny.contains p with
    | true => rw [clipInReply_again h hp, getReg_raiseEvent_ne _ _ _ _ he]
    | false => rw [clipInReply_first h hp, getReg_raiseEvent_ne _ _ _ _ he, getReg_countReg_ne _ _ _ _ hc, getReg_setFrx]

/-- Overloads before the end of the estimation window are noted in the reply, each chain's among the clipped ones, and
change nothing else of it. -/
theorem foldl_clipInReply_reply (l : List Nat) {s : State} {r : ReplyRun} (h : s.frx.reply = some r)
    (hw : r.window = none) (hf : r.formed = false) (ha : ∀ p ∈ r.clippedAny, p ∈ r.clipped) :
    ∃ any clipped, (l.foldl (fun t p => clipInReply p t) s).frx.reply
        = some { r with clippedAny := any, clipped := clipped }
      ∧ ∀ p, p ∈ clipped ↔ p ∈ r.clipped ∨ p ∈ l := by
  induction l generalizing s r with
  | nil => exact ⟨r.clippedAny, r.clipped, h, by simp⟩
  | cons c l ih =>
    rw [List.foldl_cons]
    cases hc : r.clippedAny.contains c with
    | true =>
      have hreply : (clipInReply c s).frx.reply = some r := by rw [clipInReply_again h hc, raiseEvent_frx, h]
      obtain ⟨any, clipped, hq, hmem⟩ := ih hreply hw hf ha
      have hin : c ∈ r.clipped := ha c (List.contains_iff_mem.1 hc)
      refine ⟨any, clipped, hq, fun p => ?_⟩
      rw [hmem, List.mem_cons]
      constructor
      · rintro (hp | hp)
        · exact .inl hp
        · exact .inr (.inr hp)
      · rintro (hp | rfl | hp)
        · exact .inl hp
        · exact .inl hin
        · exact .inr hp
    | false =>
      have hreply : (clipInReply c s).frx.reply = some (r.clip c) := by
        rw [clipInReply_first h hc, raiseEvent_frx, countReg_frx, setFrx_frx]
      have hclip : (r.clip c).clipped = c :: r.clipped := by simp [ReplyRun.clip, hw, hf]
      have hany : ∀ p ∈ (r.clip c).clippedAny, p ∈ (r.clip c).clipped := by
        intro p hp
        rw [hclip]
        rcases List.mem_cons.1 hp with rfl | hp
        · exact List.mem_cons_self
        · exact List.mem_cons_of_mem _ (ha p hp)
      obtain ⟨any, clipped, hq, hmem⟩ := ih hreply hw hf hany
      refine ⟨any, clipped, hq, fun p => ?_⟩
      rw [hmem, hclip, List.mem_cons, List.mem_cons, or_assoc, or_left_comm]

/-! ## A reply begins (06 R253, R264, R267) -/

/-- The reply that REPLY_DETECTED opens takes the UMX values in force, and the overloads that last fall into it. -/
theorem replyDetected_opens {s : State} (h4 : domainOn s 4 = true) (hw : s.frx.windowOpen = true)
    (hr : s.frx.reply = none) :
    ∃ (r : ReplyRun) (n : Nat), replyDetected s
        = ((usedChains s).filter (fun p => regBit s (Reg.frxChainStatus + p) 30)).foldl (fun t p => clipInReply p t)
          (setFrx { s.frx with reply := some r, replies := n } s)
      ∧ r.ctrl = getReg s Reg.umxCtrl ∧ r.limits = getReg s Reg.umxLimits ∧ r.est = getReg s Reg.umxEst
      ∧ r.formed = false ∧ r.broken = false ∧ r.used = usedChains s ∧ r.clipped = [] ∧ r.clippedAny = []
      ∧ r.window = none := by
  simp only [replyDetected, h4, hw, hr, Option.isSome_none, Bool.not_true, Bool.or_self, Bool.false_eq_true, if_false]
  exact ⟨_, _, rfl, rfl, rfl, rfl, rfl, rfl, rfl, rfl, rfl, rfl⟩

theorem replyDetected_reply {s : State} (h4 : domainOn s 4 = true) (hw : s.frx.windowOpen = true)
    (hr : s.frx.reply = none) :
    ∃ r, (replyDetected s).frx.reply = some r ∧ r.ctrl = getReg s Reg.umxCtrl ∧ r.limits = getReg s Reg.umxLimits
      ∧ r.est = getReg s Reg.umxEst ∧ r.formed = false ∧ r.broken = false ∧ r.used = usedChains s
      ∧ (∀ p, p ∈ r.clipped ↔ p ∈ usedChains s ∧ regBit s (Reg.frxChainStatus + p) 30 = true) := by
  obtain ⟨r, n, ht, hctrl, hlimits, hest, hformed, hbroken, hused, hclipped, hany, hwindow⟩ := replyDetected_opens h4 hw hr
  have hsub : ∀ p ∈ r.clippedAny, p ∈ r.clipped := by simp [hany]
  obtain ⟨any, clipped, hq, hmem⟩ := foldl_clipInReply_reply
    ((usedChains s).filter (fun p => regBit s (Reg.frxChainStatus + p) 30))
    (s := setFrx { s.frx with reply := some r, replies := n } s) rfl hwindow hformed hsub
  refine ⟨{ r with clippedAny := any, clipped := clipped }, by rw [ht, hq], hctrl, hlimits, hest, hformed, hbroken, hused,
    fun p => ?_⟩
  simp only [hmem, hclipped, List.not_mem_nil, false_or, List.mem_filter]

theorem replyDetected_mem {s : State} (h4 : domainOn s 4 = true) (hw : s.frx.windowOpen = true)
    (hr : s.frx.reply = none) : (replyDetected s).mem = s.mem := by
  obtain ⟨r, n, ht, -⟩ := replyDetected_opens h4 hw hr
  rw [ht, foldl_keeps (·.mem) _ (fun t p => clipInReply_mem p t), setFrx_mem]

/-- With no overload on a used chain, a reply that begins touches no register. -/
theorem replyDetected_regs {s : State} (h4 : domainOn s 4 = true) (hw : s.frx.windowOpen = true)
    (hr : s.frx.reply = none) (hc : ∀ p ∈ usedChains s, regBit s (Reg.frxChainStatus + p) 30 = false) :
    (replyDetected s).regs = s.regs := by
  obtain ⟨r, n, ht, -⟩ := replyDetected_opens h4 hw hr
  have hnone : (usedChains s).filter (fun p => regBit s (Reg.frxChainStatus + p) 30) = [] := by
    rw [List.filter_eq_nil_iff]
    intro p hp
    rw [hc p hp]
    exact Bool.false_ne_true
  rw [ht, hnone, List.foldl_nil, setFrx_regs]

/-! ## The end of the estimation window (06 R255 to R260, R264, R271) -/

/-- Step 3 withdraws the detection or forms the reply, and changes nothing but the receive unit and the free values. -/
theorem formReply_only (r : ReplyRun) (own vectors : List (List (Int × Int))) (out : List Nat) (s : State) :
    (formReply r own vectors out s).regs = s.regs ∧ (formReply r own vectors out s).mem = s.mem
      ∧ ∀ q, (formReply r own vectors out s).frx.reply = some q → q.formed = true ∧ q.window = none := by
  unfold formReply
  dsimp only
  generalize (if unmixable s = true then _ else _ : Nat) = k
  by_cases hk : k = 0
  · rw [if_pos hk]
    exact ⟨rfl, rfl, fun q hq => by cases hq⟩
  · rw [if_neg hk]
    refine ⟨rfl, rfl, fun q hq => ?_⟩
    cases hq
    exact ⟨rfl, rfl⟩

theorem mem_slotFails (r : ReplyRun) (k kappa all left : Nat) :
    (1 ∈ slotFails r k kappa all left ↔ bitsOf r.ctrl 2 0 < k ∨ all < k)
      ∧ (2 ∈ slotFails r k kappa all left ↔ bitsOf r.limits 7 0 * 4096 < kappa)
      ∧ (7 ∈ slotFails r k kappa all left ↔ left < k)
      ∧ (8 ∈ slotFails r k kappa all left ↔ bitAt r.ctrl 31 = false ∧ 2 ≤ k) := by
  simp [slotFails, List.mem_append, List.mem_ite_nil_right]

/-- The sources that a device finds in a reply to which no member forwards (06 R251, R256). -/
def ownSources (s : State) (r : ReplyRun) (estimates : List (List (Int × Int))) : Nat :=
  let found := sourceCount (bitsOf r.est 15 8) r.used (windowRows s r estimates 0#3)
  if unmixable s then found else min found 1

theorem membersOf_zero : membersOf 0#3 = [] := by decide

theorem lateMembers_zero (s : State) (reply symbols : Nat) : lateMembers s reply symbols 0#3 = [] := by
  rw [lateMembers, membersOf_zero, List.filter_nil]

theorem formReply_own_withdraws {s : State} {r : ReplyRun} {estimates : List (List (Int × Int))}
    (hf : forwarding s = 0#3) (hk : ownSources s r estimates = 0) (vectors : List (List (Int × Int))) :
    formReply r estimates vectors [] s = setFrx { s.frx with reply := none } s := by
  unfold ownSources at hk
  unfold formReply
  simp only [hf, membersOf_zero, List.filter_nil, List.foldl_nil, List.flatMap_nil, List.append_nil]
  exact if_pos hk

theorem formReply_own_forms {s : State} {r : ReplyRun} {estimates : List (List (Int × Int))}
    (hf : forwarding s = 0#3) (hk : ownSources s r estimates ≠ 0) (vectors : List (List (Int × Int))) :
    ∃ q, (formReply r estimates vectors [] s).frx.reply = some q ∧ q.formed = true ∧ q.k = ownSources s r estimates
      ∧ q.members = 0#3 ∧ q.coils = r.used.filter (fun c => !(r.clipped.contains c)) ∧ q.chains = q.coils.length
      ∧ q.fails = slotFails r (ownSources s r estimates) q.kappa r.used.length q.chains := by
  unfold ownSources at hk ⊢
  unfold formReply
  simp only [hf, membersOf_zero, List.filter_nil, List.foldl_nil, List.flatMap_nil, List.append_nil, List.map_nil,
    List.sum_nil, Nat.add_zero]
  rw [if_neg hk]
  exact ⟨_, rfl, rfl, rfl, rfl, rfl, rfl, rfl⟩

/-- With no member's blocks to wait for, step 3 follows at once. -/
theorem estimationWindowEnd_forms {s : State} {r : ReplyRun} (h : s.frx.reply = some r) (hf : r.formed = false)
    (hw : r.window = none) (hl : lateMembers s r.number r.len (forwarding s) = [])
    (estimates vectors : List (List (Int × Int))) :
    estimationWindowEnd estimates vectors s = formReply r estimates vectors [] s := by
  simp [estimationWindowEnd, h, hf, hw, hl]

/-- With a block missing, the head keeps what the window gave and waits. -/
theorem estimationWindowEnd_waits {s : State} {r : ReplyRun} (h : s.frx.reply = some r) (hf : r.formed = false)
    (hw : r.window = none) (hl : lateMembers s r.number r.len (forwarding s) ≠ [])
    (estimates vectors : List (List (Int × Int))) :
    estimationWindowEnd estimates vectors s
      = setFrx { s.frx with reply := some { r with window := some (estimates, vectors, s.now) } } s := by
  simp [estimationWindowEnd, h, hf, hw, hl]

/-! ## Members that come late (06 R271) -/

theorem regBit_foldl_clearRegBit_of_clear (n : Nat) (l : List Nat) {s : State} (h : regBit s Reg.umxStatus n = false) :
    regBit (l.foldl (fun t m => clearRegBit Reg.umxStatus (23 + m) t) s) Reg.umxStatus n = false := by
  induction l generalizing s with
  | nil => exact h
  | cons c l ih => exact ih (regBit_clearRegBit_of_clear _ _ _ h)

/-- Each of the members named loses its bit in UMX.STATUS. -/
theorem regBit_foldl_clearRegBit {late : List Nat} {m : Nat} (hm : m ∈ late) (h32 : 23 + m < 32) (s : State) :
    regBit (late.foldl (fun t m => clearRegBit Reg.umxStatus (23 + m) t) s) Reg.umxStatus (23 + m) = false := by
  induction late generalizing s with
  | nil => cases hm
  | cons c l ih =>
    rw [List.foldl_cons]
    rcases List.mem_cons.1 hm with rfl | hm
    · exact regBit_foldl_clearRegBit_of_clear _ l (regBit_clearRegBit _ _ _ h32)
    · exact ih hm _

/-- Members late in a reply: each is marked no longer in time, its missing blocks are counted, and the event is raised. -/
theorem countLate_marks {r : ReplyRun} {symbols : Nat} {late : List Nat} (hne : late ≠ []) (h3 : ∀ m ∈ late, m ≤ 3)
    (s : State) :
    (∀ m ∈ late, regBit (countLate r symbols late s) Reg.umxStatus (23 + m) = false)
      ∧ getReg (countLate r symbols late s) Reg.umxCascLate
        = getReg s Reg.umxCascLate + BitVec.ofNat 32 (late.map (missingBlocks s r.number symbols)).sum
      ∧ regBit (countLate r symbols late s) (pageReg 0x13 4) 2 = true := by
  have hcons : late.isEmpty = false := by simpa using hne
  simp only [countLate, hcons, Bool.false_eq_true, if_false]
  refine ⟨fun m hm => ?_, ?_, regBit_raiseEvent _ _ _ (by decide)⟩
  · have h32 : 23 + m < 32 := by have := h3 m hm; omega
    rw [regBit_congr (getReg_raiseEvent_ne _ _ _ _ (by decide)), regBit_congr (getReg_countReg_ne _ _ _ _ (by decide))]
    exact regBit_foldl_clearRegBit hm h32 s
  · rw [getReg_raiseEvent_ne _ _ _ _ (by decide), getReg_countReg_self,
      foldl_keeps (getReg · Reg.umxCascLate) _ (fun t m => getReg_clearRegBit_ne _ _ _ _ (by decide))]

theorem countLate_mem (r : ReplyRun) (symbols : Nat) (late : List Nat) (s : State) :
    (countLate r symbols late s).mem = s.mem := by
  unfold countLate
  split
  · rfl
  · exact foldl_keeps (·.mem) _ (fun t m => clearRegBit_mem _ _ t) late s

theorem le_three_of_mem_lateMembers {s : State} {reply symbols m : Nat} {mask : BitVec 3}
    (h : m ∈ lateMembers s reply symbols mask) : m ≤ 3 := by
  have hm : m ∈ [1, 2, 3] := (List.mem_filter.1 (List.mem_filter.1 h).1).1
  simp only [List.mem_cons, List.not_mem_nil, or_false] at hm
  omega

/-- CASC_WAIT after the window's end, step 3 starts without the late members. -/
theorem cascWaitExpiry_forms {s : State} {r : ReplyRun} {own vectors : List (List (Int × Int))} {since : Nat}
    (h4 : domainOn s 4 = true) (h : s.frx.reply = some r) (hw : r.window = some (own, vectors, since))
    (hp : passedUs s since (bitsOf r.wait 8 0) = true) :
    cascWaitExpiry s = formReply r own vectors (lateMembers s r.number r.len (forwarding s))
      (countLate r r.len (lateMembers s r.number r.len (forwarding s)) s) := by
  simp [cascWaitExpiry, h, hw, h4, hp]

/-! ## Overload and trim of a chain (06 R249, R250, R254) -/

theorem chainClip_on {s : State} (h4 : domainOn s 4 = true) (p : Nat) (o : Bool) :
    chainClip p o s = if o then clipInReply p (setRegBits (Reg.frxChainStatus + p) 30 30 (bit01 o) s)
      else setRegBits (Reg.frxChainStatus + p) 30 30 (bit01 o) s := by
  simp [chainClip, h4]

theorem chainStatus_ne {c : Nat} (hc : c < 8) :
    Reg.frxChainStatus + c ≠ pageReg 0x12 4 ∧ Reg.frxChainStatus + c ≠ Reg.frxClipCnt + c
      ∧ Reg.frxClipCnt + c ≠ pageReg 0x12 4 := by
  simp only [Reg.frxChainStatus, Reg.frxClipCnt, pageReg]
  omega

theorem chainClip_mem {s : State} (h4 : domainOn s 4 = true) (p : Nat) (o : Bool) : (chainClip p o s).mem = s.mem := by
  rw [chainClip_on h4]
  cases o with
  | true => exact (clipInReply_mem _ _).trans (setRegBits_mem _ _ _ _ _)
  | false => exact setRegBits_mem _ _ _ _ _

/-- The overload is shown while it lasts. -/
theorem chainClip_shows {s : State} (h4 : domainOn s 4 = true) (c : Fin 8) (o : Bool) :
    regBit (chainClip c.val o s) (Reg.frxChainStatus + c.val) 30 = o := by
  obtain ⟨hevent, hcount, -⟩ := chainStatus_ne c.isLt
  have hfield := regBit_setRegBits_bit01 (Reg.frxChainStatus + c.val) 30 o s (by decide)
  rw [chainClip_on h4]
  cases o with
  | true => exact (regBit_congr (getReg_clipInReply_ne _ _ _ hevent hcount) 30).trans hfield
  | false => exact hfield

/-- Outside a reply, and where an overload ends, nothing is counted. -/
theorem chainClip_uncounted {s : State} (h4 : domainOn s 4 = true) (c : Fin 8) (o : Bool)
    (h : s.frx.reply = none ∨ o = false) :
    getReg (chainClip c.val o s) (Reg.frxClipCnt + c.val) = getReg s (Reg.frxClipCnt + c.val) := by
  obtain ⟨-, hcount, -⟩ := chainStatus_ne c.isLt
  rw [chainClip_on h4]
  cases o with
  | false => exact getReg_setRegBits_ne _ _ _ _ _ _ hcount.symm
  | true =>
    obtain hr | ho := h
    · rw [if_pos rfl, clipInReply_no_reply _ ((congrArg (·.reply) (setRegBits_frx _ _ _ _ s)).trans hr),
        getReg_setRegBits_ne _ _ _ _ _ _ hcount.symm]
    · cases ho

/-- An overload in a reply raises CLIP, and is counted once for each chain in that reply. -/
theorem chainClip_in_reply {s : State} (h4 : domainOn s 4 = true) (c : Fin 8) {r : ReplyRun} (h : s.frx.reply = some r) :
    regBit (chainClip c.val true s) (pageReg 0x12 4) 0 = true
      ∧ (r.clippedAny.contains c.val = true →
        getReg (chainClip c.val true s) (Reg.frxClipCnt + c.val) = getReg s (Reg.frxClipCnt + c.val))
      ∧ (r.clippedAny.contains c.val = false →
        getReg (chainClip c.val true s) (Reg.frxClipCnt + c.val) = getReg s (Reg.frxClipCnt + c.val) + 1#32
          ∧ (chainClip c.val true s).frx.reply = some (r.clip c.val)) := by
  obtain ⟨-, hcount, hevent⟩ := chainStatus_ne c.isLt
  rw [chainClip_on h4, if_pos rfl]
  have hr : (setRegBits (Reg.frxChainStatus + c.val) 30 30 (bit01 true) s).frx.reply = some r := by rw [setRegBits_frx, h]
  cases hc : r.clippedAny.contains c.val with
  | true =>
    rw [clipInReply_again hr hc]
    refine ⟨regBit_raiseEvent _ _ _ (by decide), fun _ => ?_, fun hn => by cases hn⟩
    rw [getReg_raiseEvent_ne _ _ _ _ hevent, getReg_setRegBits_ne _ _ _ _ _ _ hcount.symm]
  | false =>
    rw [clipInReply_first hr hc]
    refine ⟨regBit_raiseEvent _ _ _ (by decide), fun hn => (by cases hn), fun _ => ⟨?_, ?_⟩⟩
    · rw [getReg_raiseEvent_ne _ _ _ _ hevent, getReg_countReg_self, getReg_setFrx,
        getReg_setRegBits_ne _ _ _ _ _ _ hcount.symm]
    · rw [raiseEvent_frx, countReg_frx, setFrx_frx]

/-- A trim in range changes nothing but, where it is a full one, the start of TRIM_AGE. -/
theorem chainTrimStep_inRange {s : State} (h3 : domainOn s 3 = true) (h4 : domainOn s 4 = true)
    (hw : s.frx.windowOpen = false) {p : Nat} (hu : chainUsed s p = true) (he : regBit s Reg.frxCtrl 31 = true)
    (full : Bool) : chainTrimStep p full true s = if full then trimmed p s else s := by
  simp [chainTrimStep, h3, h4, hw, hu, he]

theorem chainTrimStep_outOfRange {s : State} (h3 : domainOn s 3 = true) (h4 : domainOn s 4 = true)
    (hw : s.frx.windowOpen = false) {p : Nat} (hu : chainUsed s p = true) (he : regBit s Reg.frxCtrl 31 = true)
    (full : Bool) : chainTrimStep p full false s = faultChain p s := by
  simp [chainTrimStep, h3, h4, hw, hu, he]

theorem faultChain_marks (c : Fin 8) (s : State) :
    regBit (faultChain c.val s) (Reg.frxChainStatus + c.val) 29 = true
      ∧ regBit (faultChain c.val s) (pageReg 0x12 8) 0 = true
      ∧ (faultChain c.val s).frx = s.frx ∧ (faultChain c.val s).mem = s.mem := by
  have hc := c.isLt
  have hregs : Reg.frxChainStatus + c.val ≠ pageReg 0x12 4 ∧ Reg.frxChainStatus + c.val ≠ pageReg 0x12 8
      ∧ Reg.frxChainStatus + c.val ≠ pageReg 0x12 9 ∧ Reg.frxChainStatus + c.val ≠ pageReg 0x0D 4 := by
    simp only [Reg.frxChainStatus, pageReg]
    omega
  obtain ⟨hevent, hfault, hinfo, hitg⟩ := hregs
  refine ⟨?_, regBit_raiseFault _ _ _ _ (by decide), ?_, ?_⟩
  · rw [faultChain, regBit_congr (getReg_raiseFault_ne _ _ _ _ _ hevent hfault hinfo hitg)]
    exact regBit_setRegBits_bit01 _ 29 true s (by decide)
  · rw [faultChain, raiseFault_frx, setRegBits_frx]
  · rw [faultChain, raiseFault_mem, setRegBits_mem]

/-! ## Captures (06 R273) -/

/-- The argument of a door word. -/
theorem bitsOf_doorWord_arg (tag : Byte) (cmd : Nat) (arg : BitVec 16) : bitsOf (doorWord tag cmd arg) 15 0 = arg.toNat := by
  apply Nat.eq_of_testBit_eq
  intro i
  rw [testBit_bitsOf, BitVec.testBit_toNat]
  by_cases hi : i < 16
  · have h32 : i + 0 < 32 := by omega
    have h16 : ¬ 16 ≤ i := by omega
    have h24 : ¬ 24 ≤ i := by omega
    rw [doorWord, BitVec.getLsbD_or, BitVec.getLsbD_or, getLsbD_fieldWord _ _ _ _ h32, getLsbD_fieldWord _ _ _ _ h32,
      getLsbD_fieldWord _ _ _ _ h32]
    simp [hi, h16, h24, BitVec.testBit_toNat]
  · have hout := BitVec.getLsbD_of_ge arg i (by omega)
    simp [hi, hout]

/-- The high half of an argument that fits its low half. -/
theorem bitsOf_doorWord_high (tag : Byte) (cmd : Nat) (arg : Byte) :
    bitsOf (doorWord tag cmd (arg.setWidth 16)) 15 8 = 0 := by
  have harg := bitsOf_doorWord_arg tag cmd (arg.setWidth 16)
  have hlt := arg.isLt
  rw [BitVec.toNat_setWidth_of_le (by decide)] at harg
  simp only [bitsOf] at harg ⊢
  omega

theorem acceptDoor_regs (req : Requester) (p : Nat) (word : Word) (ticket : Nat) (s : State) :
    (acceptDoor req p word ticket s).regs = s.regs := by
  obtain ⟨d, hd⟩ := acceptDoor_only req p word ticket s
  rw [hd]

theorem acceptDoor_mem (req : Requester) (p : Nat) (word : Word) (ticket : Nat) (s : State) :
    (acceptDoor req p word ticket s).mem = s.mem := by
  obtain ⟨d, hd⟩ := acceptDoor_only req p word ticket s
  rw [hd]

theorem acceptDoor_now (req : Requester) (p : Nat) (word : Word) (ticket : Nat) (s : State) :
    (acceptDoor req p word ticket s).now = s.now := by
  obtain ⟨d, hd⟩ := acceptDoor_only req p word ticket s
  rw [hd]

/-- An accepted word is shown as ACCEPTED. -/
theorem doorShows_acceptDoor (req : Requester) (p : Nat) (word : Word) (ticket : Nat) (s : State) :
    DoorShows (acceptDoor req p word ticket s) req p word Oc.accepted := by
  simp [DoorShows, viewAt_acceptDoor]

theorem doorShows_setFrx {req : Requester} {p : Nat} {word : Word} {oc : Nat} {t : State} (h : DoorShows t req p word oc)
    (f : ReceiveUnit) : DoorShows (setFrx f t) req p word oc := h

theorem exec_capture (req : Requester) (tag : Byte) (arg : BitVec 16) (s : State) :
    exec (.capture req tag arg) s = .next (doorIssue 0x12 doorCapture req (doorWord tag 0x10 arg) s) := rfl

/-- The job that CAPTURE makes of the chains its argument names and the registers in force. -/
def captureAsked (arg : Byte) (id : Nat) (s : State) : CaptureJob :=
  { id := id
    chains := (List.range 8).filter (fun p => arg.getLsbD p)
    base := regBits s Reg.frxCapBase 20 0
    pairs := regBits s Reg.frxCapCtrl 12 0
    cycles := 2 ^ regBits s Reg.frxCapCtrl 30 28
    waiting := regBit s Reg.frxCapCtrl 31
    since := s.now }

/-- The mask that CAPTURE takes from its door word. -/
theorem getLsbD_captureMask (arg : Byte) (p : Nat) :
    (BitVec.ofNat 16 (arg.setWidth 16 : BitVec 16).toNat).getLsbD p = arg.getLsbD p := by
  rw [BitVec.ofNat_toNat, BitVec.setWidth_eq, BitVec.getLsbD_setWidth]
  by_cases hp : p < 16
  · simp [hp]
  · simp [hp, BitVec.getLsbD_of_ge arg p (by omega)]

/-- Up to 64 pairs of at most eight chains lie within Mortar from a base up to 0xFD000. -/
theorem capture_fits {base pairs : Nat} (f : Nat → Bool) (hb : base ≤ 0xFD000) (hp : pairs ≤ 64) :
    ¬ 0xFE000 < base + 8 * ((List.range 8).filter f).length * pairs := by
  have hlen : ((List.range 8).filter f).length ≤ 8 := by
    have hle := List.length_filter_le f (List.range 8)
    rwa [List.length_range] at hle
  have hsize : 8 * ((List.range 8).filter f).length * pairs ≤ 64 * 64 := Nat.mul_le_mul (by omega) hp
  omega

/-- CAPTURE of an enabled chain, its samples within Mortar and no capture in progress, is accepted. -/
theorem doorCapture_accepted {s : State} {req : Requester} {tag arg : Byte} {c : Fin 8}
    (h : DoorOpen s req 0x12 (doorWord tag 0x10 (arg.setWidth 16))) (hn : s.frx.capture = none)
    (hc : arg.getLsbD c.val = true) (he : regBit s (Reg.frxChainCfg + c.val) 31 = true)
    (hp : regBits s Reg.frxCapCtrl 12 0 ≤ 64) (hb : regBits s Reg.frxCapBase 20 0 ≤ 0xFD000) :
    doorCapture req (doorWord tag 0x10 (arg.setWidth 16)) s
      = (let t := acceptDoor req 0x12 (doorWord tag 0x10 (arg.setWidth 16)) 0 s
        setFrx { t.frx with capture := some (captureAsked arg s.doors.nextId s) } t) := by
  have hmem : c.val ∈ (List.range 8).filter (fun p => arg.getLsbD p && regBit s (Reg.frxChainCfg + p) 31) := by
    simp [hc, he]
  have henabled := List.isEmpty_eq_false_iff.2 (List.ne_nil_of_mem hmem)
  have hregs : ∀ i t, getReg (acceptDoor req 0x12 (doorWord tag 0x10 (arg.setWidth 16)) t s) i = getReg s i :=
    fun i t => getReg_of_regs_eq (acceptDoor_regs _ _ _ _ _) i
  unfold doorCapture
  simp only [bitsOf_doorWord_arg, bitsOf_doorWord_high, getLsbD_captureMask, hn, henabled, capture_fits _ hb hp,
    firstRefusal, bne_self_eq_false, decide_false, Option.isSome_none, Bool.false_eq_true, if_false]
  rw [doorWrite_accepted h]
  simp only [captureAsked, acceptDoor_now, regBits, regBit, hregs]

theorem finishCmd_frx (id oc : Nat) (s : State) : (finishCmd id oc s).frx = s.frx := by
  unfold finishCmd
  split
  · rfl
  · rw [raiseEvent_frx, showOutcome_frx]

theorem finishCmd_mem (id oc : Nat) (s : State) : (finishCmd id oc s).mem = s.mem := by
  unfold finishCmd
  split
  · rfl
  · rw [raiseEvent_mem, showOutcome_mem]

/-- A command that has reached its final outcome is no longer in progress. -/
theorem runningCmd_finishCmd (id oc : Nat) (s : State) : runningCmd (finishCmd id oc s) id = none := by
  unfold finishCmd
  split
  case h_1 h => exact h
  case h_2 =>
    rw [runningCmd, raiseEvent_doors, List.find?_eq_none]
    intro d hd
    simpa using (List.mem_filter.1 hd).2

/-- A capture whose time has come stores its words from BASE, where they stand from then on (log 34). -/
theorem captureDone_due {s : State} {j : CaptureJob} (h : s.frx.capture = some j) (hw : j.waiting = false)
    (hd : j.since + j.pairs * j.cycles ≤ s.now) (samples : List (Int × Int)) :
    captureDone samples s = finishCmd j.id Oc.done (setFrx { s.frx with capture := none }
      (engineWrite j.base (wordsBytes (captureWords j j.pairs samples)) s)) := by
  have hn : ¬ s.now < j.since + j.pairs * j.cycles := by omega
  simp [captureDone, h, hw, hn]

/-- A capture that has waited 1 s for a window ends. -/
theorem noWindow_due {s : State} {j : CaptureJob} (h : s.frx.capture = some j) (hw : j.waiting = true)
    (hd : passedMs s j.since 1000 = true) :
    noWindow s = finishCmd j.id 0x41 (setFrx { s.frx with capture := none } s) := by
  simp [noWindow, h, hw, hd]

/-! ## The statement -/

/-- A command completes in the state that its meaning is found to give. -/
theorem completes_of_next {c : Instr} {s t u : State} {P : State → Prop} (hc : exec c s = .next t) (htu : t = u)
    (hP : P u) : Completes c s P :=
  ⟨u, htu ▸ hc, hP⟩

/-- Settles O31: each event's meaning is first brought to the form it takes under its clause's hypotheses, from which the
reads of the state after it follow. -/
theorem receiveChains : Obligations.ReceiveChains := by
  intro s h4
  refine ⟨?begins, ?estimated, ?clip, ?trim, ?late, ?capture, ?captured, ?unseen⟩
  case begins =>
    intro hw hr
    exact ⟨_, rfl, replyDetected_reply h4 hw hr, replyDetected_regs h4 hw hr, replyDetected_mem h4 hw hr⟩
  case estimated =>
    intro r estimates vectors hr hf hw
    refine ⟨fun hfwd => ?_, fun hl => congrArg Host.Outcome.next (estimationWindowEnd_waits hr hf hw hl estimates vectors)⟩
    have hlate : lateMembers s r.number r.len (forwarding s) = [] := by rw [hfwd, lateMembers_zero]
    obtain ⟨hregs, hmem, -⟩ := formReply_only r estimates vectors [] s
    refine completes_of_next rfl (estimationWindowEnd_forms hr hf hw hlate estimates vectors)
      ⟨fun hk => ?_, fun hk => ?_, hregs, hmem⟩
    · rw [formReply_own_withdraws hfwd hk, setFrx_frx]
    · obtain ⟨q, hq, hformed, hqk, hmembers, hcoils, hchains, hfails⟩ := formReply_own_forms hfwd hk vectors
      obtain ⟨hrank, hkappa, hleft, hdisabled⟩ := mem_slotFails r (ownSources s r estimates) q.kappa r.used.length q.chains
      rw [← hfails] at hrank hkappa hleft hdisabled
      exact ⟨q, hq, hformed, hqk, hmembers, hcoils, hchains, hrank, hkappa, hleft, hdisabled⟩
  case clip =>
    intro c o
    refine ⟨_, rfl, chainClip_shows h4 c o, chainClip_uncounted h4 c o, chainClip_mem h4 c o, fun r hr ho => ?_⟩
    subst ho
    obtain ⟨hevent, hagain, hfirst⟩ := chainClip_in_reply h4 c hr
    exact ⟨hevent, hagain, fun hc => ⟨(hfirst hc).1, _, (hfirst hc).2, rfl⟩⟩
  case trim =>
    intro c full h3 hw hu he
    refine ⟨completes_of_next rfl (chainTrimStep_inRange h3 h4 hw hu he full) ?_,
      completes_of_next rfl (chainTrimStep_outOfRange h3 h4 hw hu he full) (faultChain_marks c s)⟩
    cases full with
    | true => exact ⟨rfl, rfl, rfl⟩
    | false => exact ⟨rfl, rfl, rfl⟩
  case late =>
    intro r own vectors since hr hw hp late hne
    obtain ⟨hregs, hmem, hformed⟩ := formReply_only r own vectors late (countLate r r.len late s)
    obtain ⟨hbits, hcount, hevent⟩ := countLate_marks (r := r) (symbols := r.len) hne
      (fun m hm => le_three_of_mem_lateMembers hm) s
    have hreg := getReg_of_regs_eq hregs
    refine completes_of_next rfl (cascWaitExpiry_forms h4 hr hw hp) ⟨fun m hm => ?_, ?_, ?_, hformed, ?_⟩
    · exact (regBit_congr (hreg _) _).trans (hbits m hm)
    · exact (hreg _).trans hcount
    · exact (regBit_congr (hreg _) _).trans hevent
    · exact hmem.trans (countLate_mem _ _ _ _)
  case capture =>
    intro req tag arg c hd hn hc he hp hb
    refine completes_of_next (exec_capture req tag _ s)
      ((doorIssue_open hd _).trans (doorCapture_accepted hd hn hc he hp hb))
      ⟨doorShows_setFrx (doorShows_acceptDoor _ _ _ _ _) _,
        ⟨captureAsked arg s.doors.nextId s, rfl, rfl, rfl, rfl, rfl, rfl⟩, ?_, ?_⟩
    · rw [setFrx_regs, acceptDoor_regs]
    · rw [setFrx_mem, acceptDoor_mem]
  case captured =>
    intro j samples hj hw hd
    refine completes_of_next rfl (captureDone_due hj hw hd samples) ⟨?_, runningCmd_finishCmd _ _ _, ?_⟩
    · rw [finishCmd_frx, setFrx_frx]
    · rw [finishCmd_mem, setFrx_mem]
  case unseen =>
    intro j hj hw hd
    refine completes_of_next rfl (noWindow_due hj hw hd) ⟨?_, runningCmd_finishCmd _ _ _, ?_⟩
    · rw [finishCmd_frx, setFrx_frx]
    · rw [finishCmd_mem, setFrx_mem]

end Sys2Proof.Machine

/-!
Sys2Proof/Proofs/MasonLiterals: shifts, literals, CRC steps and bit reversals of a mason (13), from what any instruction
that only moves words on the operand stack does.
-/
namespace Sys2Proof.Machine

/-! ## Instructions that only move words on the operand stack (13 R504) -/

/-- An instruction of one word whose meaning is that of a stack instruction. -/
theorem stackEffect_of_stackInstr {c : Instr} {m : Fin 5} {w : BitVec 14} {pops pushes cycles : Nat}
    {push : MasonUnit → List Word} (hc : ∀ s, exec c s = .next (stackInstr m w pops pushes cycles push s)) :
    StackEffect c m [w] pops pushes cycles push := fun s hi hroom =>
  (hc s).trans (congrArg Host.Outcome.next (stackInstr_effect hi hroom))

/-- An instruction of any number of words that has no cause to trap but the stack's own. -/
theorem stackEffect_of_runInstr {c : Instr} {m : Fin 5} {ws : List (BitVec 14)} {pops pushes cycles : Nat}
    {push : MasonUnit → List Word}
    (hc : ∀ s, exec c s = .next (runInstr m (fun _ => { words := ws, pops := pops, pushes := pushes })
      (fun u t => endInstr m ((u.pop pops).pushAll (push u)) (u.pc + ws.length) false cycles none t) s)) :
    StackEffect c m ws pops pushes cycles push := by
  intro s hi hroom
  obtain ⟨hrep, hhalt, hstep⟩ := hi.unit
  obtain ⟨hpops, hpushes⟩ := hroom
  have hfree := trapOf_none (k := { words := ws, pops := pops, pushes := pushes }) hi.inside hrep rfl rfl rfl rfl rfl
    hpops hpushes rfl
  obtain ⟨st, d, hp⟩ := pushAll_fields (push (unitNow s m)) ((unitNow s m).pop pops)
  rw [hc, runInstr_of_issues hi.issue hfree, hp]
  exact congrArg Host.Outcome.next (hi.end_ _ _ _ _ hrep hi.levels hi.notLe hhalt hstep)

/-! ## Fields and bytes of a word -/

/-- A count from the stack is its low five bits. -/
theorem bitsOf_lowFive (w : Word) : bitsOf w 4 0 = w.toNat % 32 := by
  simp [bitsOf]

theorem leBytes_one (w : Word) : leBytes 1 w.toNat = [w.setWidth 8] := rfl

/-- The eight bits of a number from bit `i` on are a field of its word. -/
theorem ofNat_byte (w : Word) (i : Nat) : BitVec.ofNat 8 (w.toNat / 2 ^ i) = w.extractLsb' i 8 := by
  rw [BitVec.extractLsb', Nat.shiftRight_eq_div_pow]

theorem leBytes_four (w : Word) : leBytes 4 w.toNat
    = [w.extractLsb' 0 8, w.extractLsb' 8 8, w.extractLsb' 16 8, w.extractLsb' 24 8] := by
  simp only [leBytes, ← ofNat_byte, Nat.div_div_eq_div_mul, Nat.pow_zero, Nat.div_one, Nat.reduceMul, Nat.reducePow]

/-- The word of four bytes has them one above the other. -/
theorem leWord_four (a b c d : Byte) : leWord [a, b, c, d] = d ++ c ++ b ++ a := by
  apply BitVec.eq_of_toNat_eq
  have ha := a.isLt
  have hb := b.isLt
  have hc := c.isLt
  have hd := d.isLt
  simp only [leWord, List.take, leNat, BitVec.toNat_ofNat, BitVec.toNat_append]
  rw [← Nat.shiftLeft_add_eq_or_of_lt hc, ← Nat.shiftLeft_add_eq_or_of_lt hb, ← Nat.shiftLeft_add_eq_or_of_lt ha]
  simp only [Nat.shiftLeft_eq]
  omega

/-! ## Bit reversal (13 R513) -/

theorem getLsbD_oneBit_ne {n i : Nat} (h : n ≠ i) : (oneBit n).getLsbD i = false := by
  rw [oneBit, BitVec.getLsbD_ofNat, Nat.testBit_two_pow_of_ne h, Bool.and_false]

/-- The low `n` bits of `v` moved to the places they have in the reversal of its low `w` bits. -/
def reflectFirst (w n : Nat) (v : Word) : Word :=
  (List.range n).foldl (fun r i => if bitAt v i then r ||| oneBit (w - 1 - i) else r) 0#32

theorem reflectIn_eq_reflectFirst (w : Nat) (v : Word) : reflectIn w v = reflectFirst w w v := rfl

theorem reflectFirst_succ (w n : Nat) (v : Word) : reflectFirst w (n + 1) v
    = if bitAt v n then reflectFirst w n v ||| oneBit (w - 1 - n) else reflectFirst w n v := by
  rw [reflectFirst, List.range_succ, List.foldl_append]
  rfl

/-- Bit j holds bit w − 1 − j once that one has been moved. -/
theorem getLsbD_reflectFirst {w n j : Nat} (hn : n ≤ w) (hj : j < w) (hw : w ≤ 32) (v : Word) :
    (reflectFirst w n v).getLsbD j = (decide (w - 1 - j < n) && v.getLsbD (w - 1 - j)) := by
  induction n with
  | zero => simp [reflectFirst]
  | succ n ih =>
    rw [reflectFirst_succ, bitAt]
    by_cases hat : w - 1 - j = n
    · have hplace : w - 1 - n = j := by omega
      have hbit := getLsbD_oneBit j (by omega)
      cases hv : v.getLsbD n <;> simp [ih (by omega), hbit, hat, hplace, hv]
    · have hbit := getLsbD_oneBit_ne (n := w - 1 - n) (i := j) (by omega)
      have hlt : w - 1 - j < n + 1 ↔ w - 1 - j < n := by omega
      cases v.getLsbD n <;> simp [ih (by omega), hbit, hlt]

/-- The reversal of the low `w` bits moves bit i to bit w − 1 − i. -/
theorem getLsbD_reflectIn {w j : Nat} (hj : j < w) (hw : w ≤ 32) (v : Word) :
    (reflectIn w v).getLsbD j = v.getLsbD (w - 1 - j) := by
  have hmoved : w - 1 - j < w := by omega
  rw [reflectIn_eq_reflectFirst, getLsbD_reflectFirst (Nat.le_refl w) hj hw, decide_eq_true hmoved, Bool.true_and]

theorem reflectIn_word (v : Word) : reflectIn 32 v = v.reverse := by
  apply BitVec.eq_of_getLsbD_eq
  intro i hi
  rw [getLsbD_reflectIn hi (Nat.le_refl 32), BitVec.getLsbD_reverse, BitVec.getMsbD_eq_getLsbD, decide_eq_true hi,
    Bool.true_and]

theorem reflectIn_byte (b : Byte) : BitVec.ofNat 8 (reflectIn 8 (b.setWidth 32)).toNat = b.reverse := by
  apply BitVec.eq_of_getLsbD_eq
  intro i hi
  have hlow : 8 - 1 - i < 32 := by omega
  rw [BitVec.getLsbD_ofNat, BitVec.testBit_toNat, getLsbD_reflectIn hi (by decide), BitVec.getLsbD_setWidth,
    BitVec.getLsbD_reverse, BitVec.getMsbD_eq_getLsbD, decide_eq_true hi, decide_eq_true hlow, Bool.true_and]

/-- Each byte of the word is reversed in its place. -/
theorem reverseBytes_eq (w : Word) : reverseBytes w = (w.extractLsb' 24 8).reverse ++ (w.extractLsb' 16 8).reverse
    ++ (w.extractLsb' 8 8).reverse ++ (w.extractLsb' 0 8).reverse := by
  simp only [reverseBytes, leBytes_four, List.map, reflectIn_byte, leWord_four]

/-! ## The statement -/

/-- Settles O4: every one of them is a stack instruction, of one word or, for the long literals, of two. Most push what the
statement says as it stands; for a count from the stack, CRCB and the reversals its value is first put in the model's terms. -/
theorem masonShiftsAndLiterals : Obligations.MasonShiftsAndLiterals := by
  refine ⟨fun m => ⟨fun n => ⟨?shl, ?shr, ?sar, ?rol⟩, ?shlv, ?shrv, ?sarv, fun i => ⟨?addi, ?lit, ?litu⟩, fun n => ?mfs,
    fun p f => ?pget⟩, fun m => ⟨?crcb, ?crcw, ?brev, ?brevb, fun k => ⟨?litLong, ?litx⟩⟩⟩
  case shlv | shrv | sarv =>
    refine stackEffect_of_stackInstr fun s => ?_
    simp only [← bitsOf_lowFive]
    rfl
  case crcb =>
    refine stackEffect_of_stackInstr fun s => ?_
    simp only [← leBytes_one]
    rfl
  case brev =>
    refine stackEffect_of_stackInstr fun s => ?_
    simp only [← reflectIn_word]
    rfl
  case brevb =>
    refine stackEffect_of_stackInstr fun s => ?_
    simp only [← reverseBytes_eq]
    rfl
  case litLong | litx => exact stackEffect_of_runInstr fun _ => rfl
  case shl | shr | sar | rol | addi | lit | litu | mfs | pget | crcw => exact stackEffect_of_stackInstr fun _ => rfl

end Sys2Proof.Machine

/-!
Sys2Proof/Proofs/Timers: the timers (14 R527 to R540), from what one write, tick or edge of a timer changes and what it leaves.
-/
namespace Sys2Proof.Machine

/-! ## Bits and places -/

theorem bitsOf_lt (w : Word) (m l : Nat) : bitsOf w m l < 2 ^ (m + 1 - l) := Nat.mod_lt _ (Nat.two_pow_pos _)

/-- A bit that is set stays set when any bit of its register is set. -/
theorem regBit_setRegBit_of_set (i k n : Nat) {s : State} (h : regBit s i n = true) :
    regBit (setRegBit i k s) i n = true := by
  rw [regBit, bitAt] at h
  rw [regBit, setRegBit, getReg_setReg_self, bitAt, BitVec.getLsbD_or, h, Bool.true_or]

/-- A bit cleared leaves every other. -/
theorem regBit_clearRegBit_ne {b c : Nat} (h : b ≠ c) (i j : Nat) (s : State) :
    regBit (clearRegBit i b s) j c = regBit s j c := by
  by_cases hj : j = i
  · subst hj
    rw [regBit, clearRegBit, getReg_setReg_self, bitAt, BitVec.getLsbD_and, BitVec.getLsbD_not, getLsbD_oneBit_ne h]
    by_cases hc : c < 32
    · simp [hc, regBit, bitAt]
    · simp [hc, regBit, bitAt, BitVec.getLsbD_of_ge _ c (Nat.not_lt.1 hc)]
  · exact regBit_congr (getReg_clearRegBit_ne _ _ _ _ hj) c

/-- A place of a list that has one for each timer, once set. -/
theorem getD_set_sixteen {l : List Nat} (n : Fin 16) (k : Nat) (h : l.length = 16) :
    (l.set n.val k).getD n.val 0 = k := by
  have hn : n.val < l.length := Nat.lt_of_lt_of_eq n.isLt h.symm
  simp [List.getD_eq_getElem?_getD, hn]

/-! ## The registers of the timers (14 R541) -/

theorem timerReg_page {off : Nat} (hoff : off < 15) (n : Nat) : timerReg n off / 256 = timerPage n := by
  simp only [timerReg]; omega

theorem timerReg_offset {off : Nat} (hoff : off < 15) (n : Nat) : timerReg n off % 256 = 0x18 + 15 * (n % 8) + off := by
  simp only [timerReg]; omega

theorem timerPage_eq (n : Fin 16) : timerPage n.val = 7 ∨ timerPage n.val = 8 := by
  simp only [timerPage]; omega

theorem timerOf_timerReg (n : Fin 16) {off : Nat} (hoff : off < 15) :
    timerOf (timerReg n.val off) = some (n.val, off) := by
  have hpage : (timerPage n.val - 7) * 8 + n.val % 8 = n.val := by simp only [timerPage]; omega
  have hrow : (0x18 + 15 * (n.val % 8) + off - 0x18) / 15 = n.val % 8 := by omega
  have hcol : (0x18 + 15 * (n.val % 8) + off - 0x18) % 15 = off := by omega
  have hlast : 0x18 + 15 * (n.val % 8) + off < 0x18 + 120 := by omega
  have hfirst : 0x18 ≤ 0x18 + 15 * (n.val % 8) + off := by omega
  simp only [timerOf, timerReg_page hoff, timerReg_offset hoff, hrow, hcol, hpage]
  rw [if_pos ⟨timerPage_eq n, hfirst, hlast⟩]

/-- The index of a timer register tells its timer and its place in the template. -/
theorem timerReg_inj {a b m n : Nat} (ha : a < 15) (hb : b < 15) (h : timerReg m a = timerReg n b) : m = n ∧ a = b := by
  have hpage : timerPage m = timerPage n := by rw [← timerReg_page ha m, h, timerReg_page hb]
  have hplace : 0x18 + 15 * (m % 8) + a = 0x18 + 15 * (n % 8) + b := by
    rw [← timerReg_offset ha m, h, timerReg_offset hb]
  have hrow : m % 8 = n % 8 := by omega
  simp only [timerPage] at hpage
  omega

/-- Registers at different places of the template are different, whatever their timers. -/
theorem timerReg_ne {a b : Nat} (ha : a < 15) (hb : b < 15) (h : a ≠ b) (m n : Nat) : timerReg m a ≠ timerReg n b :=
  fun e => h (timerReg_inj ha hb e).2

/-- Registers of different timers are different. -/
theorem timerReg_ne_of_ne {a b m n : Nat} (ha : a < 15) (hb : b < 15) (h : m ≠ n) : timerReg m a ≠ timerReg n b :=
  fun e => h (timerReg_inj ha hb e).1

/-- No register of a timer is a header register. -/
theorem timerReg_ne_pageReg {a b : Nat} (ha : a < 15) (hb : b < 16) (m p : Nat) : timerReg m a ≠ pageReg p b := by
  intro e
  have hplace := timerReg_offset ha m
  rw [e, pageReg] at hplace
  omega

/-- The row of a timer register is that of its place in the template. -/
theorem rowAt_timerReg : ∀ (n : Fin 16) (off : Fin 14), (rowAt (timerReg n.val off.val)).map (·.1) = rowsTm[off.val]? := by
  decide

/-- The registers that every timer has are never reserved (14 R533). -/
theorem rowNow_timerReg (s : State) (n : Fin 16) {off : Nat} (hoff : off < 8) :
    rowNow s (timerReg n.val off) = rowsTm[off]? := by
  have hres : timerReserved s n.val off = false := by simp [timerReserved, Nat.not_le.2 hoff]
  rw [rowNow, timerOf_timerReg n (by omega)]
  simp only [hres, Bool.false_eq_true, if_false]
  exact rowAt_timerReg n ⟨off, by omega⟩

/-! ## What a timer leaves as it is -/

/-- The registers of the two timer pages. -/
def onTimerPage (i : Nat) : Prop := i / 256 = 7 ∨ i / 256 = 8

theorem onTimerPage_timerReg (n : Fin 16) {off : Nat} (hoff : off < 15) : onTimerPage (timerReg n.val off) := by
  rw [onTimerPage, timerReg_page hoff]
  exact timerPage_eq n

theorem onTimerPage_event (n : Fin 16) : onTimerPage (pageReg (timerPage n.val) 4) := by
  have hpage := timerPage_eq n
  simp only [onTimerPage, pageReg]
  omega

/-- From `s` to `t` no register beyond those named, no byte of memory and no transaction's hold on a register has changed. -/
structure TimerFrame (named : Nat → Prop) (s t : State) : Prop where
  regs : ∀ i, ¬ named i → getReg t i = getReg s i
  mem : t.mem = s.mem
  held : t.txn.ids.map Txn.touches = s.txn.ids.map Txn.touches

namespace TimerFrame

variable {named : Nat → Prop} {s t u : State}

theorem refl (s : State) : TimerFrame named s s := ⟨fun _ _ => rfl, rfl, rfl⟩

theorem trans (h : TimerFrame named s t) (g : TimerFrame named t u) : TimerFrame named s u :=
  ⟨fun i hi => (g.regs i hi).trans (h.regs i hi), g.mem.trans h.mem, g.held.trans h.held⟩

theorem mono {wider : Nat → Prop} (h : TimerFrame named s t) (hw : ∀ i, named i → wider i) : TimerFrame wider s t :=
  ⟨fun i hi => h.regs i (fun hn => hi (hw i hn)), h.mem, h.held⟩

/-- A change of what the timers hold beyond their registers. -/
theorem setTimers (v : TimerUnit) (s : State) : TimerFrame named s (setTimers v s) := ⟨fun _ _ => rfl, rfl, rfl⟩

theorem setReg {i : Nat} (hi : named i) (w : Word) (s : State) : TimerFrame named s (setReg i w s) :=
  ⟨fun _ hj => getReg_setReg_ne _ _ _ _ (fun e => hj (e ▸ hi)), rfl, rfl⟩

/-- A commit condition that is met leaves each transaction its registers. -/
theorem conditionEvent (c : Nat) (s : State) : TimerFrame named s (conditionEvent c s) := by
  refine ⟨fun _ _ => rfl, rfl, ?_⟩
  rw [Machine.conditionEvent, List.map_map]
  refine List.map_congr_left fun x _ => ?_
  simp only [Function.comp_apply]
  split <;> rfl

theorem ite {c : Prop} [Decidable c] (ht : TimerFrame named s t) (hu : TimerFrame named s u) :
    TimerFrame named s (if c then t else u) := by
  split
  · exact ht
  · exact hu

theorem foldl {α : Type} (f : State → α → State) (l : List α) (hf : ∀ a ∈ l, ∀ t, TimerFrame named t (f t a))
    (s : State) :
    TimerFrame named s (l.foldl f s) := by
  induction l generalizing s with
  | nil => exact refl s
  | cons a l ih =>
    have hfirst := hf a List.mem_cons_self s
    exact hfirst.trans (ih (fun b hb => hf b (List.mem_cons_of_mem _ hb)) _)

end TimerFrame

/-- STATUS of timer `n`, which shows the output level. -/
def showsLevel (n i : Nat) : Prop := i = timerReg n 7

theorem showsLevel_status (n : Nat) : showsLevel n (timerReg n 7) := rfl

theorem pinAction_frame (n act : Nat) (s : State) : TimerFrame (showsLevel n) s (pinAction n act s) :=
  .ite (.refl s) (.ite (.setReg (showsLevel_status n) _ s) (.ite (.setReg (showsLevel_status n) _ s)
    (.ite (.setReg (showsLevel_status n) _ s) (.refl s))))

/-- The registers in which an event of timer `n` shows: STATUS and its page's EVENT. -/
def showsEvent (n i : Nat) : Prop := i = timerReg n 7 ∨ i = pageReg (timerPage n) 4

theorem not_showsEvent_timerReg {off : Nat} (hoff : off < 15) (h7 : off ≠ 7) (m n : Nat) :
    ¬ showsEvent n (timerReg m off) := by
  rintro (e | e)
  · exact timerReg_ne hoff (by omega) h7 m n e
  · exact timerReg_ne_pageReg hoff (by omega) m _ e

theorem onTimerPage_of_showsEvent (n : Fin 16) (i : Nat) (h : showsEvent n.val i) : onTimerPage i := by
  rcases h with rfl | rfl
  · exact onTimerPage_timerReg n (by omega)
  · exact onTimerPage_event n

theorem raiseEvent_frame (n b : Nat) (s : State) : TimerFrame (showsEvent n) s (raiseEvent (timerPage n) b s) :=
  .setReg (.inr rfl) _ s

theorem timerMatch_frame (n : Nat) (s : State) : TimerFrame (showsEvent n) s (timerMatch n s) :=
  ((raiseEvent_frame n _ s).trans (.conditionEvent _ _)).trans ((pinAction_frame n _ _).mono fun _ => .inl)

theorem timerOverflow_frame (n : Nat) (s : State) : TimerFrame (showsEvent n) s (timerOverflow n s) :=
  (raiseEvent_frame n _ s).trans ((pinAction_frame n _ _).mono fun _ => .inl)

/-- The registers that hold the count of timer `n`, alone or as the low half of a pair. -/
def holdsCount (n i : Nat) : Prop := i = timerReg n 1 ∨ i = timerReg (n + 1) 1

theorem setTimerCount_frame (n c : Nat) (s : State) : TimerFrame (holdsCount n) s (setTimerCount n c s) :=
  .ite ((TimerFrame.setReg (.inl rfl) _ s).trans (.setReg (.inr rfl) _ _)) (.setReg (.inl rfl) _ s)

/-! ## A register write that nothing stands in the way of (00 R11, 04 R168, 16 R591) -/

/-- No transaction holds register `i`. -/
theorem touches_txnAt {s : State} {i : Nat} (h : s.txn.ids.all (fun x => !(x.touches i)) = true) (k : Nat) :
    (txnAt s k).touches i = false := by
  rw [txnAt, List.getD_eq_getElem?_getD]
  cases hk : s.txn.ids[k]? with
  | none => rfl
  | some x => simpa using List.all_eq_true.1 h x (List.mem_of_getElem? hk)

theorem heldByApply_of_free {s : State} {i : Nat} (h : s.txn.ids.all (fun x => !(x.touches i)) = true) :
    heldByApply s i = false := by
  simp [heldByApply, frozenHolds, touches_txnAt h]

/-- A write of a register that no transaction holds dooms none. -/
theorem conflict_of_free {s : State} {i : Nat} (h : s.txn.ids.all (fun x => !(x.touches i)) = true) :
    conflict i none s = s := by
  have hstep : ∀ l : List Nat, l.foldl (fun t k =>
      if some k ≠ none ∧ (txnAt t k).touches i then doomTxn k Ab.conflict t else t) s = s := by
    intro l
    induction l with
    | nil => rfl
    | cons k l ih => simpa [touches_txnAt h] using ih
  exact hstep _

theorem mirrorWrite_of_solo {s : State} (h : twinRole s ≠ 1) (req : Requester) (i : Nat) (w : Word) :
    mirrorWrite req i w s = s := by
  simp [mirrorWrite, mirror, mirrors, h]

theorem TimerFrame.free {named : Nat → Prop} {s t : State} (h : TimerFrame named s t) (i : Nat) :
    t.txn.ids.all (fun x => !(x.touches i)) = s.txn.ids.all (fun x => !(x.touches i)) := by
  have hall : ∀ l : List Txn, l.all (fun x => !(x.touches i)) = (l.map Txn.touches).all (fun f => !(f i)) := fun l => by
    rw [List.all_map]
    rfl
  rw [hall, hall, h.held]

theorem TimerFrame.twinRole {s t : State} (h : TimerFrame onTimerPage s t) : twinRole t = twinRole s := by
  have haway : ¬ onTimerPage Reg.twnStatus := by simp [onTimerPage, Reg.twnStatus]
  rw [Machine.twinRole, Machine.twinRole, regBits, regBits, h.regs _ haway]

/-- A write met by WriteOpen of a register on a timer page is what its application does, if that stays with the timers. -/
theorem issueWrite_onTimerPage {s : State} {req : Requester} {i : Nat} {w : Word} (h : WriteOpen s req i w)
    (hi : onTimerPage i) (ht : TimerFrame onTimerPage s (applyWrite req i w s)) :
    issueWrite req i w s = applyWrite req i w s := by
  have hrole : isRole i = false := by
    rcases hi with hp | hp <;> simp [isRole, hp, pagePath]
  have hsettle : settleWrite false req i w s = applyWrite req i w s := by
    simp only [settleWrite, h.accepted, Bool.false_eq_true, if_false, hrole]
    exact conflict_of_free ((ht.free i).trans h.free)
  have hwrite : writeRegister false req i w s = applyWrite req i w s := by
    simp only [writeRegister, h.page, h.first, h.up, h.debug, heldByApply_of_free h.free, Bool.not_true, Bool.false_eq_true,
      if_false, hsettle]
  have hsolo : twinRole (applyWrite req i w s) ≠ 1 := ht.twinRole ▸ h.solo
  rw [issueWrite_open h, directWrite, arrivingWrite]
  simp only [hwrite, mirrorWrite_of_solo hsolo, ite_self]

/-! ## Writes of timer registers (14 R527 to R539) -/

theorem restartPrescaler_frame {named : Nat → Prop} (n : Nat) (s : State) : TimerFrame named s (restartPrescaler n s) :=
  .setTimers _ s

theorem setEdges_frame {named : Nat → Prop} (n k : Nat) (s : State) :
    TimerFrame named s (setEdges n k s) := .setTimers _ s

theorem retakeInput_frame {named : Nat → Prop} (n : Nat) (s : State) :
    TimerFrame named s (retakeInput n s) := .setTimers _ s

/-- The start of a timer touches no register but its STATUS. -/
theorem timerStarted_frame (n : Nat) (s : State) : TimerFrame (showsLevel n) s (timerStarted n s) := by
  have hstart := ((setEdges_frame (named := showsLevel n) n 0 s).trans (retakeInput_frame n _)).trans
    (restartPrescaler_frame n _)
  exact .ite (hstart.trans (.setReg (showsLevel_status n) _ _)) hstart

/-- What a write of CTRL starts of timer `n`: nothing, the prescaler, or the timer as a whole (14 R527, R537). -/
def ctrlStarts (n : Nat) (old : Word) (s : State) : State :=
  if bitAt (getReg s (timerReg n 0)) 31 then (if bitAt old 31 then restartPrescaler n s else timerStarted n s) else s

/-- What follows a write of CTRL: what it starts, and the capture input looked at afresh where CAP_EN is newly set. -/
theorem timerWritten_ctrl (n : Nat) (old : Word) (s : State) : timerWritten n 0 old s
    = if bitAt (getReg s (timerReg n 0)) 28 && !(bitAt old 28) then retakeInput n (setEdges n 0 (ctrlStarts n old s))
      else ctrlStarts n old s := rfl

theorem timerWritten_ctrl_frame (n : Nat) (old : Word) (s : State) :
    TimerFrame (showsLevel n) s (timerWritten n 0 old s) := by
  have hstart : TimerFrame (showsLevel n) s (ctrlStarts n old s) :=
    .ite (.ite (restartPrescaler_frame n s) (timerStarted_frame n s)) (.refl s)
  rw [timerWritten_ctrl]
  exact .ite ((hstart.trans (setEdges_frame n 0 _)).trans (retakeInput_frame n _)) hstart

theorem timerStarted_edges (n : Nat) (s : State) : (timerStarted n s).timers.edges = s.timers.edges.set n 0 := by
  simp only [timerStarted, apply_ite State.timers, setRegBits_timers, ite_self]
  rfl

/-- Where EN is newly set the edge counter restarts, whether or not CAP_EN is set with it (14 R537). -/
theorem timerWritten_ctrl_edges {n : Nat} {old : Word} {s : State} (hnew : bitAt (getReg s (timerReg n 0)) 31 = true)
    (hold : bitAt old 31 = false) : (timerWritten n 0 old s).timers.edges = s.timers.edges.set n 0 := by
  have hstart : ctrlStarts n old s = timerStarted n s := by
    simp only [ctrlStarts, hnew, hold, if_true, Bool.false_eq_true, if_false]
  have hagain : (retakeInput n (setEdges n 0 (timerStarted n s))).timers.edges = (timerStarted n s).timers.edges.set n 0 := rfl
  rw [timerWritten_ctrl, hstart]
  split
  · rw [hagain, timerStarted_edges, List.set_set]
  · exact timerStarted_edges n s

/-- Nothing follows a write of CNT or TOP (14 R529). -/
theorem timerWritten_count {off : Nat} (h : off = 1 ∨ off = 2) (n : Nat) (old : Word) (s : State) :
    timerWritten n off old s = s := by
  rcases h with rfl | rfl <;> simp [timerWritten]

/-- What follows a write of CMP of a timer that is not linked: the match, where CMP has changed and is passed (14 R534). -/
theorem timerWritten_cmp {n : Nat} {s : State} (h : timerLinked s n = false) (old : Word) : timerWritten n 3 old s
    = if getReg s (timerReg n 3) ≠ old ∧ timerRuns s n ∧ cmpPassed s n then timerMatch n s else s := by
  simp [timerWritten, h]

/-- What follows a write of a register that every timer has stays with the timers. -/
theorem timerWritten_frame (n : Fin 16) {off : Nat} (hoff : off < 8) (old : Word) (s : State) :
    TimerFrame onTimerPage s (timerWritten n.val off old s) := by
  have hstatus : onTimerPage (timerReg n.val 7) := onTimerPage_timerReg n (by omega)
  by_cases h0 : off = 0
  · subst h0
    exact (timerWritten_ctrl_frame n.val old s).mono (fun i hi => hi ▸ hstatus)
  have h8 : off ≠ 8 := by omega
  simp only [timerWritten, h0, h8, if_false]
  exact .ite (.ite (.refl s) (retakeInput_frame n.val s))
    (.ite (.ite (.setReg hstatus _ s) (.refl s))
      (.ite (.ite ((timerMatch_frame n.val s).mono (onTimerPage_of_showsEvent n)) (.refl s)) (.refl s)))

/-- What follows a change of a timer register is the timer's own. -/
theorem written_timerReg (req : Requester) (n : Fin 16) {off : Nat} (hoff : off < 15) (old : Word) (s : State) :
    written req (timerReg n.val off) old s = timerWritten n.val off old s := by
  have hpage : timerReg n.val off / 256 < 0x10 := by
    rw [timerReg_page hoff]
    rcases timerPage_eq n with hp | hp <;> omega
  have hplace : ¬ timerReg n.val off % 256 < 16 := by rw [timerReg_offset hoff]; omega
  have hne : ∀ r, ¬ onTimerPage r → timerReg n.val off ≠ r := fun r hr e => hr (e ▸ onTimerPage_timerReg n hoff)
  simp [written, writtenKeystone, hpage, hplace, timerOf_timerReg n hoff, hne, onTimerPage, Reg.clkPlumb, Reg.clkAlarmSec,
    Reg.clkAlarmSub, Reg.clkRtcCtrl, Reg.mptXipCtrl, Reg.twnCtrl, Reg.cscCtrl, Reg.cscPortCtrl]

/-- A register of a timer that is written is stored, and what follows is the timer's own. -/
theorem storeWrite_timerReg (req : Requester) (n : Fin 16) {off : Nat} (hoff : off < 15) (r : RegRow) (w : Word)
    (s : State) :
    storeWrite req (timerReg n.val off) r w s = timerWritten n.val off (getReg s (timerReg n.val off))
      (setReg (timerReg n.val off) (r.merge (getReg s (timerReg n.val off)) w) s) := by
  have hne : ∀ r, r % 256 < 0x18 → timerReg n.val off ≠ r := fun r hr e => by
    rw [← e, timerReg_offset hoff] at hr
    omega
  have hmason : msPage (timerReg n.val off / 256) = none := by
    rw [timerReg_page hoff]
    rcases timerPage_eq n with hp | hp <;> rw [hp] <;> rfl
  simp [storeWrite, hmason, hne, Reg.tmaGlobalStart, Reg.tmaGlobalStop, Reg.clkXtal,
    Reg.vlqDoneMap, written_timerReg req n hoff]

/-- A register that every timer has is stored when it is written, and what follows from it is the timer's own. -/
theorem applyWrite_timerReg (req : Requester) (n : Fin 16) {off : Nat} (hoff : off < 8) (w : Word) (s : State) :
    applyWrite req (timerReg n.val off) w s
      = timerWritten n.val off (getReg s (timerReg n.val off)) (withWritten s (timerReg n.val off) w) := by
  obtain ⟨r, hr⟩ : ∃ r, rowsTm[off]? = some r := ⟨_, List.getElem?_eq_getElem (by simp [rowsTm]; omega)⟩
  have hrow := (rowNow_timerReg s n hoff).trans hr
  have hoff16 : ¬ timerReg n.val off % 256 < 16 := by rw [timerReg_offset (by omega)]; omega
  have hresult : resultBlock (timerReg n.val off / 256) = none := by
    rw [timerReg_page (by omega)]
    rcases timerPage_eq n with hp | hp <;> rw [hp] <;> rfl
  simp only [applyWrite, withWritten, mergedWord, hrow, hoff16, hresult, if_false]
  exact storeWrite_timerReg req n (by omega) r w s

/-- A write of such a register met by WriteOpen. -/
theorem issueWrite_timerReg {s : State} {req : Requester} {n : Fin 16} {off : Nat} (hoff : off < 8) {w : Word}
    (h : WriteOpen s req (timerReg n.val off) w) : issueWrite req (timerReg n.val off) w s
      = timerWritten n.val off (getReg s (timerReg n.val off)) (withWritten s (timerReg n.val off) w) := by
  have hpage : onTimerPage (timerReg n.val off) := onTimerPage_timerReg n (by omega)
  have happly := applyWrite_timerReg req n hoff w s
  refine (issueWrite_onTimerPage h hpage ?_).trans happly
  rw [happly]
  exact (TimerFrame.setReg hpage _ s).trans (timerWritten_frame n hoff _ _)

/-- Bit 29 of CTRL is LINK, which is stored as it is written. -/
theorem bitAt_mergedWord_link (s : State) (n : Fin 16) (w : Word) :
    bitAt (mergedWord s (timerReg n.val 0) w) 29 = bitAt w 29 := by
  simp [mergedWord, rowNow_timerReg s n, rowsTm, RegRow.merge, FieldRow.merge, fieldRow, bitAt, maskOf]

theorem getReg_withWritten (s : State) (i : Nat) (w : Word) : getReg (withWritten s i w) i = mergedWord s i w :=
  getReg_setReg_self _ _ _

theorem getReg_withWritten_ne {i j : Nat} (h : j ≠ i) (s : State) (w : Word) :
    getReg (withWritten s i w) j = getReg s j :=
  getReg_setReg_ne _ _ _ _ h

/-! ## Reads of CNT (14 R532) -/

/-- A page that is on and not being switched off is not waited for. -/
theorem waitsReady_of_pageUp {s : State} {p : Nat} (h : pageUp s p = true) : waitsReady s (pageDomain p) = false := by
  simp only [pageUp, domainOn, Bool.and_eq_true] at h
  simp [waitsReady, h.1.2]

/-- A read of CNT that nothing holds up captures the other half of a linked count. -/
theorem readRegister_count {s : State} {req : Requester} {n : Fin 16} (hup : pageUp s (timerReg n.val 1 / 256) = true)
    (hfirst : crossingWaits s req (timerReg n.val 1) = false) :
    (readRegister req (timerReg n.val 1) s).1 = captureHalf (Requester.set req) n.val 1 s := by
  have hdir : inDirectory (timerReg n.val 1 / 256) = true := by
    rw [timerReg_page (by omega)]
    rcases timerPage_eq n with hp | hp <;> rw [hp] <;> rfl
  have hdebug : debugHides s (timerReg n.val 1) = false := by
    rw [debugHides, timerReg_page (by omega)]
    rcases timerPage_eq n with hp | hp <;> rw [hp] <;> rfl
  have hready : readWaits s (timerReg n.val 1) = false := by rw [readWaits, waitsReady_of_pageUp hup, Bool.and_false]
  simp only [readRegister, hdir, hready, hfirst, hup, hdebug, Bool.not_true, Bool.or_self, Bool.and_false,
    Bool.false_eq_true, if_false, readEffect, timerOf_timerReg n (show 1 < 15 by omega)]

/-- The count of the other half, as a linked half's read takes it. -/
theorem captureHalf_linked {s : State} {n : Nat} (h : timerLinked s n = true) (set : Nat) :
    keyFind (captureHalf set n 1 s).timers.snaps (snapOf set n (n % 2))
        = some (BitVec.ofNat 32 (regBits s (timerReg (if n % 2 = 0 then n + 1 else n - 1) 1) 15 0))
      ∧ (captureHalf set n 1 s).regs = s.regs ∧ (captureHalf set n 1 s).mem = s.mem := by
  rw [captureHalf, if_pos ⟨rfl, h⟩]
  exact ⟨keyFind_keySet_self _ _ _, rfl, rfl⟩

/-! ## The global start and stop (14 R540) -/

/-- Whether a write of the global start or stop moves EN of timer `n` (14 R540). -/
def globalMoves (on : Bool) (mask : Word) (s : State) (n : Nat) : Bool :=
  bitAt mask n && timerEn s n != on && !(highHalf s n)

/-- A write of the global start or stop at one timer, `s` being the state before the write. -/
def globalTimer (on : Bool) (mask : Word) (s t : State) (n : Nat) : State :=
  if globalMoves on mask s n then
    (if on then t |> setRegBit (timerReg n 0) 31 |> timerStarted n else clearRegBit (timerReg n 0) 31 t)
  else t

theorem globalTimers_eq (on : Bool) (mask : Word) (s : State) :
    globalTimers on mask s = (List.range 16).foldl (globalTimer on mask s) s := rfl

theorem timerEn_timerStarted (m k : Nat) (s : State) : timerEn (timerStarted m s) k = timerEn s k :=
  regBit_congr ((timerStarted_frame m s).regs _ (timerReg_ne (by omega) (by omega) (by omega) k m)) 31

theorem timerEn_setRegBit (n k : Nat) (s : State) :
    timerEn (setRegBit (timerReg n 0) 31 s) k = if n = k then true else timerEn s k := by
  split
  next hk => exact hk ▸ regBit_setRegBit _ 31 s (by decide)
  next hk => exact regBit_congr (getReg_setRegBit_ne _ _ _ _ (timerReg_ne_of_ne (by omega) (by omega) (Ne.symm hk))) 31

theorem timerEn_clearRegBit (n k : Nat) (s : State) :
    timerEn (clearRegBit (timerReg n 0) 31 s) k = if n = k then false else timerEn s k := by
  split
  next hk => exact hk ▸ regBit_clearRegBit _ 31 s (by decide)
  next hk => exact regBit_congr (getReg_clearRegBit_ne _ _ _ _ (timerReg_ne_of_ne (by omega) (by omega) (Ne.symm hk))) 31

/-- EN of a timer that is moved becomes what the write asks for; every other stays. -/
theorem timerEn_globalTimer (on : Bool) (mask : Word) (s t : State) (n k : Nat) :
    timerEn (globalTimer on mask s t n) k = if n = k ∧ globalMoves on mask s k = true then on else timerEn t k := by
  rw [globalTimer]
  cases hm : globalMoves on mask s n with
  | false =>
    have hstays : ¬ (n = k ∧ globalMoves on mask s k = true) := fun h => by simp [← h.1, hm] at h
    rw [if_neg hstays]
    rfl
  | true =>
    have hmoves : (n = k ∧ globalMoves on mask s k = true) ↔ n = k := ⟨And.left, fun h => ⟨h, h ▸ hm⟩⟩
    cases on with
    | false => simp only [hmoves, if_true, Bool.false_eq_true, if_false, timerEn_clearRegBit]
    | true => simp only [hmoves, if_true, timerEn_timerStarted, timerEn_setRegBit]

theorem timerEn_foldl_globalTimer (on : Bool) (mask : Word) (s : State) (k : Nat) (l : List Nat) (t : State) :
    timerEn (l.foldl (globalTimer on mask s) t) k
      = if k ∈ l ∧ globalMoves on mask s k = true then on else timerEn t k := by
  induction l generalizing t with
  | nil => simp
  | cons n l ih =>
    rw [List.foldl_cons, ih, timerEn_globalTimer]
    cases globalMoves on mask s k with
    | false => simp
    | true => by_cases hn : n = k <;> by_cases hl : k ∈ l <;> simp [hl, hn, Ne.symm]

/-- The global start and stop touch CTRL and STATUS of timers only. -/
theorem globalTimers_frame (on : Bool) (mask : Word) (s : State) : TimerFrame onTimerPage s (globalTimers on mask s) := by
  rw [globalTimers_eq]
  refine .foldl _ _ (fun n hn t => ?_) s
  have hctrl : onTimerPage (timerReg n 0) := onTimerPage_timerReg ⟨n, List.mem_range.1 hn⟩ (by omega)
  have hstatus : onTimerPage (timerReg n 7) := onTimerPage_timerReg ⟨n, List.mem_range.1 hn⟩ (by omega)
  have hstart := (timerStarted_frame n (setRegBit (timerReg n 0) 31 t)).mono (fun i hi => hi ▸ hstatus)
  exact .ite (.ite ((TimerFrame.setReg hctrl _ t).trans hstart) (.setReg hctrl _ t)) (.refl t)

/-- The register of the global start, or of the stop. -/
def globalReg (on : Bool) : Nat := if on then Reg.tmaGlobalStart else Reg.tmaGlobalStop

theorem applyWrite_globalReg (req : Requester) (on : Bool) (mask : Word) (s : State) :
    applyWrite req (globalReg on) mask s = globalTimers on mask s := by
  cases on <;> rfl

/-- A write of the global start or stop met by WriteOpen sets EN to what it asks for, of exactly the timers it moves. -/
theorem issueWrite_globalReg {s : State} {req : Requester} {on : Bool} {mask : Word}
    (h : WriteOpen s req (globalReg on) mask) (k : Fin 16) :
    timerEn (issueWrite req (globalReg on) mask s) k.val = if globalMoves on mask s k.val then on else timerEn s k.val := by
  have hpage : onTimerPage (globalReg on) := by
    cases on with
    | false => exact .inl rfl
    | true => exact .inl rfl
  have happly := applyWrite_globalReg req on mask s
  rw [issueWrite_onTimerPage h hpage (happly ▸ globalTimers_frame on mask s), happly, globalTimers_eq,
    timerEn_foldl_globalTimer]
  simp

theorem bitAt_mask (mask : BitVec 16) (k : Fin 16) : bitAt (mask.setWidth 32) k.val = mask.getLsbD k.val := by
  have hk : k.val < 32 := by omega
  simp [bitAt, hk]

/-- EN after the global start: set before, or named and no high half. -/
theorem globalMoves_start (s : State) (mask : BitVec 16) (k : Fin 16) :
    (if globalMoves true (mask.setWidth 32) s k.val then true else timerEn s k.val)
      = (timerEn s k.val || (mask.getLsbD k.val && !(highHalf s k.val))) := by
  rw [globalMoves, bitAt_mask]
  cases timerEn s k.val with
  | false => simp
  | true => simp

/-- EN after the global stop: set before, and not named or a high half. -/
theorem globalMoves_stop (s : State) (mask : BitVec 16) (k : Fin 16) :
    (if globalMoves false (mask.setWidth 32) s k.val then false else timerEn s k.val)
      = (timerEn s k.val && !(mask.getLsbD k.val && !(highHalf s k.val))) := by
  rw [globalMoves, bitAt_mask]
  cases timerEn s k.val with
  | false => simp
  | true => cases mask.getLsbD k.val <;> cases highHalf s k.val <;> rfl

/-! ## Counting (14 R528, R531, R534) -/

theorem timerEn_of_runs {s : State} {n : Nat} (h : timerRuns s n = true) : timerEn s n = true := by
  simp only [timerRuns, Bool.and_eq_true] at h
  exact h.1.2

theorem timerRuns_of_stopped {s : State} {n : Nat} (h : timerEn s n = false) : timerRuns s n = false := by
  simp [timerRuns, h]

/-- A state whose timer registers are the same, STATUS apart, counts the same. -/
theorem timerCount_congr {s t : State} (h : ∀ m off, off < 2 → getReg t (timerReg m off) = getReg s (timerReg m off))
    (n : Nat) :
    timerCount t n = timerCount s n := by
  have hlinked : timerLinked t n = timerLinked s n := regBit_congr (h _ 0 (by omega)) 29
  simp only [timerCount, hlinked, regBits, h _ 1 (by omega)]

theorem timerCount_of_showsEvent {s t : State} {k : Nat} (h : TimerFrame (showsEvent k) s t) (n : Nat) :
    timerCount t n = timerCount s n :=
  timerCount_congr (fun m _ hoff => h.regs _ (not_showsEvent_timerReg (by omega) (by omega) m k)) n

theorem timerEn_of_showsEvent {s t : State} {k : Nat} (h : TimerFrame (showsEvent k) s t) (n : Nat) :
    timerEn t n = timerEn s n :=
  regBit_congr (h.regs _ (not_showsEvent_timerReg (by omega) (by omega) n k)) 31

theorem not_holdsCount_timerReg {off : Nat} (hoff : off < 15) (h1 : off ≠ 1) (m n : Nat) :
    ¬ holdsCount n (timerReg m off) := by
  rintro (e | e)
  · exact timerReg_ne hoff (by omega) h1 m _ e
  · exact timerReg_ne hoff (by omega) h1 m _ e

theorem timerLinked_setTimerCount (n c m : Nat) (s : State) : timerLinked (setTimerCount n c s) m = timerLinked s m :=
  regBit_congr ((setTimerCount_frame n c s).regs _ (not_holdsCount_timerReg (by omega) (by omega) _ n)) 29

theorem timerEn_setTimerCount (n c m : Nat) (s : State) : timerEn (setTimerCount n c s) m = timerEn s m :=
  regBit_congr ((setTimerCount_frame n c s).regs _ (not_holdsCount_timerReg (by omega) (by omega) _ n)) 31

theorem bitsOf_ofNat_half (c : Nat) : bitsOf (BitVec.ofNat 32 (c % 0x10000)) 15 0 = c % 0x10000 := by
  simp [bitsOf]

/-- The counts that timer `n` can hold: 32 bits for a pair. -/
def timerRange (s : State) (n : Nat) : Nat := if timerLinked s n then 2 ^ 32 else 2 ^ 16

theorem timerTop_lt (s : State) (n : Nat) : timerTop s n < timerRange s n := by
  rw [timerTop, timerRange]
  split
  · exact bitsOf_lt _ _ _
  · exact bitsOf_lt _ _ _

/-- A count set is read back, both halves of it in a pair. -/
theorem timerCount_setTimerCount {s : State} {n c : Nat} (hc : c < timerRange s n) :
    timerCount (setTimerCount n c s) n = c := by
  have hhalves : timerReg n 1 ≠ timerReg (n + 1) 1 := timerReg_ne_of_ne (by omega) (by omega) (by omega)
  rw [timerCount, timerLinked_setTimerCount, setTimerCount]
  rw [timerRange] at hc
  cases hl : timerLinked s n with
  | true =>
    simp only [hl, if_true, regBits, getReg_setReg_self, getReg_setReg_ne _ _ _ _ hhalves, bitsOf_ofNat_half] at hc ⊢
    omega
  | false =>
    simp only [hl, Bool.false_eq_true, if_false, regBits, getReg_setReg_self, bitsOf_ofNat_half] at hc ⊢
    omega

/-- The timers' other state once a tick of timer `n` has been taken (14 R527). -/
def ticked (n : Nat) (s : State) : TimerUnit :=
  { s.timers with ticks := s.timers.ticks.set n (s.timers.ticks.getD n 0 + 1) }

/-- The match of the count `c` that a tick leaves, where CMP names it. -/
def matchIf (n cmp c : Nat) (s : State) : State := if cmp = c then timerMatch n s else s

/-- The overflow of timer `n` and, in one-shot mode, its stop. -/
def overflowStop (n : Nat) (oneShot : Bool) (s : State) : State :=
  if oneShot then clearRegBit (timerReg n 0) 31 (timerOverflow n s) else timerOverflow n s

/-- A tick below TOP. -/
theorem timerTick_counts {s : State} {n : Nat} (hr : timerRuns s n = true) (hd : tickDue s n = true)
    (hc : timerCount s n < timerTop s n) : timerTick n s
      = matchIf n (timerCmp s n) (timerCount s n + 1) (setTimerCount n (timerCount s n + 1) (setTimers (ticked n s) s)) := by
  have htop : ¬ timerTop (setTimers (ticked n s) s) n ≤ timerCount (setTimers (ticked n s) s) n := Nat.not_le.2 hc
  rw [ticked] at htop
  simp only [timerTick, hr, hd, Bool.not_true, Bool.or_self, Bool.false_eq_true, if_false, htop]
  rfl

/-- A tick at TOP or above it. -/
theorem timerTick_overflows {s : State} {n : Nat} (hr : timerRuns s n = true) (hd : tickDue s n = true)
    (hc : timerTop s n ≤ timerCount s n) : timerTick n s = matchIf n (timerCmp s n) 0
      (overflowStop n (regBit s (timerReg n 0) 30) (setTimerCount n 0 (setTimers (ticked n s) s))) := by
  have htop : timerTop (setTimers (ticked n s) s) n ≤ timerCount (setTimers (ticked n s) s) n := hc
  rw [ticked] at htop
  simp only [timerTick, hr, hd, Bool.not_true, Bool.or_self, Bool.false_eq_true, if_false, htop, if_true]
  rfl

theorem timerTick_stopped {s : State} {n : Nat} (h : timerRuns s n = false) : timerTick n s = s := by
  simp [timerTick, h]

@[simp] theorem pinAction_timers (n act : Nat) (s : State) : (pinAction n act s).timers = s.timers := by
  simp only [pinAction, apply_ite State.timers, setRegBit_timers, clearRegBit_timers, setRegBits_timers, ite_self]

@[simp] theorem timerMatch_timers (n : Nat) (s : State) : (timerMatch n s).timers = s.timers :=
  (pinAction_timers _ _ _).trans (raiseEvent_timers (timerPage n) (n % 8) s)

@[simp] theorem timerOverflow_timers (n : Nat) (s : State) : (timerOverflow n s).timers = s.timers :=
  (pinAction_timers _ _ _).trans (raiseEvent_timers (timerPage n) (8 + n % 8) s)

@[simp] theorem setTimerCount_timers (n c : Nat) (s : State) : (setTimerCount n c s).timers = s.timers := by
  simp only [setTimerCount, apply_ite State.timers, setReg_timers, ite_self]

@[simp] theorem matchIf_timers (n cmp c : Nat) (s : State) : (matchIf n cmp c s).timers = s.timers := by
  simp only [matchIf, apply_ite State.timers, timerMatch_timers, ite_self]

@[simp] theorem overflowStop_timers (n : Nat) (oneShot : Bool) (s : State) :
    (overflowStop n oneShot s).timers = s.timers := by
  simp only [overflowStop, apply_ite State.timers, clearRegBit_timers, timerOverflow_timers, ite_self]

theorem matchIf_frame (n cmp c : Nat) (s : State) : TimerFrame (showsEvent n) s (matchIf n cmp c s) :=
  .ite (timerMatch_frame n s) (.refl s)

theorem overflowStop_mem (n : Nat) (oneShot : Bool) (s : State) : (overflowStop n oneShot s).mem = s.mem := by
  simp only [overflowStop, apply_ite State.mem, clearRegBit_mem, (timerOverflow_frame n s).mem, ite_self]

/-- The stop of a timer leaves every count. -/
theorem timerCount_clearRegBit (m n : Nat) (s : State) :
    timerCount (clearRegBit (timerReg m 0) 31 s) n = timerCount s n := by
  have hlinked : timerLinked (clearRegBit (timerReg m 0) 31 s) n = timerLinked s n :=
    regBit_clearRegBit_ne (by decide) _ _ s
  have hcount : ∀ k, getReg (clearRegBit (timerReg m 0) 31 s) (timerReg k 1) = getReg s (timerReg k 1) := fun k =>
    getReg_clearRegBit_ne _ _ _ _ (timerReg_ne (by omega) (by omega) (by omega) k m)
  simp only [timerCount, hlinked, regBits, hcount]

theorem timerCount_overflowStop (n : Nat) (oneShot : Bool) (s : State) :
    timerCount (overflowStop n oneShot s) n = timerCount s n := by
  have hover := timerCount_of_showsEvent (timerOverflow_frame n s) n
  cases oneShot with
  | false => exact hover
  | true => exact (timerCount_clearRegBit n n _).trans hover

theorem timerEn_overflowStop (n : Nat) (oneShot : Bool) {s : State} (h : timerEn s n = true) :
    timerEn (overflowStop n oneShot s) n = !oneShot := by
  cases oneShot with
  | false => exact (timerEn_of_showsEvent (timerOverflow_frame n s) n).trans h
  | true => exact regBit_clearRegBit _ 31 _ (by decide)

/-! ## Events of a timer (14 R542) -/

/-- A pin action touches no event. -/
theorem regBit_pinAction_event (n act p b : Nat) (s : State) :
    regBit (pinAction n act s) (pageReg p 4) b = regBit s (pageReg p 4) b := by
  have hne : pageReg p 4 ≠ timerReg n 7 := (timerReg_ne_pageReg (by omega) (by omega) n p).symm
  exact regBit_congr ((pinAction_frame n act s).regs _ hne) b

theorem regBit_timerMatch (n : Nat) (s : State) : regBit (timerMatch n s) (pageReg (timerPage n) 4) (n % 8) = true :=
  (regBit_pinAction_event n _ _ _ _).trans (regBit_raiseEvent _ _ s (by omega))

theorem regBit_timerOverflow (n : Nat) (s : State) :
    regBit (timerOverflow n s) (pageReg (timerPage n) 4) (8 + n % 8) = true :=
  (regBit_pinAction_event n _ _ _ _).trans (regBit_raiseEvent _ _ s (by omega))

/-- A match clears no event. -/
theorem regBit_matchIf_of_set {n cmp c b : Nat} {s : State} (h : regBit s (pageReg (timerPage n) 4) b = true) :
    regBit (matchIf n cmp c s) (pageReg (timerPage n) 4) b = true := by
  rw [matchIf]
  split
  · exact (regBit_pinAction_event n _ _ _ _).trans (regBit_setRegBit_of_set _ _ _ h)
  · exact h

theorem regBit_overflowStop (n : Nat) (oneShot : Bool) (s : State) :
    regBit (overflowStop n oneShot s) (pageReg (timerPage n) 4) (8 + n % 8) = true := by
  have hover := regBit_timerOverflow n s
  cases oneShot with
  | false => exact hover
  | true =>
    exact (regBit_congr (getReg_clearRegBit_ne _ _ _ _ (timerReg_ne_pageReg (by omega) (by omega) n _).symm) _).trans hover

/-! ## Ticks as a whole -/

/-- A tick below TOP raises the count by one; the timer runs on. -/
theorem timerTick_below {s : State} {n : Nat} (hr : timerRuns s n = true) (hd : tickDue s n = true)
    (hc : timerCount s n < timerTop s n) :
    timerCount (timerTick n s) n = timerCount s n + 1 ∧ timerEn (timerTick n s) n = true
      ∧ (timerTick n s).timers = ticked n s ∧ (timerTick n s).mem = s.mem := by
  have hmatch := matchIf_frame n (timerCmp s n) (timerCount s n + 1)
    (setTimerCount n (timerCount s n + 1) (setTimers (ticked n s) s))
  have hbound : timerCount s n + 1 < timerRange (setTimers (ticked n s) s) n :=
    Nat.lt_of_le_of_lt hc (timerTop_lt s n)
  rw [timerTick_counts hr hd hc]
  refine ⟨?_, ?_, ?_, ?_⟩
  · exact (timerCount_of_showsEvent hmatch n).trans (timerCount_setTimerCount hbound)
  · exact (timerEn_of_showsEvent hmatch n).trans ((timerEn_setTimerCount _ _ _ _).trans (timerEn_of_runs hr))
  · simp
  · exact hmatch.mem.trans (setTimerCount_frame _ _ _).mem

/-- A tick at TOP or above returns the count to 0, raises the overflow, and in one-shot mode stops the timer. -/
theorem timerTick_top {s : State} {n : Nat} (hr : timerRuns s n = true) (hd : tickDue s n = true)
    (hc : timerTop s n ≤ timerCount s n) :
    timerCount (timerTick n s) n = 0 ∧ regBit (timerTick n s) (pageReg (timerPage n) 4) (8 + n % 8) = true
      ∧ timerEn (timerTick n s) n = !(regBit s (timerReg n 0) 30)
      ∧ (timerTick n s).timers = ticked n s ∧ (timerTick n s).mem = s.mem := by
  have hmatch := matchIf_frame n (timerCmp s n) 0
    (overflowStop n (regBit s (timerReg n 0) 30) (setTimerCount n 0 (setTimers (ticked n s) s)))
  have hbound : 0 < timerRange (setTimers (ticked n s) s) n := Nat.lt_of_le_of_lt (Nat.zero_le _) (timerTop_lt s n)
  have hen : timerEn (setTimerCount n 0 (setTimers (ticked n s) s)) n = true :=
    (timerEn_setTimerCount _ _ _ _).trans (timerEn_of_runs hr)
  rw [timerTick_overflows hr hd hc]
  refine ⟨?_, ?_, ?_, ?_, ?_⟩
  · exact (timerCount_of_showsEvent hmatch n).trans
      ((timerCount_overflowStop _ _ _).trans (timerCount_setTimerCount hbound))
  · exact regBit_matchIf_of_set (regBit_overflowStop _ _ _)
  · exact (timerEn_of_showsEvent hmatch n).trans (timerEn_overflowStop _ _ hen)
  · simp
  · exact hmatch.mem.trans ((overflowStop_mem _ _ _).trans (setTimerCount_frame _ _ _).mem)

/-- A tick to the count that CMP names raises the match. -/
theorem regBit_timerTick_match {s : State} {n : Nat} (hr : timerRuns s n = true) (hd : tickDue s n = true)
    (hc : timerCount s n < timerTop s n) (hcmp : timerCmp s n = timerCount s n + 1) :
    regBit (timerTick n s) (pageReg (timerPage n) 4) (n % 8) = true := by
  rw [timerTick_counts hr hd hc, matchIf, if_pos hcmp]
  exact regBit_timerMatch _ _

/-! ## Capture (14 R537, R538) -/

/-- STATUS of timer `n` shows a new capture, and an overrun where one was shown already (14 R538). -/
def markCapture (n : Nat) (s : State) : State :=
  setRegBit (timerReg n 7) 29 (if regBit s (timerReg n 7) 29 then setRegBit (timerReg n 7) 28 s else s)

theorem markCapture_frame (n : Nat) (s : State) : TimerFrame (showsLevel n) s (markCapture n s) := by
  have hoverrun : TimerFrame (showsLevel n) s
      (if regBit s (timerReg n 7) 29 then setRegBit (timerReg n 7) 28 s else s) :=
    .ite (.setReg (showsLevel_status n) _ s) (.refl s)
  exact hoverrun.trans (.setReg (showsLevel_status n) _ _)

theorem markCapture_timers (n : Nat) (s : State) : (markCapture n s).timers = s.timers := by
  simp only [markCapture, setRegBit_timers, apply_ite State.timers, ite_self]

/-- The register that takes the count: CAP, or CAP32 of a pair. -/
def captureReg (s : State) (n : Nat) : Nat := timerReg n (if timerLinked s n then 13 else 4)

/-- The count of timer `n` is captured, and the edge counter restarts. -/
def captureTaken (n : Nat) (s : State) : State :=
  markCapture n (raiseEvent (timerPage n) (16 + n % 8)
    (setReg (captureReg s n) (BitVec.ofNat 32 (timerCount s n)) (setEdges n 0 s)))

theorem captureEdge_counts {s : State} {n : Nat} (h : s.timers.edges.getD n 0 + 1 ≤ regBits s (timerReg n 5) 7 0) :
    captureEdge n s = setEdges n (s.timers.edges.getD n 0 + 1) s := by
  simp only [captureEdge, h, if_true]

theorem captureEdge_captures {s : State} {n : Nat} (h : regBits s (timerReg n 5) 7 0 < s.timers.edges.getD n 0 + 1) :
    captureEdge n s = captureTaken n s := by
  simp only [captureEdge, Nat.not_le.2 h, if_false]
  rfl

theorem edges_setEdges (n : Fin 16) (k : Nat) {s : State} (h : s.timers.edges.length = 16) :
    (setEdges n.val k s).timers.edges.getD n.val 0 = k := getD_set_sixteen n k h

theorem captureTaken_shows (n : Fin 16) {s : State} (h : s.timers.edges.length = 16) :
    (captureTaken n.val s).timers.edges.getD n.val 0 = 0 ∧ regBit (captureTaken n.val s) (timerReg n.val 7) 29 = true
      ∧ regBit (captureTaken n.val s) (pageReg (timerPage n.val) 4) (16 + n.val % 8) = true
      ∧ getReg (captureTaken n.val s) (captureReg s n.val) = BitVec.ofNat 32 (timerCount s n.val)
      ∧ (captureTaken n.val s).mem = s.mem := by
  have hmark := markCapture_frame n.val (raiseEvent (timerPage n.val) (16 + n.val % 8)
    (setReg (captureReg s n.val) (BitVec.ofNat 32 (timerCount s n.val)) (setEdges n.val 0 s)))
  have hplace : captureReg s n.val ≠ timerReg n.val 7 ∧ captureReg s n.val ≠ pageReg (timerPage n.val) 4 := by
    rw [captureReg]
    split
    · exact ⟨timerReg_ne (by omega) (by omega) (by omega) _ _, timerReg_ne_pageReg (by omega) (by omega) _ _⟩
    · exact ⟨timerReg_ne (by omega) (by omega) (by omega) _ _, timerReg_ne_pageReg (by omega) (by omega) _ _⟩
  have hevent : ¬ showsLevel n.val (pageReg (timerPage n.val) 4) :=
    fun e => timerReg_ne_pageReg (by omega) (by omega) _ _ e.symm
  refine ⟨?_, regBit_setRegBit _ 29 _ (by decide), ?_, ?_, ?_⟩
  · rw [captureTaken, markCapture_timers, raiseEvent_timers, setReg_timers, edges_setEdges n 0 h]
  · exact (regBit_congr (hmark.regs _ hevent) _).trans (regBit_raiseEvent _ _ _ (by omega))
  · rw [captureTaken, hmark.regs _ hplace.1, getReg_raiseEvent_ne _ _ _ _ hplace.2, getReg_setReg_self]
  · rw [captureTaken, hmark.mem, raiseEvent_mem, setReg_mem, setEdges_mem]

/-- The timers' other state once timer `n` has accepted a level of its capture input. -/
def accepting (n : Nat) (level : Bool) (s : State) : TimerUnit :=
  { s.timers with accepted := s.timers.accepted.set n (some level), differing := s.timers.differing.set n 0 }

/-- A sample that differs from the accepted level for long enough is an edge, which counts if it is of the selected kind. -/
theorem captureSample_edge {s : State} {n : Nat} {level : Bool} (ha : s.timers.accepted.getD n none = some (!level))
    (hk : captureKind s n level = true) (hf : regBits s (timerReg n 5) 19 16 ≤ s.timers.differing.getD n 0 + 1) :
    captureSample n level s = captureEdge n (setTimers (accepting n level s) s) := by
  have hdiffers : (!level) ≠ level := by cases level <;> decide
  have hkind : captureKind (setTimers (accepting n level s) s) n level = true := hk
  rw [accepting] at hkind
  simp only [captureSample, ha, hdiffers, if_false, Nat.not_lt.2 hf, hkind, if_true]
  rfl

/-- One sample at a running timer that captures. -/
theorem exec_timerCapture {s : State} {n : Fin 16} {level : Bool} (hr : timerRuns s n.val = true)
    (he : regBit s (timerReg n.val 0) 28 = true) :
    exec (.timerCapture n [level]) s = .next (captureSample n.val level s) := by
  have hexec : exec (.timerCapture n [level]) s = execTimerCapture n [level] s := rfl
  rw [hexec, execTimerCapture]
  simp only [hr, he, Bool.not_true, Bool.or_self, Bool.false_eq_true, if_false, List.foldl]

/-! ## Commands that write a register of a timer -/

section
variable {s : State} {req : Requester} {n : Fin 16} {w : Word}

theorem exec_ctrl (h : WriteOpen s req (timerReg n.val 0) w) : exec (.ctrl req n w) s
    = .next (timerWritten n.val 0 (getReg s (timerReg n.val 0)) (withWritten s (timerReg n.val 0) w)) :=
  congrArg Host.Outcome.next (issueWrite_timerReg (by decide) h)

theorem exec_cnt (h : WriteOpen s req (timerReg n.val 1) w) :
    exec (.cnt req n .count w) s = .next (withWritten s (timerReg n.val 1) w) :=
  congrArg Host.Outcome.next ((issueWrite_timerReg (by decide) h).trans (timerWritten_count (.inl rfl) _ _ _))

theorem exec_top (h : WriteOpen s req (timerReg n.val 2) w) :
    exec (.cnt req n .top w) s = .next (withWritten s (timerReg n.val 2) w) :=
  congrArg Host.Outcome.next ((issueWrite_timerReg (by decide) h).trans (timerWritten_count (.inr rfl) _ _ _))

theorem exec_cmp (h : WriteOpen s req (timerReg n.val 3) w) (hl : timerLinked s n.val = false) :
    let t := withWritten s (timerReg n.val 3) w
    exec (.cmp req n false w) s = .next (if getReg t (timerReg n.val 3) ≠ getReg s (timerReg n.val 3) ∧ timerRuns t n.val
      ∧ cmpPassed t n.val then timerMatch n.val t else t) := by
  have hctrl : timerReg (n.val / 2 * 2) 0 ≠ timerReg n.val 3 := timerReg_ne (by omega) (by omega) (by omega) _ _
  have hlinked : timerLinked (withWritten s (timerReg n.val 3) w) n.val = false :=
    (regBit_congr (getReg_withWritten_ne hctrl s w) 29).trans hl
  exact congrArg Host.Outcome.next ((issueWrite_timerReg (by decide) h).trans (timerWritten_cmp hlinked _))

/-- A write of CTRL stores it and leaves the counts, the events and the memory. -/
theorem ctrl_keeps (s : State) (n : Fin 16) (w : Word) :
    let t := timerWritten n.val 0 (getReg s (timerReg n.val 0)) (withWritten s (timerReg n.val 0) w)
    getReg t (timerReg n.val 0) = mergedWord s (timerReg n.val 0) w ∧ getReg t (timerReg n.val 1) = getReg s (timerReg n.val 1)
      ∧ getReg t (pageReg (timerPage n.val) 4) = getReg s (pageReg (timerPage n.val) 4) ∧ t.mem = s.mem := by
  have hframe := timerWritten_ctrl_frame n.val (getReg s (timerReg n.val 0)) (withWritten s (timerReg n.val 0) w)
  have hevent : ∀ off, off < 15 → pageReg (timerPage n.val) 4 ≠ timerReg n.val off := fun off hoff e =>
    timerReg_ne_pageReg hoff (by omega) _ _ e.symm
  refine ⟨?_, ?_, ?_, hframe.mem⟩
  · rw [hframe.regs _ (timerReg_ne (by omega) (by omega) (by omega) _ _), getReg_withWritten]
  · rw [hframe.regs _ (timerReg_ne (by omega) (by omega) (by omega) _ _),
      getReg_withWritten_ne (timerReg_ne (by omega) (by omega) (by omega) _ _)]
  · rw [hframe.regs _ (hevent 7 (by omega)), getReg_withWritten_ne (hevent 0 (by omega))]

/-- The word that LINK writes has bit 29 as the pair is to be. -/
theorem bitAt_linkWord (w : Word) (join : Bool) :
    bitAt (if join then (w &&& ~~~(oneBit 29)) ||| oneBit 29 else w &&& ~~~(oneBit 29)) 29 = join := by
  cases join <;> simp [bitAt, oneBit]

end

/-! ## A stopped timer (14 R530) -/

/-- Nothing happens at a stopped timer. -/
theorem exec_stopped {s : State} {n : Fin 16} (h : timerEn s n.val = false) :
    exec (.tick n) s = .next s ∧ exec (.overflow n) s = .next s ∧ exec (.matchEvent n) s = .next s
      ∧ ∀ samples, exec (.timerCapture n samples) s = .next s := by
  have hruns := timerRuns_of_stopped h
  have htick := timerTick_stopped hruns
  have hcapture : ∀ samples, execTimerCapture n samples s = .next s := fun samples => by simp [execTimerCapture, hruns]
  have hoverflow : execOverflow n s = .next s := by rw [execOverflow, htick, ite_self]
  have hmatch : execMatchEvent n s = .next s := by simp only [execMatchEvent, htick, ite_self]
  exact ⟨congrArg Host.Outcome.next htick, hoverflow, hmatch, hcapture⟩

/-- A write of CMP of a stopped timer is stored and fires nothing. -/
theorem exec_cmp_stopped {s : State} {req : Requester} {n : Fin 16} {w : Word} (hstopped : timerEn s n.val = false)
    (h : WriteOpen s req (timerReg n.val 3) w) (hl : timerLinked s n.val = false) :
    exec (.cmp req n false w) s = .next (withWritten s (timerReg n.val 3) w) := by
  have hctrl : timerReg n.val 0 ≠ timerReg n.val 3 := timerReg_ne (by omega) (by omega) (by omega) _ _
  have hen : timerEn (withWritten s (timerReg n.val 3) w) n.val = false :=
    (regBit_congr (getReg_withWritten_ne hctrl s w) 31).trans hstopped
  simp [exec_cmp h hl, timerRuns_of_stopped hen]

/-! ## The statement -/

/-- Settles O25: a write goes through the equation of its register, a tick through what it does below TOP or at it, an edge
through what it does before the last of a capture or at it; a stopped timer does none of it. -/
theorem timers : Obligations.Timers := by
  refine ⟨fun s req n w => ⟨?ctrl, exec_cnt, exec_top, fun h hl _ => exec_cmp h hl, ?link, ?start, ?stop, ?read⟩,
    fun s n hr => ⟨fun hd => ⟨?below, ?top, ?meets⟩, ?capture⟩, fun s n hstopped => ?stopped⟩
  case ctrl =>
    refine fun h _ => ⟨exec_ctrl h, fun hlen hen hstopped => ⟨_, exec_ctrl h, ?_⟩⟩
    obtain ⟨hctrl, hcount, hevent, -⟩ := ctrl_keeps s n w
    have hnew : bitAt (getReg (withWritten s (timerReg n.val 0) w) (timerReg n.val 0)) 31 = true := by
      rw [getReg_withWritten, hen]
    refine ⟨hctrl, ?_, hcount, hevent⟩
    rw [timerWritten_ctrl_edges hnew hstopped]
    exact getD_set_sixteen n 0 hlen
  case link =>
    intro join x h heven
    obtain ⟨hctrl, -, -, hmem⟩ := ctrl_keeps s n x
    have hself : n.val / 2 * 2 = n.val := by omega
    refine completes_of_next rfl (issueWrite_timerReg (by decide) h) ⟨?_, hmem⟩
    rw [timerLinked, hself, regBit, hctrl, bitAt_mergedWord_link]
    exact bitAt_linkWord _ join
  case start =>
    exact fun mask h => ⟨_, rfl, fun k => (issueWrite_globalReg (on := true) h k).trans (globalMoves_start s mask k)⟩
  case stop =>
    exact fun mask h => ⟨_, rfl, fun k => (issueWrite_globalReg (on := false) h k).trans (globalMoves_stop s mask k)⟩
  case read =>
    exact fun hup hfirst hl => completes_of_next rfl (readRegister_count hup hfirst) (captureHalf_linked hl _)
  case below => exact fun hc => ⟨_, rfl, timerTick_below hr hd hc⟩
  case top =>
    intro hc
    have hexec : exec (.overflow n) s = .next (timerTick n.val s) := congrArg Host.Outcome.next (if_pos hc)
    exact ⟨hexec.symm, _, hexec, timerTick_top hr hd hc⟩
  case meets =>
    intro hc hcmp
    obtain ⟨hcount, -, htimers, hmem⟩ := timerTick_below hr hd hc
    have hnext : (if timerTop s n.val ≤ timerCount s n.val then 0 else timerCount s n.val + 1) = timerCmp s n.val := by
      rw [if_neg (Nat.not_le.2 hc), hcmp]
    exact completes_of_next rfl (if_pos hnext) ⟨hcount, regBit_timerTick_match hr hd hc hcmp, htimers, hmem⟩
  case capture =>
    intro level hen hlen haccepted hkind hfilter
    have hexec := (exec_timerCapture hr hen).trans
      (congrArg Host.Outcome.next (captureSample_edge haccepted hkind hfilter))
    refine ⟨fun hmore => completes_of_next hexec (captureEdge_counts hmore) ⟨?_, rfl, rfl⟩,
      fun hlast => completes_of_next hexec (captureEdge_captures hlast) (captureTaken_shows n hlen)⟩
    exact edges_setEdges n _ hlen
  case stopped =>
    obtain ⟨htick, hoverflow, hmatch, hcapture⟩ := exec_stopped hstopped
    exact ⟨htick, hoverflow, hmatch, hcapture, fun _ _ => exec_cmp_stopped hstopped⟩

end Sys2Proof.Machine
